-- ==== Sys2Proof/Word.lean ====
section
/-!
DEFINITION. The words of the TW-420 and the small fixed-size collections the spec counts with: four
denominations or cassettes, two windows.
-/
namespace Sys2Proof

/-- A byte of a frame or a record. -/
abbrev Byte := BitVec 8

/-- A 32-bit quantity: the clock count (R190) and the inventory generation (R8). -/
abbrev Word32 := BitVec 32

/-- A denomination D1 to D4 or a cassette C1 to C4. -/
inductive Ix where
  | i1 | i2 | i3 | i4
  deriving DecidableEq, Repr, Inhabited

/-- The number 1 to 4 the spec writes for a denomination or cassette. -/
def Ix.number : Ix → Nat
  | .i1 => 1
  | .i2 => 2
  | .i3 => 3
  | .i4 => 4

/-- All four, in ascending number. -/
def Ix.all : List Ix := [.i1, .i2, .i3, .i4]

/-- Four values, one for each denomination or each cassette. -/
structure Quad (α : Type) where
  c1 : α
  c2 : α
  c3 : α
  c4 : α
  deriving DecidableEq, Repr

/-- The value of one index. -/
def Quad.get {α : Type} (q : Quad α) : Ix → α
  | .i1 => q.c1
  | .i2 => q.c2
  | .i3 => q.c3
  | .i4 => q.c4

/-- The four values with that of one index replaced. -/
def Quad.set {α : Type} (q : Quad α) (i : Ix) (x : α) : Quad α :=
  match i with
  | .i1 => { q with c1 := x }
  | .i2 => { q with c2 := x }
  | .i3 => { q with c3 := x }
  | .i4 => { q with c4 := x }

/-- The same value four times. -/
def Quad.all {α : Type} (x : α) : Quad α := ⟨x, x, x, x⟩

/-- Four values given by their index. -/
def Quad.of {α : Type} (f : Ix → α) : Quad α := ⟨f .i1, f .i2, f .i3, f .i4⟩

/-- Each value through a function. -/
def Quad.map {α β : Type} (f : α → β) (q : Quad α) : Quad β := ⟨f q.c1, f q.c2, f q.c3, f q.c4⟩

/-- Two sets of four, index by index. -/
def Quad.zip {α β γ : Type} (f : α → β → γ) (p : Quad α) (q : Quad β) : Quad γ :=
  ⟨f p.c1 q.c1, f p.c2 q.c2, f p.c3 q.c3, f p.c4 q.c4⟩

/-- Four zero counts. -/
def Quad.zero : Quad Nat := Quad.all 0

/-- The sum of four counts. -/
def Quad.total (q : Quad Nat) : Nat := q.c1 + q.c2 + q.c3 + q.c4

/-- Counts added index by index. -/
def Quad.add (p q : Quad Nat) : Quad Nat := Quad.zip (· + ·) p q

/-- Counts as signed counts. -/
def Quad.toInt (q : Quad Nat) : Quad Int := q.map (fun n : Nat => (n : Int))

/-- A teller window. -/
inductive Teller where
  | a | b
  deriving DecidableEq, Repr

/-- The other window. -/
def Teller.other : Teller → Teller
  | .a => .b
  | .b => .a

/-- One value for each window. -/
structure Pair (α : Type) where
  a : α
  b : α
  deriving DecidableEq, Repr

/-- The value of one window. -/
def Pair.get {α : Type} (p : Pair α) : Teller → α
  | .a => p.a
  | .b => p.b

/-- Both values with that of one window replaced. -/
def Pair.set {α : Type} (p : Pair α) (t : Teller) (x : α) : Pair α :=
  match t with
  | .a => { p with a := x }
  | .b => { p with b := x }

end Sys2Proof
end

