-- ==== Sys2Proof/Config.lean ====
section
/-!
DEFINITION. What the part fixes once and for all (capacities, fixed times, codes) and the free values: opaque
constants for what the spec leaves open, about which nothing can be proved (notes/assumptions/3.md).
-/
namespace Sys2Proof.Config

/-- Physical capacity of the ESCROW drum, in notes (R1, R95). -/
def escrowNotes : Nat := 200
/-- Greatest number of bundles in the escrow stack (R95). -/
def escrowBundles : Nat := 8
/-- Greatest number of notes in one bundle (R95, R102). -/
def bundleNotes : Nat := 100
/-- Capacity of a teller pocket, the upper bound of the note cap (R1, R39). -/
def pocketNotes : Nat := 100
/-- Capacity of the REJECT BIN (R1). -/
def rejectNotes : Nat := 300
/-- Capacity of the RETRACT BIN (R1, R66). -/
def retractNotes : Nat := 200
/-- REJECT BIN count from which a dispense is refused (R67). -/
def rejectMargin : Nat := 290
/-- RETRACT BIN count from which a dispense is refused (R67). -/
def retractMargin : Nat := 190
/-- Capacity of the SUSPECT COMPARTMENT (R2). -/
def suspectNotes : Nat := 50
/-- A flow above this refuses the requests of R3. -/
def flowMargin : Nat := 980000
/-- A DISCREPANCY count above this, or below its negative, refuses the requests of R3. -/
def discrepancyMargin : Int := 80000
/-- The per-dispense pick limit of one cassette (R38). -/
def pickLimit : Nat := 50
/-- The reject limit of one dispense (R59). -/
def rejectLimit : Nat := 10
/-- Consecutive empty picks that fail a cassette (R60). -/
def pickFailures : Nat := 3
/-- Consecutive missed feeds that end a feed (R102). -/
def feedMisses : Nat := 3
/-- Greatest balance, in cents (R7, R28). -/
def balanceMax : Int := 999999999
/-- Greatest coin due, in cents (R7). -/
def coinDueMax : Nat := 999999
/-- Greatest unsigned amount, in cents (R27). -/
def unsignedMax : Nat := 99999999

/-- Records the journal can hold (R161). -/
def journalSlots : Nat := 4096
/-- Entries of the staging queue (R166). -/
def stagingEntries : Nat := 32
/-- Staging entries a request must find free (R162). -/
def stagingReserve : Nat := 8
/-- The event reserve (R162, R163). -/
def eventReserve : Nat := 64
/-- Occupied slots at which JOURNAL_HIGH is raised (R165). -/
def highWater : Nat := 3584
/-- The last sequence number (R160). -/
def lastSequence : Nat := 4294967295
/-- The greatest lost-event count (R163). -/
def lostMax : Nat := 65535
/-- Attempts at writing one record before STALLED (R167). -/
def writeAttempts : Nat := 3

/-- Fixed timer lengths, in seconds or, where the name says so, milliseconds. -/
def keypadTime : Nat := 30
/-- R123. -/
def intakeTime : Nat := 3
/-- R123. -/
def reverseTime : Nat := 2
/-- R126. -/
def imprinterTime : Nat := 2
/-- R126. -/
def dropTime : Nat := 3
/-- R131. -/
def clearRunTime : Nat := 5
/-- R140. -/
def monitorTime : Nat := 60
/-- R156. -/
def sounderTime : Nat := 300
/-- R188. -/
def approvalTime : Nat := 60
/-- R125: three pullbacks within this many seconds are a slot tamper. -/
def pullbackTime : Nat := 60
/-- R132: the near-full mark stands this far below the envelope bin capacity. -/
def nearFullMargin : Nat := 40
/-- The count at which the calendar ends (R190). -/
def calendarEnd : Nat := 3155760000
/-- The merge count of a notice stays here (R185). -/
def mergeMax : Nat := 255
/-- The applied count of a scan is at most this (R170). -/
def scanMax : Nat := 4096
/-- Greatest envelope sequence number (R128). -/
def envelopeLast : Nat := 9999999

/-- FREE VALUE. The denomination to which an unreadable surplus note is attributed when no denomination is
defined: R64 names the defined denomination of smallest value, and there may be none. -/
opaque undefinedAttribution : Nat → Ix

/-- FREE VALUE. The seconds a running timer still has, as STATUS reports them (R183): elapsed time is not counted by
any command. The report bounds it by the timer's length. -/
opaque secondsLeft : Nat → Nat

/-- FREE VALUE. Whether MOUTH reports an object when STATUS reads the slot (R117). -/
opaque mouthObject : Nat → Bool

/-- FREE VALUE. The characters of the receipt of an envelope for which no imprint line was composed (R126, R129). -/
opaque uncomposedReceipt : Nat → List Char

/-- FREE VALUE. The code byte of a named value to which the spec gives no code: a state, an owner, a verdict (11.2 gives codes to
operands only). -/
opaque freeCode {α : Type} : α → BitVec 8

end Sys2Proof.Config
end

