-- ==== Sys2Proof/Syntax.lean ====
section
/-!
DEFINITION. The commands of the TW-420: one constructor of Instr for each row of spec/opcode_table.json, and the
names their operands use.
-/
namespace Sys2Proof

/-- The four ports, with their fixed roles (00, R182). -/
inductive Port where
  | a | b | s | m
  deriving DecidableEq, Repr

/-- The port of a window. -/
def Teller.port : Teller → Port
  | .a => .a
  | .b => .b

/-- The window of a teller port. -/
def Port.teller? : Port → Option Teller
  | .a => some .a
  | .b => some .b
  | .s => none
  | .m => none

/-- A valid request frame as the receiver hands it on (R177, R201, 11.1): the port, the duress mark (bit 7 of the kind
byte, read at ports A and B only, R184), the tag and the operand bytes that follow the code. -/
structure Frame where
  port : Port
  duress : Bool
  tag : Byte
  operands : List Byte
  deriving DecidableEq, Repr

/-- Why a frame is discarded (R177). -/
inductive FrameFault where
  /-- A length byte below 3 or above 64. -/
  | badLength
  /-- A byte of the frame with a missing stop bit. -/
  | noStopBit
  /-- A break on the line during the frame. -/
  | lineBreak
  /-- The check value does not match. -/
  | crcMismatch
  /-- A valid frame whose kind is not request. -/
  | notRequest
  deriving DecidableEq, Repr

/-- The requests, one for each code of 11.2. -/
inductive Request where
  | dispense | cancel | claim | release
  | depositOpen | insertNotes | returnLast | returnAll | compareEscrow | commit | depositClose
  | post | handover | load | unload | reconcile
  | jamClear | slotOpen | slotClose | binEmptied
  | zoneSet | arm | disarm | bypass | alarmAck | alarmList | silence
  | journalRead | journalScan | trim | sync
  | status | positionRead | clearFaults | approve | clockSet | setSetting | restart
  deriving DecidableEq, Repr

/-- The check of a note at the path sensor (R59). -/
inductive NoteCheck where
  | good | long | skew | double
  deriving DecidableEq, Repr

/-- The notes a pick event reports (R58). -/
inductive Multiplicity where
  | m0 | m1 | m2
  deriving DecidableEq, Repr

/-- The number of notes of a multiplicity. -/
def Multiplicity.notes : Multiplicity → Nat
  | .m0 => 0
  | .m1 => 1
  | .m2 => 2

/-- The validator's verdict on a fed note (R101). -/
inductive NoteVerdict where
  | genuineFit (d : Ix)
  | genuineUnfit (d : Ix)
  | suspect
  | unreadable
  deriving DecidableEq, Repr

/-- A reading of a zone loop (R138). -/
inductive Reading where
  | normal | active | open_ | short
  deriving DecidableEq, Repr

/-- What the imprinter reports (R126). -/
inductive ImprintResult where
  | printed | fault
  deriving DecidableEq, Repr

/-- What the receipt printer reports (R129). -/
inductive ReceiptResult where
  | printed | paperOut
  deriving DecidableEq, Repr

/-- The points of the note path at which a note can last have been seen (R62). `way` numbers the transport sensors that
the spec gives no name (11.5 counts twelve sensor inputs). -/
inductive Sensor where
  | picker (k : Ix)
  | path
  | pocket (t : Teller)
  | transit
  | rejectBin
  | retractBin
  | intake (t : Teller)
  | validator
  | drumEntry
  | drumExit
  | way (n : Fin 12)
  deriving DecidableEq, Repr

/-- A transported note reaches a sensor (R62): the one it was last seen at, which tells what note it is (the model's choice,
notes/assumptions/79.md), and the one it has reached. -/
structure Arrival where
  lastSeen : Sensor
  reached : Sensor
  deriving DecidableEq, Repr

/-- A command to the part. The first forty are request frames; their operands are the bytes received (11.2). -/
inductive Instr where
  | dispense (f : Frame)
  | cancel (f : Frame)
  | claim (f : Frame)
  | release (f : Frame)
  | depositOpen (f : Frame)
  | depositClose (f : Frame)
  | insertNotes (f : Frame)
  | returnLast (f : Frame)
  | returnAll (f : Frame)
  | compareEscrow (f : Frame)
  | commit (f : Frame)
  | post (f : Frame)
  | handover (f : Frame)
  | load (f : Frame)
  | unload (f : Frame)
  | unloadBin (f : Frame)
  | reconcile (f : Frame)
  | jamClearModule (f : Frame)
  | jamClearSlot (f : Frame)
  | slotOpen (f : Frame)
  | slotClose (f : Frame)
  | binEmptied (f : Frame)
  | zoneSet (f : Frame)
  | arm (f : Frame)
  | disarm (f : Frame)
  | bypass (f : Frame)
  | alarmAck (f : Frame)
  | alarmList (f : Frame)
  | silence (f : Frame)
  | journalRead (f : Frame)
  | journalScan (f : Frame)
  | trim (f : Frame)
  | sync (f : Frame)
  | status (f : Frame)
  | positionRead (f : Frame)
  | clearFaults (f : Frame)
  | approve (f : Frame)
  | clockSet (f : Frame)
  | setSetting (f : Frame)
  | restart (f : Frame)
  /-- A request whose code byte names no request. -/
  | unknownRequest (code : Byte) (f : Frame)
  | invalidFrame (p : Port) (why : FrameFault)
  | frameGapTimeout (p : Port)
  | overrun (p : Port)
  | frameSent (p : Port)
  | duressRaise (t : Teller)
  | claimIdleExpiry
  | delayEnd (t : Teller)
  | presentTimerExpiry (t : Teller)
  | pocketEmpty (t : Teller)
  | pickEvent (m : Multiplicity)
  | noteCheck (r : NoteCheck)
  | noteSensorArrival (a : Arrival)
  /-- The 2 s timer of a note last seen at the sensor named expires. -/
  | noteJam (lastSeen : Sensor)
  /-- The validator reads a drawn note: a denomination, or none for UNREADABLE. -/
  | retractNoteCounted (d : Option Ix)
  | drawSourceEmpty
  | cassetteRemoval (k : Ix)
  | cassetteInsertion (k : Ix)
  | feedTake
  | feedMiss
  | insertVerdict (v : NoteVerdict)
  | drumEntry
  | compartmentEntry
  | returnPocketEntry
  | intakeEmpty (t : Teller)
  | drumExit
  | drumEmpty
  | cassetteEntry (k : Ix)
  | gripOn
  | gripOff
  | imprintReport
  | intakeTimerExpiry
  | reverseTimerExpiry
  | imprinterReport (r : ImprintResult)
  | imprinterTimeout
  | dropReport
  | dropTimerExpiry
  | clearRunExpiry
  | mouthClear
  | keyDigit (d : Fin 10)
  | keyEnter
  | keyClear
  | keypadTimerExpiry
  | receiptPrinterReport (r : ReceiptResult)
  | paperLoaded
  | loopReading (z : Fin 14) (r : Reading)
  | debouncedReadingChange (z : Fin 14)
  | entryTimerExpiry (z : Fin 16)
  | monitorTimerExpiry
  | sounderTimerExpiry
  | approvalExpiry (p : Port)
  | syncTimeout (p : Port)
  | writeComplete
  | writeFailed
  | stalledRetry
  | clockTick
  | clockCalendarEnd
  /-- VDD returns; the memory check passes or fails, the drum reports notes or none, and the envelope path (GRIP, IMPRINT,
  DROP) reports an envelope or none (R116, R134, R198). -/
  | supplyApplied (memoryGood drumNotes envelopeInPath : Bool)
  | powerLoss
  | resetLine
  | restartReset
  | startUpReady
  deriving DecidableEq, Repr

end Sys2Proof
end

