-- ==== Sys2Proof/Decode.lean ====
section
/-!
DEFINITION. Which command a received frame is: the frame check of R176 and R177, the kind, tag and code bytes of 11.1, the
request codes of 11.2, and the frame a master sends for a request. The opcode table gives no row any bits, so
decodeTableWord answers none for every word.
-/
namespace Sys2Proof

/-- The code byte of a request (11.2). -/
def Request.code : Request → Byte
  | .dispense => 0x10#8
  | .cancel => 0x11#8
  | .claim => 0x12#8
  | .release => 0x13#8
  | .depositOpen => 0x20#8
  | .insertNotes => 0x21#8
  | .returnLast => 0x22#8
  | .returnAll => 0x23#8
  | .compareEscrow => 0x24#8
  | .commit => 0x25#8
  | .depositClose => 0x26#8
  | .post => 0x30#8
  | .handover => 0x31#8
  | .load => 0x32#8
  | .unload => 0x33#8
  | .reconcile => 0x34#8
  | .jamClear => 0x40#8
  | .slotOpen => 0x41#8
  | .slotClose => 0x42#8
  | .binEmptied => 0x43#8
  | .zoneSet => 0x50#8
  | .arm => 0x51#8
  | .disarm => 0x52#8
  | .bypass => 0x53#8
  | .alarmAck => 0x54#8
  | .alarmList => 0x55#8
  | .silence => 0x56#8
  | .journalRead => 0x60#8
  | .journalScan => 0x61#8
  | .trim => 0x62#8
  | .sync => 0x63#8
  | .status => 0x70#8
  | .positionRead => 0x71#8
  | .clearFaults => 0x72#8
  | .approve => 0x73#8
  | .clockSet => 0x74#8
  | .setSetting => 0x75#8
  | .restart => 0x76#8

/-- Every request, in the order of its code. -/
def Request.all : List Request :=
  [.dispense, .cancel, .claim, .release, .depositOpen, .insertNotes, .returnLast, .returnAll, .compareEscrow, .commit,
    .depositClose, .post, .handover, .load, .unload, .reconcile, .jamClear, .slotOpen, .slotClose, .binEmptied, .zoneSet,
    .arm, .disarm, .bypass, .alarmAck, .alarmList, .silence, .journalRead, .journalScan, .trim, .sync, .status,
    .positionRead, .clearFaults, .approve, .clockSet, .setSetting, .restart]

/-- The request a code byte names, or none (check 2 of R179). -/
def Request.ofCode (c : Byte) : Option Request := Request.all.find? (fun r => r.code == c)

/-- The first operand byte of an UNLOAD names a bin: places 05h to 07h (11.2, R21). -/
def namesBin (operands : List Byte) : Bool :=
  match operands with
  | b :: _ => 5 ≤ b.toNat && b.toNat ≤ 7
  | [] => false

/-- The first operand byte of a JAM_CLEAR is the target SLOT, 02h (11.2, R131). -/
def namesSlot (operands : List Byte) : Bool :=
  match operands with
  | b :: _ => b == 2#8
  | [] => false

/-- The sensors whose arrivals have no row of their own, so that NOTE_SENSOR_ARRIVAL reports them. -/
def Sensor.arrivalRow : Sensor → Bool
  | .pocket _ => true
  | .rejectBin => true
  | .way _ => true
  | .picker _ => false
  | .path => false
  | .transit => false
  | .retractBin => false
  | .intake _ => false
  | .validator => false
  | .drumEntry => false
  | .drumExit => false

/-- The command that a request with its frame is. UNLOAD and JAM_CLEAR are two rows each. -/
def Request.instr (r : Request) (f : Frame) : Instr :=
  match r with
  | .dispense => .dispense f
  | .cancel => .cancel f
  | .claim => .claim f
  | .release => .release f
  | .depositOpen => .depositOpen f
  | .insertNotes => .insertNotes f
  | .returnLast => .returnLast f
  | .returnAll => .returnAll f
  | .compareEscrow => .compareEscrow f
  | .commit => .commit f
  | .depositClose => .depositClose f
  | .post => .post f
  | .handover => .handover f
  | .load => .load f
  | .unload => if namesBin f.operands then .unloadBin f else .unload f
  | .reconcile => .reconcile f
  | .jamClear => if namesSlot f.operands then .jamClearSlot f else .jamClearModule f
  | .slotOpen => .slotOpen f
  | .slotClose => .slotClose f
  | .binEmptied => .binEmptied f
  | .zoneSet => .zoneSet f
  | .arm => .arm f
  | .disarm => .disarm f
  | .bypass => .bypass f
  | .alarmAck => .alarmAck f
  | .alarmList => .alarmList f
  | .silence => .silence f
  | .journalRead => .journalRead f
  | .journalScan => .journalScan f
  | .trim => .trim f
  | .sync => .sync f
  | .status => .status f
  | .positionRead => .positionRead f
  | .clearFaults => .clearFaults f
  | .approve => .approve f
  | .clockSet => .clockSet f
  | .setSetting => .setSetting f
  | .restart => .restart f

/-- The code and frame of a command that is a request frame; none for an event. -/
def Instr.request? : Instr → Option (Byte × Frame)
  | .dispense f => some (Request.dispense.code, f)
  | .cancel f => some (Request.cancel.code, f)
  | .claim f => some (Request.claim.code, f)
  | .release f => some (Request.release.code, f)
  | .depositOpen f => some (Request.depositOpen.code, f)
  | .depositClose f => some (Request.depositClose.code, f)
  | .insertNotes f => some (Request.insertNotes.code, f)
  | .returnLast f => some (Request.returnLast.code, f)
  | .returnAll f => some (Request.returnAll.code, f)
  | .compareEscrow f => some (Request.compareEscrow.code, f)
  | .commit f => some (Request.commit.code, f)
  | .post f => some (Request.post.code, f)
  | .handover f => some (Request.handover.code, f)
  | .load f => some (Request.load.code, f)
  | .unload f => some (Request.unload.code, f)
  | .unloadBin f => some (Request.unload.code, f)
  | .reconcile f => some (Request.reconcile.code, f)
  | .jamClearModule f => some (Request.jamClear.code, f)
  | .jamClearSlot f => some (Request.jamClear.code, f)
  | .slotOpen f => some (Request.slotOpen.code, f)
  | .slotClose f => some (Request.slotClose.code, f)
  | .binEmptied f => some (Request.binEmptied.code, f)
  | .zoneSet f => some (Request.zoneSet.code, f)
  | .arm f => some (Request.arm.code, f)
  | .disarm f => some (Request.disarm.code, f)
  | .bypass f => some (Request.bypass.code, f)
  | .alarmAck f => some (Request.alarmAck.code, f)
  | .alarmList f => some (Request.alarmList.code, f)
  | .silence f => some (Request.silence.code, f)
  | .journalRead f => some (Request.journalRead.code, f)
  | .journalScan f => some (Request.journalScan.code, f)
  | .trim f => some (Request.trim.code, f)
  | .sync f => some (Request.sync.code, f)
  | .status f => some (Request.status.code, f)
  | .positionRead f => some (Request.positionRead.code, f)
  | .clearFaults f => some (Request.clearFaults.code, f)
  | .approve f => some (Request.approve.code, f)
  | .clockSet f => some (Request.clockSet.code, f)
  | .setSetting f => some (Request.setSetting.code, f)
  | .restart f => some (Request.restart.code, f)
  | .unknownRequest code f => some (code, f)
  | .invalidFrame _ _ => none
  | .frameGapTimeout _ => none
  | .overrun _ => none
  | .frameSent _ => none
  | .duressRaise _ => none
  | .claimIdleExpiry => none
  | .delayEnd _ => none
  | .presentTimerExpiry _ => none
  | .pocketEmpty _ => none
  | .pickEvent _ => none
  | .noteCheck _ => none
  | .noteSensorArrival _ => none
  | .noteJam _ => none
  | .retractNoteCounted _ => none
  | .drawSourceEmpty => none
  | .cassetteRemoval _ => none
  | .cassetteInsertion _ => none
  | .feedTake => none
  | .feedMiss => none
  | .insertVerdict _ => none
  | .drumEntry => none
  | .compartmentEntry => none
  | .returnPocketEntry => none
  | .intakeEmpty _ => none
  | .drumExit => none
  | .drumEmpty => none
  | .cassetteEntry _ => none
  | .gripOn => none
  | .gripOff => none
  | .imprintReport => none
  | .intakeTimerExpiry => none
  | .reverseTimerExpiry => none
  | .imprinterReport _ => none
  | .imprinterTimeout => none
  | .dropReport => none
  | .dropTimerExpiry => none
  | .clearRunExpiry => none
  | .mouthClear => none
  | .keyDigit _ => none
  | .keyEnter => none
  | .keyClear => none
  | .keypadTimerExpiry => none
  | .receiptPrinterReport _ => none
  | .paperLoaded => none
  | .loopReading _ _ => none
  | .debouncedReadingChange _ => none
  | .entryTimerExpiry _ => none
  | .monitorTimerExpiry => none
  | .sounderTimerExpiry => none
  | .approvalExpiry _ => none
  | .syncTimeout _ => none
  | .writeComplete => none
  | .writeFailed => none
  | .stalledRetry => none
  | .clockTick => none
  | .clockCalendarEnd => none
  | .supplyApplied _ _ _ => none
  | .powerLoss => none
  | .resetLine => none
  | .restartReset => none
  | .startUpReady => none

/-- One bit of the CRC-16 of R177: polynomial x^16 + x^12 + x^5 + 1, most significant bit first. -/
def crcBit (crc : BitVec 16) : BitVec 16 :=
  if crc.msb then (crc <<< 1) ^^^ 0x1021#16 else crc <<< 1

/-- One byte of the CRC-16 of R177. -/
def crcByte (crc : BitVec 16) (b : Byte) : BitVec 16 :=
  crcBit (crcBit (crcBit (crcBit (crcBit (crcBit (crcBit (crcBit (crc ^^^ (b.zeroExtend 16 <<< 8)))))))))

/-- The check value of the length byte and body (R177): initial value 0FFFFh, nothing combined at the end. -/
def crc16 (bytes : List Byte) : BitVec 16 := bytes.foldl crcByte 0xFFFF#16

/-- The two check bytes, high byte first (11.1). -/
def checkBytes (c : BitVec 16) : List Byte := [c.extractLsb' 8 8, c.extractLsb' 0 8]

/-- A frame's bytes on the line: start byte, length, body, check (11.1). -/
def frameBytes (body : List Byte) : List Byte :=
  let covered := BitVec.ofNat 8 body.length :: body
  0xA5#8 :: (covered ++ checkBytes (crc16 covered))

/-- The kind byte of a request: 01h, with the duress mark in bit 7 (11.1, R184). -/
def requestKind (duress : Bool) : Byte := if duress then 0x81#8 else 0x01#8

/-- The bytes a master sends for a request with this code. -/
def requestBytes (code : Byte) (f : Frame) : List Byte :=
  frameBytes (requestKind f.duress :: f.tag :: code :: f.operands)

/-- The command that a valid frame of kind request is, from its body (R177, R179, R184): an unknown code is a command of
its own row. -/
def commandOfBody (p : Port) (kind tag code : Byte) (operands : List Byte) : Instr :=
  let f : Frame := ⟨p, kind.msb, tag, operands⟩
  if kind &&& 0x7F#8 == 0x01#8 then
    match Request.ofCode code with
    | some r => r.instr f
    | none => .unknownRequest code f
  else .invalidFrame p .notRequest

/-- What the bytes of a frame after its start byte come to at port p, as soon as they decide: INVALID_FRAME for a bad length byte or
check value, the command of a valid frame at its last check byte, none while bytes are awaited (R176, R177). -/
def frameResult (p : Port) (got : List Byte) : Option Instr :=
  match got with
  | [] => none
  | len :: rest =>
    if len.toNat < 3 ∨ 64 < len.toNat then some (.invalidFrame p .badLength)
    else if rest.length < len.toNat + 2 then none
    else if (rest.drop len.toNat).take 2 ≠ checkBytes (crc16 (len :: rest.take len.toNat)) then
      some (.invalidFrame p .crcMismatch)
    else
      match rest.take len.toNat with
      | kind :: tag :: code :: operands => some (commandOfBody p kind tag code operands)
      | _ => none

/-- The command that the bytes on a port's line make first: the hunting receiver ignores every byte before a start byte, and then takes
a frame (R176). None where they make none. Gaps, stop bits and breaks are reported by their own commands. -/
def commandOfFrame (p : Port) (bytes : List Byte) : Option Instr :=
  match bytes.dropWhile (fun b => b != 0xA5#8) with
  | _ :: got => frameResult p got
  | [] => none

/-- The bytes that a request command is on its port's line; none for an event, which is no frame. -/
def encodeFrame (i : Instr) : Option (List Byte) :=
  match i.request? with
  | some (code, f) => some (requestBytes code f)
  | none => none

/-- The command that a word spells by the opcode table's bits. The table gives no row any bits, so no word spells a
command. -/
def decodeTableWord (_nbits _w : Nat) : Option Instr := none

end Sys2Proof
end

