-- ==== Sys2Proof/Machine/State.lean ====
section
/-!
DEFINITION. The state of the TW-420, block by block, as plain data; what a step can end in; and the machine right after
reset.
-/
namespace Sys2Proof.Machine

/-- Faults. No command of the TW-420 stops the part: a request it cannot do is answered REFUSED with a reason (R180), a link
fault sets a sticky flag (R177, R178), a jam makes the module or the slot JAMMED (R62, R130). So there is no fault, and
nothing raises one (safe). -/
inductive Fault where
  deriving DecidableEq, Repr

/-- Refusals of the MODEL (a reply of status REFUSED is no such refusal: it is a next state). -/
inductive Refusal where
  /-- Raised only by an arm of exec whose command has no meaning yet; no arm is of this kind (safe). -/
  | notModelled (mnemonic : String)
  deriving DecidableEq, Repr

/-! ## Position store (01) -/

/-- The modes of a cassette (R4). -/
inductive CassetteMode where
  | recycle | dispense | deposit
  deriving DecidableEq, Repr

/-- The states of a cassette (R4). -/
inductive CassetteState where
  | absent | uncounted | loaded | low | empty | full | fault | released
  deriving DecidableEq, Repr

/-- A cassette record (R4). `intact` says whether the check word matches the contents: the word itself is reported
nowhere and its algorithm is not given (notes/assumptions/4.md). -/
structure Cassette where
  mode : CassetteMode
  index : Option Ix
  counts : Quad Nat
  capacity : Nat
  low : Nat
  state : CassetteState
  pickFailed : Bool
  intact : Bool
  deriving DecidableEq, Repr

/-- The three money accounts (R7). -/
inductive AccountId where
  | drawerA | drawerB | branchCash
  deriving DecidableEq, Repr

/-- A money account, in cents (R7, R28). -/
structure Account where
  balance : Int
  coinDue : Nat
  intact : Bool
  deriving DecidableEq, Repr

/-- The six flows since the last RECONCILE (R3). -/
structure Flows where
  opening : Quad Nat
  loaded : Quad Nat
  accepted : Quad Nat
  taken : Quad Nat
  returned : Quad Nat
  unloaded : Quad Nat
  deriving DecidableEq, Repr

/-- The causes of AUDIT_REQUIRED (R10). -/
inductive AuditCause where
  | gap | integrity | coldStart | unauthorisedRemoval | reconcileDueJam
  deriving DecidableEq, Repr

/-- The audit cause set (R10). The audit state is CLEAR exactly when it is empty. -/
structure Causes where
  gap : Bool
  integrity : Bool
  coldStart : Bool
  unauthorisedRemoval : Bool
  reconcileDueJam : Bool
  deriving DecidableEq, Repr

/-- A record guarded by a check word (R9). -/
inductive GuardedRecord where
  | cassette (k : Ix)
  | account (a : AccountId)
  deriving DecidableEq, Repr

/-- The integrity fault record (R9). -/
structure IntegrityFault where
  which : GuardedRecord
  time : Word32
  deriving DecidableEq, Repr

/-- The position store (R1 to R26). ESCROW is not held here: it is the sum over the bundle stack (R1). -/
structure Position where
  cassettes : Quad Cassette
  transit : Quad Nat
  pockets : Pair (Quad Nat)
  reject : Quad Nat
  retract : Quad Nat
  discrepancy : Quad Int
  suspect : Nat
  suspectIn : Nat
  suspectOut : Nat
  flows : Flows
  drawerA : Account
  drawerB : Account
  branchCash : Account
  generation : Word32
  causes : Causes
  integrityFault : Option IntegrityFault
  lastApplied : Nat
  deriving DecidableEq, Repr

/-! ## Settings store (10) -/

/-- The settings without a cassette (R193), amounts in cents and times in seconds. -/
structure Settings where
  denominations : Quad Nat
  delayThreshold : Nat
  delayTime : Nat
  holdupExtension : Nat
  holdupCap : Nat
  remainderLimit : Nat
  presentTimeout : Nat
  idleTimeout : Nat
  postingLimit : Nat
  binCapacity : Nat
  entryDelay : Nat
  deriving DecidableEq, Repr

/-! ## Claim arbiter (03) -/

/-- The claim owner (R48). -/
inductive Owner where
  | none | portA | portB | portS | hold
  deriving DecidableEq, Repr

/-- An entry of the wait list: a CLAIM entry of a port, or the DELAYED entry of a window's dispense. R50 gives the point at which an entry
joined no form: the model holds it as the entry's place in the list, a DESIGN CHOICE (notes/assumptions/96.md). -/
inductive WaitEntry where
  | claim (p : Port)
  | delayed (t : Teller)
  deriving DecidableEq, Repr

/-- The claim arbiter (R48 to R56): owner, wait list head first, and the idle timer with the length it was started with. -/
structure Claim where
  owner : Owner
  waiting : List WaitEntry
  idle : Option Nat
  deriving DecidableEq, Repr

/-! ## Note path controller (03) -/

/-- The module state (R57). -/
inductive ModuleState where
  | ready | purging | jammed
  deriving DecidableEq, Repr

/-- Where a pick stands: commanded, or reported with notes still to be checked (R58, R59). -/
inductive PickStage where
  | commanded
  | checking (m : Multiplicity) (left : Nat)
  deriving DecidableEq, Repr

/-- The pick in hand (R58). -/
structure Pick where
  port : Teller
  cassette : Ix
  denomination : Ix
  stage : PickStage
  deriving DecidableEq, Repr

/-- The sources of a draw: TRANSIT, a pocket (R64), and at a cold start the drum (R116). -/
inductive DrawSource where
  | transit
  | pocket (t : Teller)
  | drum
  deriving DecidableEq, Repr

/-- Why picking stops and its notes are drawn back (R83). -/
inductive StopReason where
  | locked | cancelled | audit
  deriving DecidableEq, Repr

/-- What started a draw (R64). -/
inductive DrawCause where
  | purge
  | retract (t : Teller)
  | stop (t : Teller) (why : StopReason)
  deriving DecidableEq, Repr

/-- A draw in progress (R64): its uncounted notes and the counts booked from the source so far. -/
structure Draw where
  source : DrawSource
  cause : DrawCause
  uncounted : Quad Nat
  retracted : Quad Nat
  deriving DecidableEq, Repr

/-- Outcomes of a purge (R65). -/
inductive PurgeOutcome where
  | complete | short | jammed | binFull
  deriving DecidableEq, Repr

/-- A purge in progress (R65): started at start-up or by port S, the sources still to be drawn, the notes booked into the
RETRACT BIN, whether notes were left uncounted, and the outcome once its end waits in the end hold. -/
structure Purge where
  startUp : Bool
  rest : List DrawSource
  booked : Quad Nat
  short : Bool
  ended : Option PurgeOutcome
  deriving DecidableEq, Repr

/-- The operation a moving note belongs to (R62). -/
inductive MoveOwner where
  | dispense (t : Teller)
  | escrow
  | purge
  deriving DecidableEq, Repr

/-- A running 2 s sensor-to-sensor timer (R62), and whether its note, picked for a dispense, has had its check (R59). A timer whose note
is further along stands earlier in the list. -/
structure NoteTimer where
  owner : MoveOwner
  lastSeen : Sensor
  checked : Bool
  deriving DecidableEq, Repr

/-- The note path controller (R57 to R68). -/
structure NotePath where
  state : ModuleState
  pick : Option Pick
  draw : Option Draw
  purge : Option Purge
  timers : List NoteTimer
  deriving DecidableEq, Repr

/-! ## Dispense controller (04) -/

/-- The states of a dispense (R69). -/
inductive DispenseState where
  | idle | delaying | queued | picking | presenting | retracting
  deriving DecidableEq, Repr

/-- The remainder target (R44). -/
inductive RemainderTarget where
  | own | branch
  deriving DecidableEq, Repr

/-- Why picking stopped short (R69, R81). -/
inductive ShortCause where
  | earlyEmpty | rejectLimit
  deriving DecidableEq, Repr

/-- A dispense operation record (R69), with the note path's per-dispense counters (R59, R60), the present timer and the
pocket shutter (R84), the remainder limit its mix was judged by (R43),
and the marks of its progress: `changed` a cassette count changed (R91), `stop` picking is to end in a
draw (R83), `deferred` the grant checks wait for the other window (R77), `ending` its end waits in the end hold (R163). -/
structure Dispense where
  state : DispenseState
  amount : Nat
  cap : Nat
  preference : List Ix
  target : RemainderTarget
  payable : Nat
  unpaid : Nat
  capped : Bool
  mix : Quad Nat
  remainder : Nat
  limit : Nat
  delivered : Quad Nat
  presented : Quad Nat
  delayEnd : Word32
  extended : Bool
  short : Option ShortCause
  startSequence : Nat
  diverted : Nat
  misses : Quad Nat
  presentTimer : Option Nat
  shutterOpen : Bool
  changed : Bool
  stop : Option StopReason
  deferred : Bool
  ending : Bool
  deriving DecidableEq, Repr

/-! ## Escrow controller (05) -/

/-- The purpose of a deposit (R94). -/
inductive Purpose where
  | customer | drawer
  deriving DecidableEq, Repr

/-- The verdict of the last COMPARE (R94, R110). -/
inductive Verdict where
  | none | match_ | short | over | unordered
  deriving DecidableEq, Repr

/-- A bundle record (R95). -/
structure Bundle where
  fit : Quad Nat
  unfit : Quad Nat
  suspect : Nat
  returned : Nat
  truncated : Bool
  suspectReturned : Bool
  deriving DecidableEq, Repr

/-- Where the fed note is (R101). -/
inductive FeedNote where
  | none
  | validating
  | toDrum (d : Ix) (fit : Bool)
  | toCompartment
  | toPocket
  deriving DecidableEq, Repr

/-- Why a feed ends (R102). -/
inductive FeedCause where
  | intakeEmpty | bundleLimit | escrowLimit | feedFailure | lock
  deriving DecidableEq, Repr

/-- An INSERT in flight (R100 to R105). `locked`: MODULE_LOCK entered while a note was in hand (R103). `ended`: the feed has
ended and its record waits in the end hold. -/
structure InsertOp where
  port : Teller
  note : FeedNote
  misses : Nat
  intakeEmpty : Bool
  locked : Bool
  ended : Option FeedCause
  deriving DecidableEq, Repr

/-- The suspect, returned and flag fields of the bundles that a return has taken off the stack (R107). -/
structure BundleFields where
  suspect : Nat
  returned : Nat
  truncated : Bool
  suspectReturned : Bool
  deriving DecidableEq, Repr

/-- Outcomes of a return (R109). -/
inductive ReturnOutcome where
  | complete | halted
  deriving DecidableEq, Repr

/-- A RETURN_LAST or RETURN_ALL in flight (R106 to R109): the sending port, the record's owner window, whether it was sent
under HOLD, whether it gives back every bundle, whether a bundle is being moved, the note between drum and pocket, the notes
given back, the bundles out with the fields that went with them, and the position of the first bundle. -/
structure ReturnOp where
  port : Port
  window : Teller
  underHold : Bool
  every : Bool
  moving : Bool
  note : Option Ix
  given : Quad Nat
  bundlesOut : Nat
  fields : BundleFields
  first : Nat
  locked : Bool
  ended : Option ReturnOutcome
  deriving DecidableEq, Repr

/-- Why a commit stops part way (R113). -/
inductive CommitCause where
  | noDestination | lock | audit
  deriving DecidableEq, Repr

/-- Outcomes of a commit that does not jam (R113). -/
inductive CommitOutcome where
  | committed
  | partial_ (why : CommitCause)
  deriving DecidableEq, Repr

/-- A COMMIT in flight (R111 to R114): the chosen destination, the note between drum and cassette, whether a bundle is being
moved, whether a bundle was popped or reduced, whether the destination was removed under the note, whether a booking met a
failing check word. -/
structure CommitOp where
  port : Port
  underHold : Bool
  chosen : Option Ix
  note : Option (Ix × Bool)
  moving : Bool
  reduced : Bool
  lost : Bool
  auditStop : Bool
  ended : Option CommitOutcome
  deriving DecidableEq, Repr

/-- The escrow operation in flight. -/
inductive EscrowOp where
  | insert (o : InsertOp)
  | give (o : ReturnOp)
  | commit (o : CommitOp)
  deriving DecidableEq, Repr

/-- The notes a commit has delivered, per cassette and per denomination (R112), battery-backed until the debit is made
(R116), with the purpose and owner of the record they came from. -/
structure CommitTally where
  perCassette : Quad Nat
  fit : Quad Nat
  unfit : Quad Nat
  purpose : Purpose
  owner : Teller
  deriving DecidableEq, Repr

/-- The escrow controller (R94 to R116). The stack is held top first. -/
structure Escrow where
  isOpen : Bool
  owner : Teller
  purpose : Purpose
  declared : Option Nat
  verdict : Verdict
  stack : List Bundle
  op : Option EscrowOp
  tally : CommitTally
  deriving DecidableEq, Repr

/-! ## Envelope controller (06) -/

/-- The slot states (R117). -/
inductive SlotState where
  | closed | open_ | intake | imprint | drop | jammed
  deriving DecidableEq, Repr

/-- The intake phases (R117). -/
inductive IntakePhase where
  | firstPull | reverse | secondPull
  deriving DecidableEq, Repr

/-- The envelope in transport (R117): declared amount in cents or NONE, its two marks, and the imprint line once composed
(R126). -/
structure Envelope where
  declared : Option Nat
  imprinted : Bool
  unimprinted : Bool
  line : Option (List Char)
  deriving DecidableEq, Repr

/-- The bin record (R117, R132). -/
structure BinRecord where
  count : Nat
  declared : Nat
  undeclared : Nat
  captured : Nat
  total : Nat
  nearFull : Bool
  deriving DecidableEq, Repr

/-- The keypad entry (R120): the digits of a KEYING entry first keyed first, or the HELD amount in cents. -/
inductive KeyEntry where
  | empty
  | keying (digits : List (Fin 10))
  | held (amount : Nat)
  deriving DecidableEq, Repr

/-- What started a clear run (R131, R134). -/
inductive ClearRun where
  | byRequest | atStartUp
  deriving DecidableEq, Repr

/-- A receipt sent to the printer and not yet reported (R129): its line, and whether CAPTURED stands beneath it. -/
structure Receipt where
  line : List Char
  captured : Bool
  deriving DecidableEq, Repr

/-- The envelope controller (R117 to R134). Timers are running or stopped; their lengths are fixed. -/
structure Depository where
  slot : SlotState
  supervisorOpen : Bool
  phase : IntakePhase
  envelope : Option Envelope
  sequence : Nat
  bin : BinRecord
  pullbacks : List Word32
  entry : KeyEntry
  imprinterFault : Bool
  receiptOut : Bool
  clearing : Option ClearRun
  takeEnvelope : Bool
  intakeTimer : Bool
  reverseTimer : Bool
  imprinterTimer : Bool
  dropTimer : Bool
  clearTimer : Bool
  keypadTimer : Bool
  receipts : List Receipt
  display : List Char
  deriving DecidableEq, Repr

/-! ## Alarm unit (07) -/

/-- Zone types (R135). -/
inductive ZoneType where
  | holdup | tamper | intrusion | intrusionDelayed | attack | supervisory
  deriving DecidableEq, Repr

/-- Arm modes (R135). -/
inductive ArmMode where
  | always | armedOnly
  deriving DecidableEq, Repr

/-- A set of restriction effects, one bit each (11.2): SILENT_LINE 0, SOUNDER 1, DISPENSE_CAP 2, DISPENSE_HALT 3,
MODULE_LOCK 4, SLOT_CLOSE 5. -/
abbrev Effects := BitVec 6

/-- A set of zones, one bit each (R203). -/
abbrev ZoneSet := BitVec 16

/-- The configuration fields of a zone record (R135). -/
structure ZoneConfig where
  type : ZoneType
  level : Nat
  effects : Effects
  armMode : ArmMode
  enabled : Bool
  debounce : Nat
  deriving DecidableEq, Repr

/-- Zone states (R135). -/
inductive ZoneState where
  | quiet | entryTiming | pendingActive | pendingRestored | ackedActive
  deriving DecidableEq, Repr

/-- A zone record (R135). The debounce timer runs with the time read when the raw reading changed (R138). `marked` keeps, while
an entry timer runs, the teller port whose duress raise began it, which the ALARM record of the entry expiry carries (R141,
R157). -/
structure Zone where
  config : ZoneConfig
  bypassed : Bool
  reading : Reading
  debounceTimer : Option Nat
  inputActive : Bool
  trouble : Bool
  state : ZoneState
  entryTimer : Option Nat
  marked : Option Port
  lastActivation : Word32
  deriving DecidableEq, Repr

/-- The alarm unit (R135 to R158). `changed`: an ALARM_CHANGE is due at the end of the step (R154), the model's own mark. -/
structure AlarmUnit where
  zones : Vector Zone 16
  armed : Bool
  level : Nat
  restriction : Effects
  silentLine : Bool
  sounder : Bool
  sounderTimer : Option Nat
  monitorTimer : Option Nat
  changed : Bool
  deriving DecidableEq, Repr

/-! ## Journal controller (08) -/

/-- The twenty record kinds (R159). -/
inductive RecordKind where
  | dispenseStart | dispenseEnd | insert | return_ | commit | posting | handover | load | unload | removal
  | reconcile | purge | envelope | alarm | ack | arm | disarm | setting | gap | powerUp
  deriving DecidableEq, Repr

/-- The marks of a record (11.4). -/
structure Marks where
  capped : Bool := false
  short : Bool := false
  unbooked : Bool := false
  truncated : Bool := false
  suspectReturned : Bool := false
  noReceipt : Bool := false
  entry : Bool := false
  valueOver : Bool := false
  clockInvalid : Bool := false
  deriving DecidableEq, Repr

/-- The dispense detail (11.4), amounts in cents. -/
structure DispenseDetail where
  amount : Nat
  payable : Nat
  remainder : Nat
  unpaid : Nat
  unbooked : Nat
  cap : Nat
  preference : List Ix
  account : Option AccountId
  cause : Nat
  deriving DecidableEq, Repr

/-- The deposit detail (11.4). -/
structure DepositDetail where
  fit : Quad Nat
  unfit : Quad Nat
  suspect : Nat
  returned : Nat
  bundles : Nat
  first : Nat
  purpose : Option Purpose
  account : Option AccountId
  cause : Nat
  unbooked : Nat
  ownerPort : Option Port
  deriving DecidableEq, Repr

/-- What caused a warm reset (R197). -/
inductive WarmSource where
  | resetLine | restart
  deriving DecidableEq, Repr

/-- The detail of a record (R159). `warm` is the detail of a POWER_UP record's outcome WARM (R200), to which 11.4 gives no
bytes (notes/assumptions/26.md). -/
inductive Detail where
  | none
  | dispense (d : DispenseDetail)
  | deposit (d : DepositDetail)
  | setting (before after : List Byte)
  | warm (w : WarmSource)
  deriving DecidableEq, Repr

/-- A journal record (R159). -/
structure Record where
  sequence : Nat
  time : Word32
  kind : RecordKind
  port : Option Port
  outcome : Nat
  marks : Marks
  counts : Quad Int
  amount : Int
  extra : Nat
  detail : Detail
  deriving DecidableEq, Repr

/-- The kinds of a reserved operation (R161). -/
inductive OpKind where
  | dispense | insert | return_ | commit
  deriving DecidableEq, Repr

/-- An entry of the reservation list (R161). `marks` and `unpaid` are the marks and the unpaid amount of a dispense that has ended
JAMMED, which the OP_DONE of its closing PURGE record carries (R92; notes/assumptions/67.md). -/
structure Reservation where
  port : Port
  kind : OpKind
  startSequence : Nat
  jammed : Bool
  marks : Marks := {}
  unpaid : Nat := 0
  deriving DecidableEq, Repr

/-- The journal write state (R166, R167). -/
inductive WriteState where
  | idle | writing | stalled
  deriving DecidableEq, Repr

/-! ## Replies and notices (09, 11) -/

/-- Reply statuses (R180). -/
inductive Status where
  | ok | clamped | accepted | granted | waiting | refused
  deriving DecidableEq, Repr

/-- Refusal reasons (11.3). -/
inductive Reason where
  | unknown | role | length | starting | busy | notClaimed | jammed | audit | halted | badDigit
  | notPayable | inexact | range | binFull | stale | journalFull | journalBusy | escrowNotEmpty | notOpen | escrowFull
  | escrowEmpty | verdict | mismatch | approval | inUse | duplicate | noOperation | outOfRange | zoneActive | zeroAmount
  deriving DecidableEq, Repr

/-- Approval classes (R188). -/
inductive ApprovalClass where
  | depositOverride | delayWaive | postLarge
  deriving DecidableEq, Repr

/-- The account part whose range check fails (R42). -/
inductive AccountPart where
  | coinDue (a : AccountId)
  | balance (a : AccountId)
  deriving DecidableEq, Repr

/-- The result of a mix (R41, R42). -/
structure MixResult where
  mix : Quad Nat
  notes : Nat
  value : Nat
  remainder : Nat
  payable : Nat
  unpaid : Nat
  deriving DecidableEq, Repr

/-- What a DISPENSE reply ACCEPTED carries (R72). -/
structure DispenseAccepted where
  startSequence : Nat
  cap : Nat
  preference : List Ix
  mix : MixResult
  account : AccountId
  waiverConsumed : Bool
  waiverApplied : Bool
  delay : Nat
  deriving DecidableEq, Repr

/-- The places SET names in a refusal IN_USE (R195). -/
inductive Place where
  | cassette (k : Ix)
  | escrow | transit
  | pocket (t : Teller)
  | reject | retract | discrepancy
  deriving DecidableEq, Repr

/-- The conditions of the open permit that fail (R119). -/
structure PermitFailures where
  binFull : Bool
  restricted : Bool
  supervisor : Bool
  deriving DecidableEq, Repr

/-- An entry of the zone alarm list (R152). -/
structure AlarmEntry where
  zone : Fin 16
  state : ZoneState
  level : Nat
  effects : Effects
  trouble : Bool
  bypassed : Bool
  enabled : Bool
  lastActivation : Word32
  deriving DecidableEq, Repr

/-- The alarm figures that ALARM_LIST, ALARM_CHANGE and STATUS carry (R152, R154, R183). -/
structure AlarmSummary where
  level : Nat
  armed : Bool
  bypassed : ZoneSet
  restriction : Effects
  silentLine : Bool
  sounder : Bool
  deriving DecidableEq, Repr

/-- Stop reasons of a scan (R171). -/
inductive ScanStop where
  | found | countExhausted | endOfRange
  deriving DecidableEq, Repr

/-- The criteria of a scan as applied (R170). A port criterion of none is `some none`. -/
structure Criteria where
  kind : Option RecordKind
  port : Option (Option Port)
  amount : Option Int
  deriving DecidableEq, Repr

/-- What a JOURNAL_SCAN reply carries (R172). -/
structure ScanResult where
  stop : ScanStop
  last : Nat
  examined : Nat
  remaining : Nat
  record : Option Record
  applied : Nat
  criteria : Criteria
  deriving DecidableEq, Repr

/-- The journal figures of STATUS, JOURNAL_HIGH and TRIM (R165, R173, R183). -/
structure JournalFigures where
  write : WriteState
  next : Option Nat
  durable : Nat
  trim : Nat
  occupied : Nat
  reservations : Nat
  room : Nat
  lost : Nat
  deriving DecidableEq, Repr

/-- One section of STATUS (R183). A dispense record is reported with the position of its wait-list entry; another window's
escrow record is seen only as open or closed with its owner. -/
inductive StatusSection where
  | port (frame overrun : Bool) (approval : Option (ApprovalClass × Nat))
  | module (owner : Owner) (waiting : List WaitEntry) (idleLeft : Option Nat) (state : ModuleState)
  | dispense (shown : List (Teller × Dispense × Option Nat))
  | escrow (isOpen : Bool) (owner : Teller) (purpose : Purpose) (account : AccountId) (declared : Option Nat)
      (verdict : Verdict) (stack : List Bundle)
  | escrowOther (isOpen : Bool) (owner : Teller)
  | slot (slot : SlotState) (phase : IntakePhase) (supervisorOpen : Bool) (permit : PermitFailures)
      (envelope : Option Envelope) (sequence : Nat) (bin : BinRecord) (capacity : Nat) (pullbacks : Nat)
      (imprinterFault receiptOut mouth : Bool)
  | alarm (summary : AlarmSummary)
  | alarmTeller (restriction : Effects)
  | journal (figures : JournalFigures)
  deriving DecidableEq, Repr

/-- The position as POSITION_READ reports it (R12). -/
structure PositionReport where
  position : Position
  escrow : Quad Nat
  cassettesOk : Quad Bool
  drawerAOk : Bool
  drawerBOk : Bool
  branchOk : Bool
  moduleState : ModuleState
  deriving DecidableEq, Repr

/-- The results of a reply, as the owning rule lists them. -/
inductive Results where
  | none
  /-- R202: operand number and failing position. -/
  | badDigit (operand position : Nat)
  /-- R71, check 9. -/
  | stale (generation : Word32) (counts : Quad (Quad Nat))
  /-- R71, check 10, NOT_PAYABLE. -/
  | notPayable (payable : Nat)
  /-- R71, check 10, INEXACT: the would-be mix, N, V, R and T. -/
  | inexact (mix : Quad Nat) (notes value remainder payable : Nat)
  /-- R71, check 10, RANGE: the mix, V, R and the failing account part. -/
  | mixRange (mix : Quad Nat) (value remainder : Nat) (part : AccountPart)
  /-- R162. -/
  | room (available reservations stagingFree : Nat)
  /-- R72. -/
  | dispenseAccepted (d : DispenseAccepted)
  /-- R49, R52. -/
  | owner (o : Owner)
  /-- R52: a CLAIM entry withdrawn. -/
  | withdrawn
  /-- R98. -/
  | escrowRecord (owner : Teller) (purpose : Purpose) (declared : Option Nat) (verdict : Verdict)
  /-- R110. -/
  | compared (verdict : Verdict) (total : Nat) (declared : Nat) (difference : Nat)
  /-- R111. -/
  | commitAccepted (total : Nat) (consumed : Bool)
  /-- R16. -/
  | posted (sequence : Option Nat) (balance : Int) (coinDue : Nat)
  /-- R15. -/
  | balances (balance : Int) (coinDue : Nat)
  /-- R17. -/
  | handedOver (sourceBalance : Int) (sourceCoin : Nat) (destBalance : Int) (destCoin : Nat)
  /-- R25. -/
  | reconciled (sequence : Option Nat) (discrepancy : Quad Int)
  /-- R195. -/
  | inUse (place : Place)
  /-- R193: the value before and the value applied, in the SET value layout. -/
  | setting (before applied : List Byte)
  /-- R119. -/
  | slot (slot : SlotState) (failing : PermitFailures)
  /-- R133. -/
  | binBooked (sequence : Option Nat) (bin : BinRecord)
  /-- R137. -/
  | zoneSet (applied : ZoneConfig)
  /-- R147, check 2. -/
  | zonesNotNormal (zones : List (Fin 16 × Reading))
  /-- R147, R149. -/
  | bypassSet (zones : ZoneSet)
  /-- R150. -/
  | acknowledged (toQuiet toAcked : ZoneSet) (level : Nat)
  /-- R152. -/
  | alarmList (summary : AlarmSummary) (count : Nat) (entries : List AlarmEntry)
  /-- R156. -/
  | sounder (before after : Bool)
  /-- R169. -/
  | journalRecord (record : Record) (standsFor : Bool) (trim durable : Nat) (next : Option Nat)
  /-- R169: OUT_OF_RANGE. -/
  | journalRange (trim durable : Nat) (next : Option Nat)
  /-- R170: OUT_OF_RANGE. -/
  | scanRange (trim durable : Nat)
  /-- R172. -/
  | scanned (r : ScanResult)
  /-- R173: records removed, and the figures after. -/
  | trimmed (removed applied occupied room : Nat)
  /-- R168. -/
  | synced (durable awaited : Nat)
  /-- R183. -/
  | status (section_ : StatusSection) (count : Word32) (clockInvalid : Bool) (causes : Causes)
  /-- R12. -/
  | position (report : PositionReport)
  /-- R181: the flags as they stood. -/
  | faults (frame overrun : Bool)
  /-- R188. -/
  | approved (replaced : Option ApprovalClass)
  /-- R191. -/
  | clock (before after : Word32)
  deriving DecidableEq, Repr

/-- A reply (R180, R201). -/
structure Reply where
  tag : Byte
  code : Byte
  status : Status
  reason : Option Reason
  faultsPending : Bool
  results : Results
  deriving DecidableEq, Repr

/-- What OP_DONE carries (R92, R105, R109, R114, R65). `counts` are the notes taken of a dispense; `presented` and `retracted` are
its presented counts and, of one that ends RETRACTED, its retracted counts (R87); `carried` is what the refusal of a failed grant
check would have carried (R78) and `reason` its reason, whose code 11.3 reports for such an outcome (notes/assumptions/27.md);
`remaining` is what is left in the escrow stack. -/
structure OpDone where
  kind : OpKind
  startSequence : Nat
  closing : Nat
  outcome : Nat
  reason : Option Reason
  marks : Marks
  counts : Quad Nat
  presented : Quad Nat
  retracted : Quad Nat
  value : Nat
  remainder : Nat
  unpaid : Nat
  unbooked : Nat
  cause : Nat
  carried : Results
  remaining : List Bundle
  deriving DecidableEq, Repr

/-- Causes of CLAIM_ENDED (R54, R55). -/
inductive ClaimEndCause where
  | idle | hold | lock
  deriving DecidableEq, Repr

/-- What MODULE_FAULT carries (R60, R62, R65, R126, R130, R131). -/
inductive ModuleFault where
  | pickFailure (k : Ix)
  | jam (port : Option Port) (lastSeen : Sensor)
  | retractBinFull (port : Option Port) (lastSeen : Sensor)
  | ready (outcome : PurgeOutcome)
  | imprinter
  | slotJam (inDrop : Bool)
  | slotReady
  deriving DecidableEq, Repr

/-- The reset kinds (R187, R197). -/
inductive ResetKind where
  | powerUp
  | warm (w : WarmSource)
  | cold
  deriving DecidableEq, Repr

/-- The notice kinds, in send order (R186). -/
inductive NoticeKind where
  | alarmChange | restriction | grant | claimEnded | opDone | present | cassetteLow | moduleFault | binNearFull
  | journalHigh | restarted
  deriving DecidableEq, Repr

/-- A notice's content, by kind (R186). -/
inductive Notice where
  | alarmChange (summary : AlarmSummary) (zones : List (Fin 16 × ZoneState × Nat)) (trouble : ZoneSet)
  | restriction (set : Effects) (causes : Causes)
  | grant (o : Owner)
  | claimEnded (why : ClaimEndCause)
  | opDone (d : OpDone)
  | present (startSequence : Nat) (presented : Quad Nat) (value : Nat) (short : Bool) (timeout : Nat)
  | cassetteLow (k : Ix) (state : CassetteState) (total : Nat)
  | moduleFault (f : ModuleFault)
  | binNearFull (count capacity : Nat) (full : Bool)
  | journalHigh (figures : JournalFigures)
  | restarted (kind : ResetKind) (sequence : Nat) (causes : Causes) (owner : Owner)
  deriving DecidableEq, Repr

/-- A filled slot of the pending notice set (R185). -/
structure Pending where
  notice : Notice
  merged : Nat
  deriving DecidableEq, Repr

/-- The pending notice set: one slot for each kind (R185). -/
structure NoticeSet where
  alarmChange : Option Pending
  restriction : Option Pending
  grant : Option Pending
  claimEnded : Option Pending
  opDone : Option Pending
  present : Option Pending
  cassetteLow : Option Pending
  moduleFault : Option Pending
  binNearFull : Option Pending
  journalHigh : Option Pending
  restarted : Option Pending
  deriving DecidableEq, Repr

/-- The receiver (R176): hunting for a start byte, or in a frame of which it has taken the bytes given, the length byte first. The
bytes of a line are no commands; State.onLine takes them (notes/assumptions/42.md). -/
inductive Receiver where
  | hunting
  | inFrame (got : List Byte)
  deriving DecidableEq, Repr

/-- A held request (R178): awaiting what it waits for (a SYNC's number), or answered with a reply waiting for or on the
line. -/
inductive Answering where
  | awaiting (number : Nat)
  | waiting (r : Reply)
  | sending
  deriving DecidableEq, Repr

/-- The held frame (R178). -/
structure Held where
  code : Byte
  tag : Byte
  duress : Bool
  answer : Answering
  deriving DecidableEq, Repr

/-- The transmitter (R176, R186): idle, sending a part of a reply with so many parts after it, or sending a notice with its
number, faults-pending bit and merge count. -/
inductive Transmitter where
  | idle
  | reply (r : Reply) (partsAfter : Nat)
  | notice (n : Notice) (number : Byte) (faultsPending : Bool) (merged : Nat)
  deriving DecidableEq, Repr

/-- A port interface (R176 to R192). `duressDue` counts the duress raises reported and not yet taken (R141). -/
structure PortState where
  receiver : Receiver
  held : Option Held
  transmitter : Transmitter
  frameFlag : Bool
  overrunFlag : Bool
  notices : NoticeSet
  noticeNumber : Byte
  approval : Option ApprovalClass
  duressPending : Bool
  duressDue : Nat
  deriving DecidableEq, Repr

/-- The four port interfaces. -/
structure Ports where
  a : PortState
  b : PortState
  s : PortState
  m : PortState
  deriving DecidableEq, Repr

/-- An operation's end waiting in the end hold (R163). -/
inductive HeldEnd where
  | dispense (t : Teller) (outcome : Nat) (taken : Quad Nat) (remainderDue : Bool) (reason : Option Reason)
      (carried : Results)
  | insert (why : FeedCause)
  | give (outcome : ReturnOutcome)
  | commit (outcome : CommitOutcome)
  | purge (outcome : PurgeOutcome)
  deriving DecidableEq, Repr

/-- An OP_DONE waiting for its closing record to become durable (R92, R166). -/
structure WaitingDone where
  port : Port
  done : OpDone
  deriving DecidableEq, Repr

/-- The journal controller (R159 to R175). Records are held in sequence-number order. That a staging entry is promised to the record of the
request in hand is the model's own mark, clear between steps (R162; notes/assumptions/19.md). -/
structure Journal where
  retained : List Record
  staging : List Record
  next : Option Nat
  durable : Nat
  trimPoint : Nat
  reservations : List Reservation
  endHold : List HeldEnd
  lost : Nat
  highMark : Bool
  write : WriteState
  attempts : Nat
  writing : Bool
  waitingDone : List WaitingDone
  promised : Bool
  deriving DecidableEq, Repr

/-! ## Clock, pins, start-up -/

/-- The clock (R190). -/
structure Clock where
  count : Word32
  invalid : Bool
  deriving DecidableEq, Repr

/-- What the sensors that start-up reads show (R22, R23, R138, R198). -/
structure Pins where
  cassettePresent : Quad Bool
  loops : Vector Reading 14
  deriving DecidableEq, Repr

/-- The phases of the whole part (10.2), and OFF while the supply is absent (11.5). -/
inductive Phase where
  | off | check | purge | ready
  deriving DecidableEq, Repr

/-- Start-up: the phase and the kind of the last reset (R197). -/
structure StartUp where
  phase : Phase
  kind : ResetKind
  deriving DecidableEq, Repr

/-- The whole state of the part, the queue of commands waiting, and the index of the next free value (the last two are the
model's own). -/
structure State where
  startUp : StartUp
  clock : Clock
  pins : Pins
  position : Position
  settings : Settings
  claim : Claim
  path : NotePath
  dispenses : Pair Dispense
  escrow : Escrow
  depository : Depository
  alarm : AlarmUnit
  journal : Journal
  ports : Ports
  freeCount : Nat
  pending : List Instr
  deriving DecidableEq, Repr

/-! ## Reset values -/

/-- A cassette record at its defaults, present and not yet counted (R4, R26). -/
def Cassette.cold (mode : CassetteMode) (index : Option Ix) (state : CassetteState) : Cassette :=
  { mode := mode, index := index, counts := Quad.zero, capacity := 2500, low := 50, state := state, pickFailed := false,
    intact := true }

/-- An account at a cold start (R26). -/
def Account.cold : Account := { balance := 0, coinDue := 0, intact := true }

/-- No audit cause. -/
def Causes.empty : Causes := ⟨false, false, false, false, false⟩

/-- Flows at zero (R26). -/
def Flows.zero : Flows := ⟨Quad.zero, Quad.zero, Quad.zero, Quad.zero, Quad.zero, Quad.zero⟩

/-- The position at a cold start, with the cassettes the sensor shows (R26) and the journal's durable mark. -/
def Position.cold (present : Quad Bool) (durable : Nat) : Position :=
  let state (b : Bool) : CassetteState := if b then .uncounted else .absent
  { cassettes :=
      ⟨Cassette.cold .recycle (some .i1) (state present.c1), Cassette.cold .recycle (some .i2) (state present.c2),
        Cassette.cold .recycle (some .i3) (state present.c3), Cassette.cold .deposit none (state present.c4)⟩
    transit := Quad.zero
    pockets := ⟨Quad.zero, Quad.zero⟩
    reject := Quad.zero
    retract := Quad.zero
    discrepancy := Quad.all 0
    suspect := 0
    suspectIn := 0
    suspectOut := 0
    flows := Flows.zero
    drawerA := Account.cold
    drawerB := Account.cold
    branchCash := Account.cold
    generation := 0
    causes := { Causes.empty with coldStart := true }
    integrityFault := none
    lastApplied := durable }

/-- The settings at their defaults (R193). -/
def Settings.defaults : Settings :=
  { denominations := Quad.zero
    delayThreshold := 200000
    delayTime := 60
    holdupExtension := 120
    holdupCap := 20000
    remainderLimit := 99
    presentTimeout := 30
    idleTimeout := 90
    postingLimit := 1000000
    binCapacity := 600
    entryDelay := 30 }

/-- A dispense record in IDLE; its other fields have no meaning (R69). -/
def Dispense.idle : Dispense :=
  { state := .idle, amount := 0, cap := 1, preference := Ix.all, target := .own, payable := 0, unpaid := 0, capped := false,
    mix := Quad.zero, remainder := 0, limit := 0, delivered := Quad.zero, presented := Quad.zero, delayEnd := 0, extended := false,
    short := none, startSequence := 0, diverted := 0, misses := Quad.zero, presentTimer := none, shutterOpen := false,
    changed := false, stop := none, deferred := false, ending := false }

/-- A commit tally at zero (R116). -/
def CommitTally.zero : CommitTally := ⟨Quad.zero, Quad.zero, Quad.zero, .customer, .a⟩

/-- A CLOSED escrow record with an empty stack; its other fields have no meaning (R94, R116). -/
def Escrow.closed : Escrow :=
  { isOpen := false, owner := .a, purpose := .customer, declared := none, verdict := .none, stack := [], op := none,
    tally := CommitTally.zero }

/-- A bin record at zero (R134). -/
def BinRecord.zero : BinRecord := ⟨0, 0, 0, 0, 0, false⟩

/-- The line the display shows in CLOSED (R121): the message in twelve characters and eight spaces of echo field. -/
def closedLine : List Char :=
  ['C', 'L', 'O', 'S', 'E', 'D', ' ', ' ', ' ', ' ', ' ', ' ', ' ', ' ', ' ', ' ', ' ', ' ', ' ', ' ']

/-- The envelope controller at a cold start (R134), with the sequence number of R128. -/
def Depository.cold (sequence : Nat) : Depository :=
  { slot := .closed, supervisorOpen := false, phase := .firstPull, envelope := none, sequence := sequence,
    bin := BinRecord.zero, pullbacks := [], entry := .empty, imprinterFault := false, receiptOut := false,
    clearing := none, takeEnvelope := false, intakeTimer := false, reverseTimer := false, imprinterTimer := false,
    dropTimer := false, clearTimer := false, keypadTimer := false, receipts := [], display := closedLine }

/-- A zone at a cold start with the configuration given (R136, R158). -/
def Zone.cold (type : ZoneType) (level : Nat) (effects : Effects) (armMode : ArmMode) (enabled : Bool) : Zone :=
  { config :=
      { type := type, level := level, effects := effects, armMode := armMode, enabled := enabled, debounce := 200 }
    bypassed := false
    reading := .normal
    debounceTimer := none
    inputActive := false
    trouble := false
    state := .quiet
    entryTimer := none
    marked := none
    lastActivation := 0 }

/-- The sixteen zones at a cold start, as R136 tabulates them. -/
def coldZones : Vector Zone 16 :=
  #v[Zone.cold .holdup 7 0b000101#6 .always true,
    Zone.cold .holdup 7 0b000101#6 .always true,
    Zone.cold .tamper 3 0b000010#6 .armedOnly true,
    Zone.cold .tamper 5 0b010010#6 .always true,
    Zone.cold .tamper 4 0b100000#6 .always true,
    Zone.cold .tamper 4 0b100010#6 .always true,
    Zone.cold .tamper 5 0b000011#6 .always true,
    Zone.cold .intrusion 5 0b000011#6 .armedOnly true,
    Zone.cold .intrusion 5 0b000011#6 .armedOnly true,
    Zone.cold .intrusionDelayed 5 0b000011#6 .armedOnly true,
    Zone.cold .intrusion 5 0b000011#6 .armedOnly true,
    Zone.cold .attack 6 0b110011#6 .always true,
    Zone.cold .intrusion 1 0b000000#6 .always false,
    Zone.cold .intrusion 1 0b000000#6 .always false,
    Zone.cold .supervisory 2 0b000000#6 .always true,
    Zone.cold .holdup 7 0b000101#6 .always true]

/-- The alarm unit at a cold start (R136, R158), its monitor timer not yet started. -/
def AlarmUnit.cold : AlarmUnit :=
  { zones := coldZones, armed := false, level := 0, restriction := 0, silentLine := false, sounder := false,
    sounderTimer := none, monitorTimer := none, changed := false }

/-- An empty pending notice set (R187). -/
def NoticeSet.empty : NoticeSet := ⟨none, none, none, none, none, none, none, none, none, none, none⟩

/-- A port interface after every reset (R192). A duress raise reported and not yet taken is dropped, a DESIGN CHOICE (R184;
notes/assumptions/85.md). -/
def PortState.reset : PortState :=
  { receiver := .hunting, held := none, transmitter := .idle, frameFlag := false, overrunFlag := false,
    notices := NoticeSet.empty, noticeNumber := 0, approval := none, duressPending := false, duressDue := 0 }

/-- A journal as it leaves manufacture: sequence numbers start at 1 (R160). -/
def Journal.fresh : Journal :=
  { retained := [], staging := [], next := some 1, durable := 0, trimPoint := 0, reservations := [], endHold := [],
    lost := 0, highMark := false, write := .idle, attempts := 0, writing := false, waitingDone := [], promised := false }

/-- The note path at rest. -/
def NotePath.clear (state : ModuleState) : NotePath :=
  { state := state, pick := none, draw := none, purge := none, timers := [] }

/-- The part as it leaves manufacture, without supply: the cold-start state (R26), cassettes present and loops NORMAL
(notes/assumptions/5.md). -/
def State.manufactured : State :=
  { startUp := ⟨.off, .cold⟩
    clock := ⟨0, true⟩
    pins := ⟨Quad.all true,
      #v[.normal, .normal, .normal, .normal, .normal, .normal, .normal, .normal, .normal, .normal, .normal, .normal,
        .normal, .normal]⟩
    position := Position.cold (Quad.all true) 0
    settings := Settings.defaults
    claim := ⟨.none, [], none⟩
    path := NotePath.clear .ready
    dispenses := ⟨Dispense.idle, Dispense.idle⟩
    escrow := Escrow.closed
    depository := Depository.cold 1
    alarm := AlarmUnit.cold
    journal := Journal.fresh
    ports := ⟨PortState.reset, PortState.reset, PortState.reset, PortState.reset⟩
    freeCount := 0
    pending := [] }

/-- The audit causes after a cold start (R10). -/
def Causes.coldOnly : Causes := { Causes.empty with coldStart := true }

/-- RESTARTED as the first start-up raises it (R187). -/
def resetRestarted : Notice := .restarted .cold 2 Causes.coldOnly .none

/-- A port after the first start-up: its first notice is on the line, RESTARTED waits (R186, R187). -/
def PortState.afterStartUp (n : Notice) (merged : Nat) : PortState :=
  { PortState.reset with
    transmitter := .notice n 0 false merged
    noticeNumber := 1
    notices := { NoticeSet.empty with restarted := some ⟨resetRestarted, 1⟩ } }

/-- A record of the first start-up. -/
def resetRecord (sequence : Nat) (kind : RecordKind) (outcome : Nat) (count : Int) : Record :=
  { sequence := sequence, time := 0, kind := kind, port := none, outcome := outcome, marks := { clockInvalid := true },
    counts := ⟨count, 0, 0, 0⟩, amount := 0, extra := 0, detail := .none }

/-- The state right after reset: phase READY at the end of the first cold start (10.2, 10.3), which the test
test_reset_is_first_cold_start reaches from State.manufactured by SUPPLY_APPLIED, DRAW_SOURCE_EMPTY and START_UP_READY
(notes/assumptions/2.md). The PURGE and POWER_UP records of that start-up are staged. -/
def State.reset : State :=
  { State.manufactured with
    startUp := ⟨.ready, .cold⟩
    position := { State.manufactured.position with lastApplied := 1 }
    alarm := { AlarmUnit.cold with monitorTimer := some Config.monitorTime }
    journal :=
      { Journal.fresh with
        staging := [resetRecord 1 .purge 1 0, resetRecord 2 .powerUp 3 1]
        next := some 3
        write := .writing
        writing := true }
    ports :=
      { a := PortState.afterStartUp (.restriction 0 Causes.coldOnly) 2
        b := PortState.afterStartUp (.restriction 0 Causes.coldOnly) 2
        s :=
          { PortState.afterStartUp (.restriction 0 Causes.coldOnly) 2 with
            notices :=
              { NoticeSet.empty with
                moduleFault := some ⟨.moduleFault (.ready .complete), 1⟩
                restarted := some ⟨resetRestarted, 1⟩ } }
        m := PortState.afterStartUp (.alarmChange ⟨0, false, 0, 0, false, false⟩ [] 0) 1 } }

end Sys2Proof.Machine
end

