-- ==== Sys2Proof/Machine/Flags.lean ====
section
/-!
DEFINITION. What follows from the state at any moment: the audit state, the restriction effects, who owns the module, what
is in flight, the journal's room, what a cassette is fit for, the slot's open permit, the alarm level and set.
-/
namespace Sys2Proof.Machine

/-! ## Ports -/

/-- The state of one port. -/
def Ports.get (ps : Ports) : Port → PortState
  | .a => ps.a
  | .b => ps.b
  | .s => ps.s
  | .m => ps.m

/-- The port states with one replaced. -/
def Ports.set (ps : Ports) (p : Port) (x : PortState) : Ports :=
  match p with
  | .a => { ps with a := x }
  | .b => { ps with b := x }
  | .s => { ps with s := x }
  | .m => { ps with m := x }

/-- Every port, in the order A, B, S, M. -/
def allPorts : List Port := [.a, .b, .s, .m]

/-- Both windows. -/
def allTellers : List Teller := [.a, .b]

/-- The code of a port in a record or a reply (11.2): 0 for none. -/
def portCode : Option Port → Nat
  | none => 0
  | some .a => 1
  | some .b => 2
  | some .s => 3
  | some .m => 4

/-! ## Audit state (R10) -/

/-- The cause set is non-empty. -/
def Causes.any (c : Causes) : Bool :=
  c.gap || c.integrity || c.coldStart || c.unauthorisedRemoval || c.reconcileDueJam

/-- Whether a cause is present. -/
def Causes.has (c : Causes) : AuditCause → Bool
  | .gap => c.gap
  | .integrity => c.integrity
  | .coldStart => c.coldStart
  | .unauthorisedRemoval => c.unauthorisedRemoval
  | .reconcileDueJam => c.reconcileDueJam

/-- The set with a cause added. -/
def Causes.add (c : Causes) : AuditCause → Causes
  | .gap => { c with gap := true }
  | .integrity => { c with integrity := true }
  | .coldStart => { c with coldStart := true }
  | .unauthorisedRemoval => { c with unauthorisedRemoval := true }
  | .reconcileDueJam => { c with reconcileDueJam := true }

/-- The audit state is AUDIT_REQUIRED (R10). -/
def State.auditRequired (s : State) : Bool := s.position.causes.any

/-! ## Restriction effects (R135, R153) -/

/-- The six effects. -/
inductive Effect where
  | silentLine | sounder | dispenseCap | dispenseHalt | moduleLock | slotClose
  deriving DecidableEq, Repr

/-- The bit of an effect in an effects byte (11.2). -/
def Effect.bit : Effect → Nat
  | .silentLine => 0
  | .sounder => 1
  | .dispenseCap => 2
  | .dispenseHalt => 3
  | .moduleLock => 4
  | .slotClose => 5

/-- An effect is in a set. -/
def Effects.has (e : Effects) (x : Effect) : Bool := e.getLsbD x.bit

/-- An effect is in the restriction set. -/
def State.restricted (s : State) (x : Effect) : Bool := Effects.has s.alarm.restriction x

/-! ## Zones -/

/-- The sixteen zone numbers. -/
def allZones : List (Fin 16) := [0, 1, 2, 3, 4, 5, 6, 7, 8, 9, 10, 11, 12, 13, 14, 15]

/-- The fourteen wired zones (R138). -/
def wiredZones : List (Fin 14) := [0, 1, 2, 3, 4, 5, 6, 7, 8, 9, 10, 11, 12, 13]

/-- The zone of a wired loop. -/
def wired (z : Fin 14) : Fin 16 := ⟨z.val, by omega⟩

/-- The record of a zone. -/
def AlarmUnit.zone (u : AlarmUnit) (z : Fin 16) : Zone := u.zones.get z

/-- The unit with one zone record replaced. -/
def AlarmUnit.setZone (u : AlarmUnit) (z : Fin 16) (r : Zone) : AlarmUnit := { u with zones := u.zones.set z r }

/-- A zone in PENDING_ACTIVE or PENDING_RESTORED (R151). -/
def ZoneState.pending : ZoneState → Bool
  | .pendingActive => true
  | .pendingRestored => true
  | .quiet => false
  | .entryTiming => false
  | .ackedActive => false

/-- A latched zone: PENDING_ACTIVE, PENDING_RESTORED or ACKED_ACTIVE (7.4). -/
def ZoneState.latched : ZoneState → Bool
  | .pendingActive => true
  | .pendingRestored => true
  | .ackedActive => true
  | .quiet => false
  | .entryTiming => false

/-- The active level: the highest level among zones in PENDING_ACTIVE or PENDING_RESTORED, or 0 (R151). -/
def AlarmUnit.activeLevel (u : AlarmUnit) : Nat :=
  allZones.foldl (fun l z => if (u.zone z).state.pending then max l (u.zone z).config.level else l) 0

/-- The union of the effects of the latched zones (R153). -/
def AlarmUnit.latchedEffects (u : AlarmUnit) : Effects :=
  allZones.foldl (fun e z => if (u.zone z).state.latched then e ||| (u.zone z).config.effects else e) 0

/-- A zone is eligible: enabled, not bypassed, and 24H or ARMED (R135). -/
def AlarmUnit.eligible (u : AlarmUnit) (z : Fin 16) : Bool :=
  (u.zone z).config.enabled && !(u.zone z).bypassed && ((u.zone z).config.armMode == .always || u.armed)

/-- The zones that meet a test, as a set (R203). -/
def zoneSetOf (test : Fin 16 → Bool) : ZoneSet :=
  allZones.foldl (fun m z => if test z then m ||| (1#16 <<< z.val) else m) 0

/-- The bypass set (R147). -/
def AlarmUnit.bypassSet (u : AlarmUnit) : ZoneSet := zoneSetOf (fun z => (u.zone z).bypassed)

/-- The set of trouble marks (R154). -/
def AlarmUnit.troubleSet (u : AlarmUnit) : ZoneSet := zoneSetOf (fun z => (u.zone z).trouble)

/-- The figures ALARM_LIST, ALARM_CHANGE and STATUS carry. -/
def AlarmUnit.summary (u : AlarmUnit) : AlarmSummary :=
  { level := u.level, armed := u.armed, bypassed := u.bypassSet, restriction := u.restriction,
    silentLine := u.silentLine, sounder := u.sounder }

/-! ## The module: claim and operations in flight (R48, R53) -/

/-- A dispense in PICKING, PRESENTING or RETRACTING is in flight (R48, R69). -/
def DispenseState.inFlight : DispenseState → Bool
  | .picking => true
  | .presenting => true
  | .retracting => true
  | .idle => false
  | .delaying => false
  | .queued => false

/-- The port of an escrow operation. -/
def EscrowOp.port : EscrowOp → Port
  | .insert o => o.port.port
  | .give o => o.port
  | .commit o => o.port

/-- A dispense of the window is in flight. -/
def State.dispenseInFlight (s : State) (t : Teller) : Bool := (s.dispenses.get t).state.inFlight

/-- A module operation of the port is in flight: its dispense or its escrow operation (R48, R96). A purge is no port's
operation here (notes/assumptions/11.md). -/
def State.opInFlight (s : State) (p : Port) : Bool :=
  (match p.teller? with
    | some t => s.dispenseInFlight t
    | none => false) ||
  (match s.escrow.op with
    | some o => o.port == p
    | none => false)

/-- A module operation of another port is in flight (R48). -/
def State.otherOpInFlight (s : State) (p : Port) : Bool :=
  allPorts.any (fun q => q != p && s.opInFlight q)

/-- A module operation is in flight on any port, a purge included (R19, R24, R194). -/
def State.anyOpInFlight (s : State) : Bool :=
  s.dispenseInFlight .a || s.dispenseInFlight .b || s.escrow.op.isSome || s.path.purge.isSome

/-- The port owns the module; port S as PORT_S or HOLD (R48). -/
def Owner.ownedBy (o : Owner) (p : Port) : Bool :=
  match o, p with
  | .portA, .a => true
  | .portB, .b => true
  | .portS, .s => true
  | .hold, .s => true
  | _, _ => false

/-- The owner a port becomes. -/
def ownerOf : Port → Owner
  | .a => .portA
  | .b => .portB
  | .s => .portS
  | .m => .none

/-- The port that is owner in its own name: HOLD is none (R53). -/
def Owner.port? : Owner → Option Port
  | .portA => some .a
  | .portB => some .b
  | .portS => some .s
  | .none => Option.none
  | .hold => Option.none

/-- The ownership check (R48): the refusal, or none. -/
def State.ownershipCheck (s : State) (p : Port) : Option Reason :=
  if !s.claim.owner.ownedBy p then some .notClaimed
  else if s.otherOpInFlight p then some .busy
  else none

/-- The idle timer's condition: a port is owner, with no module operation in flight and no dispense in QUEUED (R53). -/
def State.idleRuns (s : State) : Bool :=
  match s.claim.owner.port? with
  | none => false
  | some p =>
    !s.opInFlight p &&
    (match p.teller? with
      | some t => (s.dispenses.get t).state != .queued
      | none => true)

/-! ## Counts and values (R1, R33) -/

/-- The notes of a bundle, fit and unfit together (R95). -/
def Bundle.notes (b : Bundle) : Quad Nat := Quad.add b.fit b.unfit

/-- The ESCROW count: the sum over the bundle stack (R1). -/
def stackNotes (stack : List Bundle) : Quad Nat := stack.foldr (fun b q => Quad.add b.notes q) Quad.zero

/-- The total of a cassette (R4). -/
def Cassette.total (c : Cassette) : Nat := c.counts.total

/-- The value of counts under denomination values: each count times its value (R1, R33). -/
def valueOf (values counts : Quad Nat) : Nat :=
  counts.c1 * values.c1 + counts.c2 * values.c2 + counts.c3 * values.c3 + counts.c4 * values.c4

/-- The value of signed counts. -/
def valueOfInt (values : Quad Nat) (counts : Quad Int) : Int :=
  counts.c1 * values.c1 + counts.c2 * values.c2 + counts.c3 * values.c3 + counts.c4 * values.c4

/-- The value of counts at the present denomination table. -/
def State.value (s : State) (counts : Quad Nat) : Nat := valueOf s.settings.denominations counts

/-- Insert a denomination into a list kept by ascending value, after those of equal value. -/
def insertByValue (values : Quad Nat) (d : Ix) : List Ix → List Ix
  | [] => [d]
  | e :: es => if values.get d < values.get e then d :: e :: es else e :: insertByValue values d es

/-- The denominations by ascending value, the lower-numbered first of equal values (R64, R95). -/
def byValue (values : Quad Nat) : List Ix :=
  Ix.all.foldl (fun l d => insertByValue values d l) []

/-- The denomination of smallest value with a count above 0 (R64). -/
def smallestHeld (values counts : Quad Nat) : Option Ix := (byValue values).find? (fun d => 0 < counts.get d)

/-- The defined denomination of smallest value (R64). -/
def smallestDefined (values : Quad Nat) : Option Ix := (byValue values).find? (fun d => values.get d != 0)

/-- The next note of a bundle in delivery order: fit notes by ascending value, then unfit notes (R95). -/
def Bundle.next (values : Quad Nat) (b : Bundle) : Option (Ix × Bool) :=
  match smallestHeld values b.fit with
  | some d => some (d, true)
  | none =>
    match smallestHeld values b.unfit with
    | some d => some (d, false)
    | none => none

/-- The count margins of R3 are passed: some flow above 980,000 or some DISCREPANCY count beyond 80,000. -/
def Position.marginsExceeded (p : Position) : Bool :=
  Ix.all.any (fun d =>
    Config.flowMargin < p.flows.opening.get d || Config.flowMargin < p.flows.loaded.get d ||
    Config.flowMargin < p.flows.accepted.get d || Config.flowMargin < p.flows.taken.get d ||
    Config.flowMargin < p.flows.returned.get d || Config.flowMargin < p.flows.unloaded.get d ||
    Config.discrepancyMargin < p.discrepancy.get d || p.discrepancy.get d < -Config.discrepancyMargin)

/-! ## Cassettes (R5, R6) -/

/-- The states that R5 re-derives. -/
def CassetteState.derived : CassetteState → Bool
  | .loaded => true
  | .low => true
  | .empty => true
  | .full => true
  | .absent => false
  | .uncounted => false
  | .fault => false
  | .released => false

/-- The state the table of R5 gives. -/
def Cassette.derivedState (c : Cassette) : CassetteState :=
  if c.total = 0 then .empty
  else if c.total = c.capacity then .full
  else if c.mode ≠ .deposit ∧ c.total ≤ c.low then .low
  else .loaded

/-- The cassette with its state re-derived where R5 says so. -/
def Cassette.rederive (c : Cassette) : Cassette :=
  if c.state.derived then { c with state := c.derivedState } else c

/-- The denomination value a cassette's index names, 0 for none (R38). -/
def Cassette.value (values : Quad Nat) (c : Cassette) : Nat :=
  match c.index with
  | some d => values.get d
  | none => 0

/-- The count of the cassette's own denomination. -/
def Cassette.ownCount (c : Cassette) : Nat :=
  match c.index with
  | some d => c.counts.get d
  | none => 0

/-- Usable for dispensing (R6). -/
def Cassette.usable (values : Quad Nat) (c : Cassette) : Bool :=
  c.mode != .deposit && (c.state == .loaded || c.state == .low || c.state == .full) && c.value values != 0 &&
    0 < c.ownCount

/-- A recycle destination for a fit note of denomination d (R6). -/
def Cassette.recycleFor (c : Cassette) (d : Ix) : Bool :=
  c.mode == .recycle && c.index == some d && (c.state == .loaded || c.state == .low || c.state == .empty) &&
    c.total < c.capacity

/-- A deposit destination (R6). -/
def Cassette.depositFor (c : Cassette) : Bool :=
  c.mode == .deposit && c.total < c.capacity &&
    !(c.state == .absent || c.state == .uncounted || c.state == .fault || c.state == .released)

/-! ## Accounts -/

/-- The account of a window (R14). -/
def drawerOf : Teller → AccountId
  | .a => .drawerA
  | .b => .drawerB

/-- The record of an account. -/
def Position.account (p : Position) : AccountId → Account
  | .drawerA => p.drawerA
  | .drawerB => p.drawerB
  | .branchCash => p.branchCash

/-- The account that receives a dispense's remainder (R44). -/
def remainderAccount (t : Teller) : RemainderTarget → AccountId
  | .own => drawerOf t
  | .branch => .branchCash

/-- A balance is in range (R7). -/
def balanceInRange (b : Int) : Bool := -Config.balanceMax ≤ b && b ≤ Config.balanceMax

/-- The code of an account (11.2). -/
def accountCode : Option AccountId → Nat
  | none => 0
  | some .drawerA => 1
  | some .drawerB => 2
  | some .branchCash => 3

/-! ## The journal's room (R161, R162) -/

/-- The occupied slots: retained records and staged records (R161). -/
def Journal.occupied (j : Journal) : Nat := j.retained.length + j.staging.length

/-- The unassigned numbers (R161). -/
def Journal.unassigned (j : Journal) : Nat :=
  match j.next with
  | some n => Config.lastSequence + 1 - n
  | none => 0

/-- The available room: the lesser of the free slots and the unassigned numbers (R161). -/
def Journal.room (j : Journal) : Nat := min (Config.journalSlots - j.occupied) j.unassigned

/-- The free entries of the staging queue (R162). One promised to the record of the request in hand is not free
(notes/assumptions/19.md). -/
def Journal.stagingFree (j : Journal) : Nat := Config.stagingEntries - (j.staging.length + j.promised.toNat)

/-- The highest number given to a record (R168). -/
def Journal.highest (j : Journal) : Nat :=
  match j.next with
  | some n => n - 1
  | none => Config.lastSequence

/-- The figures STATUS and JOURNAL_HIGH carry (R165, R183). -/
def Journal.figures (j : Journal) : JournalFigures :=
  { write := j.write, next := j.next, durable := j.durable, trim := j.trimPoint, occupied := j.occupied,
    reservations := j.reservations.length, room := j.room, lost := j.lost }

/-- The journal room check (R162) for n records and reservations, so many of them staged at once: the refusal, or none. -/
def Journal.roomCheck (j : Journal) (n atOnce : Nat) : Option Reason :=
  if j.room < Config.eventReserve + n + j.reservations.length then some .journalFull
  else if j.stagingFree < Config.stagingReserve ∨ j.stagingFree < atOnce then some .journalBusy
  else none

/-! ## The envelope slot (R118, R121) -/

/-- The conditions of the open permit that fail (R118, R119). -/
def State.permitFailures (s : State) : PermitFailures :=
  { binFull := s.settings.binCapacity ≤ s.depository.bin.count
    restricted := s.restricted .slotClose
    supervisor := !s.depository.supervisorOpen }

/-- The open permit holds (R118). -/
def State.permit (s : State) : Bool :=
  !(s.permitFailures.binFull || s.permitFailures.restricted || s.permitFailures.supervisor)

/-- The shutter is commanded open in OPEN and closed in every other state (R118). -/
def Depository.shutterOpen (d : Depository) : Bool := d.slot == .open_

/-- What the rollers do (R122, R123, R126, R130, R131). -/
inductive Rollers where
  | stopped | inward | outward
  deriving DecidableEq, Repr

/-- The rollers' drive in each slot state: inward in the pulls and towards the drop, outward in the reverse, holding the
envelope at the imprint position, stopped otherwise. The drive runs while the timer of its run does: a reset, which stops
the timers, stops the rollers (R134). -/
def Depository.rollers (d : Depository) : Rollers :=
  match d.slot with
  | .intake =>
    if d.phase = .reverse then (if d.reverseTimer then .outward else .stopped)
    else if d.intakeTimer then .inward
    else .stopped
  | .drop => if d.dropTimer || d.clearTimer then .inward else .stopped
  | .imprint => .stopped
  | .closed => .stopped
  | .open_ => .stopped
  | .jammed => .stopped

/-- Keys are taken in OPEN, INTAKE, IMPRINT and DROP (R120). -/
def SlotState.takesKeys : SlotState → Bool
  | .open_ => true
  | .intake => true
  | .imprint => true
  | .drop => true
  | .closed => false
  | .jammed => false

/-! ## Start-up -/

/-- The part has its supply. -/
def State.powered (s : State) : Bool := s.startUp.phase != .off

/-- The blocks take events: phase PURGE or READY (notes/assumptions/8.md). -/
def State.running (s : State) : Bool := s.startUp.phase == .purge || s.startUp.phase == .ready

end Sys2Proof.Machine
end

