-- ==== Sys2Proof/Machine/Layouts.lean ====
section
/-!
DEFINITION. The bytes of chapter 11: integers and packed amounts, code fields, records, and the replies and notices as a
transmitter sends them. Where the spec gives a figure no width, the width is the model's (notes/assumptions/6.md); where it
gives a named value no code, the byte is a free value.
-/
namespace Sys2Proof.Machine

/-! ## Integers and packed amounts (R27, R28, R30, 11) -/

/-- An unsigned integer from bytes, most significant first. -/
def natOf (bytes : List Byte) : Nat := bytes.foldl (fun n b => n * 256 + b.toNat) 0

/-- An integer in n bytes, most significant first. -/
def bytesOf : Nat → Nat → List Byte
  | 0, _ => []
  | n + 1, v => BitVec.ofNat 8 (v / 256 ^ n) :: bytesOf n v

/-- The operand bytes from an offset, so many of them. -/
def field (ops : List Byte) (at_ n : Nat) : List Byte := (ops.drop at_).take n

/-- An integer operand. -/
def intField (ops : List Byte) (at_ n : Nat) : Nat := natOf (field ops at_ n)

/-- The digits of packed bytes, two to a byte, high half first. -/
def digitsOf (bytes : List Byte) : List Nat := bytes.flatMap (fun b => [b.toNat / 16, b.toNat % 16])

/-- The position of the first digit above 9, counted from the position given (R30). -/
def badDigitAt : Nat → List Nat → Option Nat
  | _, [] => none
  | n, d :: ds => if 9 < d then some n else badDigitAt (n + 1) ds

/-- The number decimal digits spell, first digit most significant. -/
def decimal (digits : List Nat) : Nat := digits.foldl (fun n d => n * 10 + d) 0

/-- An unsigned amount read and checked: cents, or the failing position (R27, R30). -/
def readU4 (bytes : List Byte) : Except Nat Nat :=
  match badDigitAt 1 (digitsOf bytes) with
  | some p => .error p
  | none => .ok (decimal (digitsOf bytes))

/-- A signed amount read and checked: the sign first, position 0, then the nine digits; minus zero is zero (R28, R30). -/
def readS5 (bytes : List Byte) : Except Nat Int :=
  let halves := digitsOf bytes
  let sign := halves.getLast?.getD 0
  let digits := halves.dropLast
  if sign ≠ 12 ∧ sign ≠ 13 then .error 0
  else
    match badDigitAt 1 digits with
    | some p => .error p
    | none => if sign = 13 then .ok (-(decimal digits : Int)) else .ok (decimal digits : Int)

/-- Two decimal digits in a byte. -/
def packByte (hi lo : Nat) : Byte := BitVec.ofNat 8 (hi * 16 + lo)

/-- n packed bytes of a decimal number, two digits each. -/
def packDigits : Nat → Nat → List Byte
  | 0, _ => []
  | n + 1, v => packByte (v / 10 ^ (2 * n + 1) % 10) (v / 10 ^ (2 * n) % 10) :: packDigits n v

/-- An unsigned amount as it is sent (R27). -/
def writeU4 (cents : Nat) : List Byte := packDigits 4 cents

/-- A signed amount as it is sent: nine digits and a sign, plus for zero (R28). -/
def writeS5 (cents : Int) : List Byte :=
  let m := cents.natAbs
  packDigits 4 (m / 10) ++ [packByte (m % 10) (if cents < 0 then 13 else 12)]

/-- Four counts of 2 bytes (11.2). -/
def countsField (ops : List Byte) (at_ : Nat) : Quad Nat :=
  ⟨intField ops at_ 2, intField ops (at_ + 2) 2, intField ops (at_ + 4) 2, intField ops (at_ + 6) 2⟩

/-- One byte of the operands. -/
def byteField (ops : List Byte) (at_ : Nat) : Nat := intField ops at_ 1

/-! ## Code fields (R202, 11.2) -/

/-- A cassette or denomination number 1 to 4. -/
def ixOf : Nat → Option Ix
  | 1 => some .i1
  | 2 => some .i2
  | 3 => some .i3
  | 4 => some .i4
  | _ => none

/-- An account code. -/
def accountOf : Nat → Option AccountId
  | 1 => some .drawerA
  | 2 => some .drawerB
  | 3 => some .branchCash
  | _ => none

/-- The kinds of a POST (R14). -/
inductive PostKind where
  | cashIn | cashOut | coinPaid
  deriving DecidableEq, Repr

/-- A POST kind code. -/
def postKindOf : Nat → Option PostKind
  | 1 => some .cashIn
  | 2 => some .cashOut
  | 3 => some .coinPaid
  | _ => none

/-- The options of a HANDOVER (R17). -/
inductive HandoverOption where
  | exchange | moveAll | moveAmount
  deriving DecidableEq, Repr

/-- A HANDOVER option code. -/
def handoverOptionOf : Nat → Option HandoverOption
  | 1 => some .exchange
  | 2 => some .moveAll
  | 3 => some .moveAmount
  | _ => none

/-- A purpose code (R98). -/
def purposeOf : Nat → Option Purpose
  | 1 => some .customer
  | 2 => some .drawer
  | _ => none

/-- The purpose code in a record. -/
def purposeCode : Option Purpose → Nat
  | none => 0
  | some .customer => 1
  | some .drawer => 2

/-- A cassette mode code (11.2). -/
def modeOf : Nat → Option CassetteMode
  | 1 => some .recycle
  | 2 => some .dispense
  | 3 => some .deposit
  | _ => none

/-- The cassette mode code. -/
def modeCode : CassetteMode → Nat
  | .recycle => 1
  | .dispense => 2
  | .deposit => 3

/-- The places an UNLOAD names (R19, R21, 11.2). -/
inductive UnloadPlace where
  | cassette (k : Ix)
  | reject
  | retract
  | suspect
  deriving DecidableEq, Repr

/-- An UNLOAD place code. -/
def unloadPlaceOf : Nat → Option UnloadPlace
  | 5 => some .reject
  | 6 => some .retract
  | 7 => some .suspect
  | n => (ixOf n).map .cassette

/-- The code of a place in a record's extra field (R203). -/
def placeCode : UnloadPlace → Nat
  | .cassette k => k.number
  | .reject => 5
  | .retract => 6
  | .suspect => 7

/-- A zone type code (11.2). -/
def zoneTypeOf : Nat → Option ZoneType
  | 1 => some .holdup
  | 2 => some .tamper
  | 3 => some .intrusion
  | 4 => some .intrusionDelayed
  | 5 => some .attack
  | 6 => some .supervisory
  | _ => none

/-- The zone type code. -/
def zoneTypeCode : ZoneType → Nat
  | .holdup => 1
  | .tamper => 2
  | .intrusion => 3
  | .intrusionDelayed => 4
  | .attack => 5
  | .supervisory => 6

/-- An arm mode code (11.2). -/
def armModeOf : Nat → Option ArmMode
  | 1 => some .always
  | 2 => some .armedOnly
  | _ => none

/-- The arm mode code. -/
def armModeCode : ArmMode → Nat
  | .always => 1
  | .armedOnly => 2

/-- A zone number 0 to 15. -/
def zoneOf (n : Nat) : Option (Fin 16) := if h : n < 16 then some ⟨n, h⟩ else none

/-- A port code naming a port. -/
def portOf : Nat → Option Port
  | 1 => some .a
  | 2 => some .b
  | 3 => some .s
  | 4 => some .m
  | _ => none

/-- An approval class code (11.2). -/
def classOf : Nat → Option ApprovalClass
  | 1 => some .depositOverride
  | 2 => some .delayWaive
  | 3 => some .postLarge
  | _ => none

/-- The sections of STATUS (R183). -/
inductive Section where
  | port | module | dispense | escrow | slot | alarm | journal
  deriving DecidableEq, Repr

/-- A STATUS section code (11.2). -/
def sectionOf : Nat → Option Section
  | 1 => some .port
  | 2 => some .module
  | 3 => some .dispense
  | 4 => some .escrow
  | 5 => some .slot
  | 6 => some .alarm
  | 7 => some .journal
  | _ => none

/-- Every record kind, in the order of the kinds table (R159, 11.4). -/
def allKinds : List RecordKind :=
  [.dispenseStart, .dispenseEnd, .insert, .return_, .commit, .posting, .handover, .load, .unload, .removal, .reconcile,
    .purge, .envelope, .alarm, .ack, .arm, .disarm, .setting, .gap, .powerUp]

/-- A kind code 01h to 14h (11.4). -/
def kindOf (n : Nat) : Option RecordKind :=
  if n = 0 then none else allKinds[n - 1]?

/-- The kind code. -/
def kindCode (k : RecordKind) : Nat := allKinds.findIdx (· == k) + 1

/-! ## Records and header codes (11) -/

/-- A signed count in 4 bytes, two's complement. -/
def signed4 (v : Int) : List Byte := bytesOf 4 (BitVec.ofInt 32 v).toNat

/-- The marks field (11.4). -/
def Marks.bits (m : Marks) : Nat :=
  m.capped.toNat + 2 * m.short.toNat + 4 * m.unbooked.toNat + 8 * m.truncated.toNat + 16 * m.suspectReturned.toNat +
    32 * m.noReceipt.toNat + 64 * m.entry.toNat + 128 * m.valueOver.toNat + 256 * m.clockInvalid.toNat

/-- Four counts of 2 bytes. -/
def counts2 (q : Quad Nat) : List Byte := bytesOf 2 q.c1 ++ bytesOf 2 q.c2 ++ bytesOf 2 q.c3 ++ bytesOf 2 q.c4

/-- A preference order. -/
def orderBytes (order : List Ix) : List Byte := order.flatMap (fun k => bytesOf 1 k.number)

/-- The preference order of a dispense detail: four bytes, at zero where the owning rule does not fill it (R159, 11.4). -/
def recordOrder (order : List Ix) : List Byte := if order = [] then List.replicate 4 0#8 else orderBytes order

/-- The bytes of a record's detail (11.4). An amount not booked of 1,000,000.00 or more, the double booking of a dispense or the value of
a full stack, loses the digit above the eight of its field, and a returned count above 255, which no rule bounds, keeps its low 8 bits, a
DESIGN CHOICE (R27, R35, R101; notes/assumptions/66.md). -/
def Detail.bytes : Detail → List Byte
  | .none => []
  | .dispense d =>
    writeU4 d.amount ++ writeU4 d.payable ++ writeU4 d.remainder ++ writeU4 d.unpaid ++ writeU4 d.unbooked ++
      bytesOf 1 d.cap ++ recordOrder d.preference ++ bytesOf 1 (accountCode d.account) ++
      bytesOf 1 d.cause
  | .deposit d =>
    counts2 d.fit ++ counts2 d.unfit ++ bytesOf 1 d.suspect ++ bytesOf 1 d.returned ++ bytesOf 1 d.bundles ++
      bytesOf 1 d.first ++ bytesOf 1 (purposeCode d.purpose) ++ bytesOf 1 (accountCode d.account) ++ bytesOf 1 d.cause ++
      writeU4 d.unbooked ++ bytesOf 1 (portCode d.ownerPort)
  | .setting before after => before ++ after
  | .warm _ => []

/-- The bytes of a record (11.4, R203). -/
def Record.bytes (r : Record) : List Byte :=
  bytesOf 4 r.sequence ++ bytesOf 4 r.time.toNat ++ bytesOf 1 (kindCode r.kind) ++ bytesOf 1 (portCode r.port) ++
    bytesOf 1 r.outcome ++ bytesOf 2 r.marks.bits ++ signed4 r.counts.c1 ++ signed4 r.counts.c2 ++ signed4 r.counts.c3 ++
    signed4 r.counts.c4 ++ writeS5 r.amount ++ bytesOf 4 r.extra ++ bytesOf 1 r.detail.bytes.length ++ r.detail.bytes

/-- The reason code (11.3). -/
def Reason.code : Reason → Nat
  | .unknown => 0x01
  | .role => 0x02
  | .length => 0x03
  | .starting => 0x04
  | .busy => 0x05
  | .notClaimed => 0x06
  | .jammed => 0x07
  | .audit => 0x08
  | .halted => 0x09
  | .badDigit => 0x0A
  | .notPayable => 0x0B
  | .inexact => 0x0C
  | .range => 0x0D
  | .binFull => 0x0E
  | .stale => 0x0F
  | .journalFull => 0x10
  | .journalBusy => 0x11
  | .escrowNotEmpty => 0x12
  | .notOpen => 0x13
  | .escrowFull => 0x14
  | .escrowEmpty => 0x15
  | .verdict => 0x16
  | .mismatch => 0x17
  | .approval => 0x18
  | .inUse => 0x19
  | .duplicate => 0x1A
  | .noOperation => 0x1B
  | .outOfRange => 0x1C
  | .zoneActive => 0x1D
  | .zeroAmount => 0x1E

/-- The status code (R201). -/
def Status.code : Status → Nat
  | .ok => 0
  | .clamped => 1
  | .accepted => 2
  | .granted => 3
  | .waiting => 4
  | .refused => 5

/-! ## Figures of replies and notices (R201, R202; widths: notes/assumptions/6.md) -/

/-- A flag: 00h or 01h. -/
def flag1 (b : Bool) : List Byte := bytesOf 1 b.toNat

/-- A named value to which the spec gives no code: one free byte. -/
def named {α : Type} (x : α) : List Byte := [Config.freeCode x]

/-- A figure that may be absent: a presence flag, then the figure where it is present. -/
def optional {α : Type} (f : α → List Byte) : Option α → List Byte
  | none => flag1 false
  | some x => flag1 true ++ f x

/-- Four signed counts. -/
def signedCounts (q : Quad Int) : List Byte := signed4 q.c1 ++ signed4 q.c2 ++ signed4 q.c3 ++ signed4 q.c4

/-- The next sequence number. EXHAUSTED goes as four zero bytes, a DESIGN CHOICE (R160, R183; notes/assumptions/92.md). -/
def nextBytes (n : Option Nat) : List Byte := bytesOf 4 (n.getD 0)

/-- The audit state and its cause set, a bit for each cause in the order of R10. -/
def Causes.bytes (c : Causes) : List Byte :=
  flag1 c.any ++
    bytesOf 1
      (c.gap.toNat + 2 * c.integrity.toNat + 4 * c.coldStart.toNat + 8 * c.unauthorisedRemoval.toNat +
        16 * c.reconcileDueJam.toNat)

/-- The failing permit conditions, a bit for each in the order of R119. -/
def PermitFailures.bytes (f : PermitFailures) : List Byte :=
  bytesOf 1 (f.binFull.toNat + 2 * f.restricted.toNat + 4 * f.supervisor.toNat)

/-- The bin record: its four counts and the declared total in eleven packed digits (R132); that the half byte left over is a zero in front
of them is a DESIGN CHOICE (notes/assumptions/101.md). -/
def BinRecord.bytes (b : BinRecord) : List Byte :=
  bytesOf 2 b.count ++ bytesOf 2 b.declared ++ bytesOf 2 b.undeclared ++ bytesOf 2 b.captured ++ packDigits 6 b.total

/-- A bundle record in the order of R95: note counts of 2 bytes, the suspect count of 1 byte as in 11.2 and 11.4, the two flags a byte
each. A DESIGN CHOICE are the 2 bytes of the returned count, of which a feed sets no bound: its low 16 bits (notes/assumptions/6.md). -/
def Bundle.bytes (b : Bundle) : List Byte :=
  counts2 b.fit ++ counts2 b.unfit ++ bytesOf 1 b.suspect ++ bytesOf 2 b.returned ++ flag1 b.truncated ++
    flag1 b.suspectReturned

/-- The bundles of a stack, bottom to top (R94), behind a byte that counts them, a DESIGN CHOICE (notes/assumptions/6.md). State holds
the stack top first. -/
def stackBytes (stack : List Bundle) : List Byte := bytesOf 1 stack.length ++ stack.reverse.flatMap Bundle.bytes

/-- An OPEN escrow record, its stack last (R94). -/
def escrowBytes (isOpen : Bool) (owner : Teller) (purpose : Purpose) (account : AccountId) (declared : Option Nat)
    (verdict : Verdict) (stack : List Bundle) : List Byte :=
  flag1 isOpen ++ bytesOf 1 (portCode (some owner.port)) ++ bytesOf 1 (purposeCode (some purpose)) ++
    bytesOf 1 (accountCode (some account)) ++ optional writeU4 declared ++ named verdict ++ stackBytes stack

/-! The position (R12). -/

/-- Four counts of 4 bytes, the flows of the denominations. -/
def counts4 (q : Quad Nat) : List Byte := bytesOf 4 q.c1 ++ bytesOf 4 q.c2 ++ bytesOf 4 q.c3 ++ bytesOf 4 q.c4

/-- A cassette record without its check word, in the order of R4; an absent index is 00h, a DESIGN CHOICE (notes/assumptions/6.md). -/
def Cassette.bytes (c : Cassette) : List Byte :=
  bytesOf 1 (modeCode c.mode) ++ bytesOf 1 (match c.index with | some d => d.number | none => 0) ++ counts2 c.counts ++
    bytesOf 2 c.capacity ++ bytesOf 2 c.low ++ named c.state ++ flag1 c.pickFailed

/-- An account's balance and coin due (R7). -/
def Account.bytes (a : Account) : List Byte := writeS5 a.balance ++ writeU4 a.coinDue

/-- The six flows in the order of R3. -/
def Flows.bytes (f : Flows) : List Byte :=
  counts4 f.opening ++ counts4 f.loaded ++ counts4 f.accepted ++ counts4 f.taken ++ counts4 f.returned ++
    counts4 f.unloaded

/-- The place counts in the order of R1. -/
def PositionReport.placeBytes (x : PositionReport) : List Byte :=
  let p := x.position
  counts2 p.cassettes.c1.counts ++ counts2 p.cassettes.c2.counts ++ counts2 p.cassettes.c3.counts ++
    counts2 p.cassettes.c4.counts ++ counts2 x.escrow ++ counts2 p.transit ++ counts2 p.pockets.a ++ counts2 p.pockets.b ++
    counts2 p.reject ++ counts2 p.retract ++ signedCounts p.discrepancy

/-- What POSITION_READ reports, in the order of R12: the place counts, the suspect count and its two flows, the flows, the cassette
records, the accounts, the generation, the audit state with its causes, the integrity fault record, the last-applied sequence, the
integrity statuses, 01h for OK; then the module state (R57). The widths: notes/assumptions/6.md. -/
def PositionReport.bytes (x : PositionReport) : List Byte :=
  let p := x.position
  x.placeBytes ++ bytesOf 1 p.suspect ++ bytesOf 4 p.suspectIn ++ bytesOf 4 p.suspectOut ++ p.flows.bytes ++
    p.cassettes.c1.bytes ++ p.cassettes.c2.bytes ++ p.cassettes.c3.bytes ++ p.cassettes.c4.bytes ++
    p.drawerA.bytes ++ p.drawerB.bytes ++ p.branchCash.bytes ++ bytesOf 4 p.generation.toNat ++ p.causes.bytes ++
    optional (fun f => named f.which ++ bytesOf 4 f.time.toNat) p.integrityFault ++ bytesOf 4 p.lastApplied ++
    flag1 x.cassettesOk.c1 ++ flag1 x.cassettesOk.c2 ++ flag1 x.cassettesOk.c3 ++ flag1 x.cassettesOk.c4 ++
    flag1 x.drawerAOk ++ flag1 x.drawerBOk ++ flag1 x.branchOk ++ named x.moduleState

/-! The alarm unit and the journal. -/

/-- The alarm figures of an ALARM_LIST reply (R152). -/
def AlarmSummary.listBytes (x : AlarmSummary) : List Byte :=
  bytesOf 1 x.level ++ flag1 x.armed ++ bytesOf 2 x.bypassed.toNat ++ bytesOf 1 x.restriction.toNat ++
    flag1 x.silentLine ++ flag1 x.sounder

/-- The alarm figures of STATUS (R183). -/
def AlarmSummary.statusBytes (x : AlarmSummary) : List Byte :=
  flag1 x.armed ++ bytesOf 2 x.bypassed.toNat ++ bytesOf 1 x.level ++ bytesOf 1 x.restriction.toNat ++
    flag1 x.silentLine ++ flag1 x.sounder

/-- An entry of the zone alarm list (R152). -/
def AlarmEntry.bytes (e : AlarmEntry) : List Byte :=
  bytesOf 1 e.zone.val ++ named e.state ++ bytesOf 1 e.level ++ bytesOf 1 e.effects.toNat ++ flag1 e.trouble ++
    flag1 e.bypassed ++ flag1 e.enabled ++ bytesOf 4 e.lastActivation.toNat

/-- The journal figures of STATUS (R183). -/
def JournalFigures.statusBytes (j : JournalFigures) : List Byte :=
  named j.write ++ nextBytes j.next ++ bytesOf 4 j.durable ++ bytesOf 4 j.trim ++ bytesOf 2 j.occupied ++
    bytesOf 2 j.reservations ++ bytesOf 2 j.room ++ bytesOf 2 j.lost

/-- The journal figures of JOURNAL_HIGH (R165). -/
def JournalFigures.noticeBytes (j : JournalFigures) : List Byte :=
  bytesOf 2 j.occupied ++ bytesOf 2 j.reservations ++ bytesOf 2 j.room ++ bytesOf 4 j.trim ++ bytesOf 4 j.durable ++
    nextBytes j.next ++ bytesOf 2 j.lost ++ named j.write

/-- The place an IN_USE refusal names: the UNLOAD place code where it has one (R195, 11.2). -/
def Place.bytes : Place → List Byte
  | .cassette k => bytesOf 1 (placeCode (.cassette k))
  | .reject => bytesOf 1 (placeCode .reject)
  | .retract => bytesOf 1 (placeCode .retract)
  | .escrow => named Place.escrow
  | .transit => named Place.transit
  | .pocket t => named (Place.pocket t)
  | .discrepancy => named Place.discrepancy

/-- An approval class code (11.2). -/
def classCode : ApprovalClass → Nat
  | .depositOverride => 1
  | .delayWaive => 2
  | .postLarge => 3

/-- The criteria as applied, in the layout of the JOURNAL_SCAN operands: presence, kind, port, amount (11.2). DESIGN CHOICES are that
layout, for which R172 gives none, and the zero kind, port and amount of a criterion that is absent (notes/assumptions/100.md). -/
def Criteria.bytes (c : Criteria) : List Byte :=
  bytesOf 1 (c.kind.isSome.toNat + 2 * c.port.isSome.toNat + 4 * c.amount.isSome.toNat) ++
    bytesOf 1 (match c.kind with | some k => kindCode k | none => 0) ++ bytesOf 1 (portCode (c.port.getD none)) ++
    writeS5 (c.amount.getD 0)

/-- A zone configuration in its ZONE_SET layout, without the zone number (11.2, R203). -/
def ZoneConfig.bytes (c : ZoneConfig) : List Byte :=
  bytesOf 1 (zoneTypeCode c.type) ++ bytesOf 1 c.level ++ bytesOf 1 c.effects.toNat ++ bytesOf 1 (armModeCode c.armMode) ++
    bytesOf 1 c.enabled.toNat ++ bytesOf 2 c.debounce

/-- Eight bytes of a SETTING detail: a value in its layout, filled with zeros (R203). -/
def settingBytes (value : List Byte) : List Byte := (value ++ List.replicate (8 - value.length) 0#8).take 8

/-! ## Results of replies (R201, R202) -/

/-- The kinds of a wait list entry (R50). -/
inductive WaitKind where
  | claim | delayed
  deriving DecidableEq, Repr

/-- An entry of the wait list: its port and its kind (R183). -/
def WaitEntry.bytes (e : WaitEntry) : List Byte :=
  match e with
  | .claim p => bytesOf 1 (portCode (some p)) ++ named WaitKind.claim
  | .delayed t => bytesOf 1 (portCode (some t.port)) ++ named WaitKind.delayed

/-- A dispense record as STATUS shows it: state, A, T, the mix, R, delivered and presented counts, the delay end with the extension
mark, and in QUEUED the position of its entry (R183). The port code before it is a DESIGN CHOICE (notes/assumptions/63.md). -/
def shownBytes (x : Teller × Dispense × Option Nat) : List Byte :=
  let d := x.2.1
  bytesOf 1 (portCode (some x.1.port)) ++ named d.state ++ writeU4 d.amount ++ writeU4 d.payable ++ counts2 d.mix ++
    writeU4 d.remainder ++ counts2 d.delivered ++ counts2 d.presented ++ bytesOf 4 d.delayEnd.toNat ++
    flag1 d.extended ++ (match x.2.2 with | some n => bytesOf 1 n | none => [])

/-- The envelope in transport: its declared amount and its two marks (R117). -/
def Envelope.bytes (e : Envelope) : List Byte :=
  optional writeU4 e.declared ++ flag1 e.imprinted ++ flag1 e.unimprinted

/-- A section of STATUS, in the order of the table of R183. DESIGN CHOICES are the single byte 00h of an empty approval slot, port M's
among them (notes/assumptions/87.md), and the byte that counts the wait list entries before them (notes/assumptions/6.md). -/
def StatusSection.bytes : StatusSection → List Byte
  | .port frame overrun approval =>
    flag1 frame ++ flag1 overrun ++
      (match approval with | some (c, left) => bytesOf 1 (classCode c) ++ bytesOf 2 left | none => bytesOf 1 0)
  | .module owner waiting idleLeft state =>
    named owner ++ bytesOf 1 waiting.length ++ waiting.flatMap WaitEntry.bytes ++ optional (bytesOf 2) idleLeft ++
      named state
  | .dispense shown => shown.flatMap shownBytes
  | .escrow isOpen owner purpose account declared verdict stack =>
    escrowBytes isOpen owner purpose account declared verdict stack
  | .escrowOther isOpen owner => flag1 isOpen ++ bytesOf 1 (portCode (some owner.port))
  | .slot shown phase supervisorOpen permit envelope sequence bin capacity pullbacks imprinterFault receiptOut mouth =>
    named shown ++ named phase ++ flag1 supervisorOpen ++ permit.bytes ++ optional Envelope.bytes envelope ++
      bytesOf 4 sequence ++ bin.bytes ++ flag1 bin.nearFull ++ bytesOf 2 capacity ++ bytesOf 1 pullbacks ++
      flag1 imprinterFault ++ flag1 receiptOut ++ flag1 mouth
  | .alarm summary => summary.statusBytes
  | .alarmTeller restriction => bytesOf 1 restriction.toNat
  | .journal figures => figures.statusBytes

/-- What a DISPENSE reply ACCEPTED carries (R72). -/
def DispenseAccepted.bytes (d : DispenseAccepted) : List Byte :=
  bytesOf 4 d.startSequence ++ bytesOf 1 d.cap ++ orderBytes d.preference ++ counts2 d.mix.mix ++ bytesOf 2 d.mix.notes ++
    writeU4 d.mix.value ++ writeU4 d.mix.remainder ++ writeU4 d.mix.payable ++ writeU4 d.mix.unpaid ++
    bytesOf 1 (accountCode (some d.account)) ++ flag1 d.waiverConsumed ++ flag1 d.waiverApplied ++ bytesOf 2 d.delay

/-- What a JOURNAL_SCAN reply carries; a record for FOUND alone (R172, R203). -/
def ScanResult.bytes (r : ScanResult) : List Byte :=
  named r.stop ++ bytesOf 4 r.last ++ bytesOf 2 r.examined ++ bytesOf 2 r.remaining ++
    (match r.record with | some x => x.bytes | none => []) ++ bytesOf 2 r.applied ++ r.criteria.bytes

/-- The results bytes of a reply: the figures in the order the owning rule lists them (R202). A JOURNAL_READ reply begins with a byte
whose bit 0 is STANDS_FOR (R203). DESIGN CHOICES are that its other bits are zero (notes/assumptions/105.md), that APPROVE's reply shows
no class replaced as 00h (notes/assumptions/87.md), and that HANDOVER's shows the source account before the destination
(notes/assumptions/81.md). -/
def Results.bytes : Results → List Byte
  | .none => []
  | .badDigit operand at_ => bytesOf 1 operand ++ bytesOf 1 at_
  | .stale generation counts =>
    bytesOf 4 generation.toNat ++ counts2 counts.c1 ++ counts2 counts.c2 ++ counts2 counts.c3 ++ counts2 counts.c4
  | .notPayable payable => writeU4 payable
  | .inexact mix notes value remainder payable =>
    counts2 mix ++ bytesOf 2 notes ++ writeU4 value ++ writeU4 remainder ++ writeU4 payable
  | .mixRange mix value remainder part => counts2 mix ++ writeU4 value ++ writeU4 remainder ++ named part
  | .room available reservations stagingFree =>
    bytesOf 2 available ++ bytesOf 2 reservations ++ bytesOf 1 stagingFree
  | .dispenseAccepted d => d.bytes
  | .owner o => named o
  | .withdrawn => named Results.withdrawn
  | .escrowRecord window purpose declared verdict =>
    escrowBytes true window purpose (drawerOf window) declared verdict []
  | .compared verdict total declared difference =>
    named verdict ++ writeS5 total ++ writeU4 declared ++ writeS5 difference
  | .commitAccepted total consumed => writeS5 total ++ flag1 consumed
  | .posted sequence balance coinDue => bytesOf 4 (sequence.getD 0) ++ writeS5 balance ++ writeU4 coinDue
  | .balances balance coinDue => writeS5 balance ++ writeU4 coinDue
  | .handedOver sourceBalance sourceCoin destBalance destCoin =>
    writeS5 sourceBalance ++ writeU4 sourceCoin ++ writeS5 destBalance ++ writeU4 destCoin
  | .reconciled sequence discrepancy => bytesOf 4 (sequence.getD 0) ++ signedCounts discrepancy
  | .inUse place => place.bytes
  | .setting before applied => before ++ applied
  | .slot shown failing => named shown ++ (if shown = .open_ then [] else failing.bytes)
  | .binBooked sequence bin => bytesOf 4 (sequence.getD 0) ++ bin.bytes
  | .zoneSet applied => applied.bytes
  | .zonesNotNormal zones => zones.flatMap (fun x => bytesOf 1 x.1.val ++ named x.2)
  | .bypassSet zones => bytesOf 2 zones.toNat
  | .acknowledged toQuiet toAcked level => bytesOf 2 toQuiet.toNat ++ bytesOf 2 toAcked.toNat ++ bytesOf 1 level
  | .alarmList summary count entries => summary.listBytes ++ bytesOf 1 count ++ entries.flatMap AlarmEntry.bytes
  | .sounder before after => flag1 before ++ flag1 after
  | .journalRecord record standsFor trim durable next =>
    flag1 standsFor ++ record.bytes ++ bytesOf 4 trim ++ bytesOf 4 durable ++ nextBytes next
  | .journalRange trim durable next => bytesOf 4 trim ++ bytesOf 4 durable ++ nextBytes next
  | .scanRange trim durable => bytesOf 4 trim ++ bytesOf 4 durable
  | .scanned r => r.bytes
  | .trimmed removed applied occupied left =>
    bytesOf 2 removed ++ bytesOf 4 applied ++ bytesOf 2 occupied ++ bytesOf 2 left
  | .synced durable awaited => bytesOf 4 durable ++ bytesOf 4 awaited
  | .status section_ count clockInvalid causes =>
    section_.bytes ++ bytesOf 4 count.toNat ++ flag1 clockInvalid ++ causes.bytes
  | .position report => report.bytes
  | .faults frame overrun => flag1 frame ++ flag1 overrun
  | .approved replaced => bytesOf 1 ((replaced.map classCode).getD 0)
  | .clock before after => bytesOf 4 before.toNat ++ bytesOf 4 after.toNat

/-! ## Replies on the line (R201, R202) -/

/-- Results bytes cut into pieces of at most 249, each behind its count byte. The first argument bounds the pieces. -/
def cutResults : Nat → List Byte → List (List Byte)
  | 0, _ => []
  | n + 1, results =>
    if results = [] then []
    else (BitVec.ofNat 8 (results.take 249).length :: results.take 249) :: cutResults n (results.drop 249)

/-- The results of each part of a reply: uncut and without a count byte up to 250 bytes (R202). -/
def Reply.parts (r : Reply) : List (List Byte) :=
  if r.results.bytes.length ≤ 250 then [r.results.bytes] else cutResults r.results.bytes.length r.results.bytes

/-- The parts after the first (R202). -/
def Reply.partsAfter (r : Reply) : Nat := r.parts.length - 1

/-- The five header bytes of a reply body, for a part with so many after it: the continuation flag stands on every part but the last
(R201, R202). -/
def Reply.header (r : Reply) (partsAfter : Nat) : List Byte :=
  [0x02#8, r.tag, r.code,
    BitVec.ofNat 8
      (r.status.code + (if partsAfter = 0 then 0 else 0x40) + (if r.faultsPending then 0x80 else 0)),
    BitVec.ofNat 8 (match r.reason with | some x => x.code | none => 0)]

/-- The body of the part of a reply with so many parts after it (R201, R202). -/
def Reply.body (r : Reply) (partsAfter : Nat) : List Byte :=
  r.header partsAfter ++ (r.parts.reverse[partsAfter]?).getD []

/-! ## Notices on the line (R186, R201) -/

/-- The kind of a notice. -/
def Notice.kind : Notice → NoticeKind
  | .alarmChange _ _ _ => .alarmChange
  | .restriction _ _ => .restriction
  | .grant _ => .grant
  | .claimEnded _ => .claimEnded
  | .opDone _ => .opDone
  | .present _ _ _ _ _ => .present
  | .cassetteLow _ _ _ => .cassetteLow
  | .moduleFault _ => .moduleFault
  | .binNearFull _ _ _ => .binNearFull
  | .journalHigh _ => .journalHigh
  | .restarted _ _ _ _ => .restarted

/-- The kinds in send order (R186). -/
def sendOrder : List NoticeKind :=
  [.alarmChange, .restriction, .grant, .claimEnded, .opDone, .present, .cassetteLow, .moduleFault, .binNearFull,
    .journalHigh, .restarted]

/-- The code of a notice kind: its place in the send order (R201). -/
def NoticeKind.code (k : NoticeKind) : Nat := sendOrder.findIdx (· == k) + 1

/-- The notes and their value as OP_DONE carries them: the counts and then the value, as R92 lists them for a dispense; for a commit the
value and then the counts (R114). For INSERT and RETURN the order of their records is taken, a DESIGN CHOICE (R105, R109;
notes/assumptions/88.md). -/
def OpDone.figures (d : OpDone) : List Byte :=
  match d.kind with
  | .commit => writeS5 d.value ++ counts2 d.counts
  | .dispense => counts2 d.counts ++ writeS5 d.value
  | .insert => counts2 d.counts ++ writeS5 d.value
  | .return_ => counts2 d.counts ++ writeS5 d.value

/-- The content of OP_DONE: the outcome by its record code, or by the reason code where a grant check gave it (11.3), and what the
operation's kind carries (R92, R105, R109, R114). An amount UNBOOKED can pass the unsigned format and goes as a signed amount. DESIGN CHOICE
are the kind in front of the start sequence, the stack for INSERT and RETURN, and the place of the figures that R92 does not list, the
amount UNBOOKED, the cause, the presented and the retracted counts (notes/assumptions/88.md). -/
def OpDone.bytes (d : OpDone) : List Byte :=
  named d.kind ++ bytesOf 4 d.startSequence ++ bytesOf 4 d.closing ++
    bytesOf 1 (match d.reason with | some x => x.code | none => d.outcome) ++ bytesOf 2 d.marks.bits ++
    d.figures ++ writeS5 d.unbooked ++ bytesOf 1 d.cause ++
    (match d.kind with
      | .dispense =>
        counts2 d.presented ++ counts2 d.retracted ++ writeU4 d.remainder ++ writeU4 d.unpaid ++ d.carried.bytes
      | .insert => stackBytes d.remaining
      | .return_ => stackBytes d.remaining
      | .commit => stackBytes d.remaining)

/-- The causes of MODULE_FAULT, in the order of the table of R186. -/
inductive FaultCause where
  | pickFailure | jam | retractBinFull | ready | imprinter | slotJam | slotReady
  deriving DecidableEq, Repr

/-- The cause of a MODULE_FAULT (R186). -/
def ModuleFault.cause : ModuleFault → FaultCause
  | .pickFailure _ => .pickFailure
  | .jam _ _ => .jam
  | .retractBinFull _ _ => .retractBinFull
  | .ready _ => .ready
  | .imprinter => .imprinter
  | .slotJam _ => .slotJam
  | .slotReady => .slotReady

/-- The outcome code of a purge (R203). -/
def PurgeOutcome.code : PurgeOutcome → Nat
  | .complete => 1
  | .short => 2
  | .jammed => 3
  | .binFull => 4

/-- The phase in which the slot jammed, INTAKE or DROP (R130). -/
def jamPhase (inDrop : Bool) : SlotState := if inDrop then .drop else .intake

/-- The details of a MODULE_FAULT: the cassette number (R60), the operation's port and the sensor (R62, R66), the outcome of the purge
(R65), the phase of the slot (R130). -/
def ModuleFault.details : ModuleFault → List Byte
  | .pickFailure k => bytesOf 1 k.number
  | .jam port lastSeen => bytesOf 1 (portCode port) ++ named lastSeen
  | .retractBinFull port lastSeen => bytesOf 1 (portCode port) ++ named lastSeen
  | .ready outcome => bytesOf 1 outcome.code
  | .imprinter => []
  | .slotJam inDrop => named (jamPhase inDrop)
  | .slotReady => []

/-- The reset kinds as RESTARTED names them (R187). -/
inductive ResetName where
  | powerUp | warm | cold
  deriving DecidableEq, Repr

/-- The name of a reset kind: WARM whatever its source (R187). -/
def ResetKind.name : ResetKind → ResetName
  | .powerUp => .powerUp
  | .warm _ => .warm
  | .cold => .cold

/-- The content of a notice, in the order its rule lists it (R186). The byte that counts the zones of ALARM_CHANGE before them is a DESIGN
CHOICE (R154; notes/assumptions/6.md). That ALARM_CHANGE reports the silent line by the bit SILENT_LINE of the restriction set, and has no
field for it, is DEDUCED (R154, R155; notes/assumptions/94.md). -/
def Notice.bytes : Notice → List Byte
  | .alarmChange summary zones trouble =>
    bytesOf 1 summary.level ++ flag1 summary.armed ++ bytesOf 2 summary.bypassed.toNat ++
      bytesOf 1 summary.restriction.toNat ++ bytesOf 1 zones.length ++
      zones.flatMap (fun x => bytesOf 1 x.1.val ++ named x.2.1 ++ bytesOf 1 x.2.2) ++ bytesOf 2 trouble.toNat
  | .restriction set causes => bytesOf 1 set.toNat ++ causes.bytes
  | .grant o => named o
  | .claimEnded why => named why
  | .opDone d => d.bytes
  | .present startSequence presented value short timeout =>
    bytesOf 4 startSequence ++ counts2 presented ++ writeS5 value ++ flag1 short ++ bytesOf 2 timeout
  | .cassetteLow k state total => bytesOf 1 k.number ++ named state ++ bytesOf 2 total
  | .moduleFault f => named f.cause ++ f.details
  | .binNearFull count capacity full => bytesOf 2 count ++ bytesOf 2 capacity ++ flag1 full
  | .journalHigh figures => figures.noticeBytes
  | .restarted kind sequence causes owner => named kind.name ++ bytesOf 4 sequence ++ causes.bytes ++ named owner

/-- The body of a notice frame: five header bytes and the content (R201). That bits 0 to 6 of the flags byte are zero is a DESIGN CHOICE
(notes/assumptions/95.md). -/
def Notice.body (x : Notice) (number : Byte) (faultsPending : Bool) (merged : Nat) : List Byte :=
  [0x03#8, number, BitVec.ofNat 8 x.kind.code, if faultsPending then 0x80#8 else 0#8, BitVec.ofNat 8 merged] ++ x.bytes

/-- The bytes of the frame on a transmitter's line (R176, 11.1); none while it is idle. -/
def Transmitter.line : Transmitter → Option (List Byte)
  | .idle => none
  | .reply r partsAfter => some (frameBytes (r.body partsAfter))
  | .notice x number faultsPending merged => some (frameBytes (x.body number faultsPending merged))

end Sys2Proof.Machine
end

