-- ==== Sys2Proof/Machine/Ops.lean ====
section
/-!
DEFINITION. The operations every block shares: the port interfaces' notices and transmitters, the journal's staging and
reservations, and the bookings of the position store.
-/
namespace Sys2Proof.Machine

/-! ## Field updates -/

/-- One port's state changed. -/
def State.onPort (s : State) (p : Port) (f : PortState → PortState) : State :=
  { s with ports := s.ports.set p (f (s.ports.get p)) }

/-- One window's dispense record changed. -/
def State.onDispense (s : State) (t : Teller) (f : Dispense → Dispense) : State :=
  { s with dispenses := s.dispenses.set t (f (s.dispenses.get t)) }

/-- The record of one window's dispense. -/
def State.dispense (s : State) (t : Teller) : Dispense := s.dispenses.get t

/-- The position changed. -/
def State.onPosition (s : State) (f : Position → Position) : State := { s with position := f s.position }

/-- The note path controller changed. -/
def State.onPath (s : State) (f : NotePath → NotePath) : State := { s with path := f s.path }

/-- The escrow controller changed. -/
def State.onEscrow (s : State) (f : Escrow → Escrow) : State := { s with escrow := f s.escrow }

/-- The envelope controller changed. -/
def State.onDepository (s : State) (f : Depository → Depository) : State := { s with depository := f s.depository }

/-- The alarm unit changed. -/
def State.onAlarm (s : State) (f : AlarmUnit → AlarmUnit) : State := { s with alarm := f s.alarm }

/-- The journal controller changed. -/
def State.onJournal (s : State) (f : Journal → Journal) : State := { s with journal := f s.journal }

/-- One cassette record replaced. -/
def Position.setCassette (p : Position) (k : Ix) (c : Cassette) : Position :=
  { p with cassettes := p.cassettes.set k c }

/-- One account record replaced. -/
def Position.setAccount (p : Position) (a : AccountId) (r : Account) : Position :=
  match a with
  | .drawerA => { p with drawerA := r }
  | .drawerB => { p with drawerB := r }
  | .branchCash => { p with branchCash := r }

/-- A fresh index for a free value. -/
def State.takeFree (s : State) : Nat × State := (s.freeCount, { s with freeCount := s.freeCount + 1 })

/-! ## Notices (R185, R186) -/

/-- The slot of a kind. -/
def NoticeSet.get (n : NoticeSet) : NoticeKind → Option Pending
  | .alarmChange => n.alarmChange
  | .restriction => n.restriction
  | .grant => n.grant
  | .claimEnded => n.claimEnded
  | .opDone => n.opDone
  | .present => n.present
  | .cassetteLow => n.cassetteLow
  | .moduleFault => n.moduleFault
  | .binNearFull => n.binNearFull
  | .journalHigh => n.journalHigh
  | .restarted => n.restarted

/-- The set with the slot of a kind replaced. -/
def NoticeSet.set (n : NoticeSet) (k : NoticeKind) (x : Option Pending) : NoticeSet :=
  match k with
  | .alarmChange => { n with alarmChange := x }
  | .restriction => { n with restriction := x }
  | .grant => { n with grant := x }
  | .claimEnded => { n with claimEnded := x }
  | .opDone => { n with opDone := x }
  | .present => { n with present := x }
  | .cassetteLow => { n with cassetteLow := x }
  | .moduleFault => { n with moduleFault := x }
  | .binNearFull => { n with binNearFull := x }
  | .journalHigh => { n with journalHigh := x }
  | .restarted => { n with restarted := x }

/-- A notice put into a pending set: an empty slot takes it with merge count 1, a filled one takes the new content and
counts one more, up to 255 (R185). -/
def NoticeSet.put (n : NoticeSet) (x : Notice) : NoticeSet :=
  match n.get x.kind with
  | none => n.set x.kind (some ⟨x, 1⟩)
  | some old => n.set x.kind (some ⟨x, min Config.mergeMax (old.merged + 1)⟩)

/-- A notice raised into a port's pending set (R185). It is sent at the end of the step (notes/assumptions/10.md). -/
def raise (p : Port) (x : Notice) (s : State) : State :=
  s.onPort p (fun q => { q with notices := q.notices.put x })

/-- A notice raised to several ports. -/
def raiseTo (ps : List Port) (x : Notice) (s : State) : State := ps.foldl (fun s p => raise p x s) s

/-- RESTRICTION raised to ports A, B and S with the set and the audit state as they stand (R10, R153). -/
def raiseRestriction (s : State) : State :=
  raiseTo [.a, .b, .s] (.restriction s.alarm.restriction s.position.causes) s

/-- The first filled slot in send order, with its kind (R186). -/
def NoticeSet.first (n : NoticeSet) : Option (NoticeKind × Pending) :=
  sendOrder.findSome? (fun k => (n.get k).map (fun x => (k, x)))

/-- Port M is sent no notice while zone 14's input is ACTIVE, and no port is before start-up has ended (R186, 10.2). -/
def State.noticesFlow (s : State) (p : Port) : Bool :=
  s.startUp.phase == .ready && !(p == .m && (s.alarm.zone 14).inputActive)

/-- The faults-pending bit of a port (R180). -/
def PortState.faultsPending (q : PortState) : Bool := q.frameFlag || q.overrunFlag

/-- An idle transmitter takes up the formed reply if one is waiting, otherwise the first pending notice (R186): a notice
leaves its slot and takes the port's notice number when it begins to be sent. That its faults-pending bit is read at that moment too is a
DESIGN CHOICE (R180; notes/assumptions/98.md). -/
def pump (p : Port) (s : State) : State :=
  let q := s.ports.get p
  match q.transmitter with
  | .reply _ _ => s
  | .notice _ _ _ _ => s
  | .idle =>
    match q.held with
    | some ⟨code, tag, duress, .waiting r⟩ =>
      s.onPort p (fun q =>
        { q with held := some ⟨code, tag, duress, .sending⟩, transmitter := .reply r r.partsAfter })
    | _ =>
      if s.noticesFlow p then
        match q.notices.first with
        | none => s
        | some (k, n) =>
          s.onPort p (fun q =>
            { q with
              notices := q.notices.set k none
              noticeNumber := q.noticeNumber + 1
              transmitter := .notice n.notice q.noticeNumber q.faultsPending n.merged })
      else s

/-- Every transmitter looks for something to send. -/
def pumpAll (s : State) : State := pump .m (pump .s (pump .b (pump .a s)))

/-! ## Replies (R180, R184) -/

/-- A reply formed for the held request of a port: its content is fixed, with the faults-pending bit as the flags stand,
and a duress mark at a teller port is reported once it is formed; before start-up has ended it waits as the port's duress
pending mark (R180, R184). -/
def formReply (p : Port) (status : Status) (reason : Option Reason) (results : Results) (s : State) : State :=
  let starting := s.startUp.phase != .ready
  s.onPort p (fun q =>
    match q.held with
    | none => q
    | some h =>
      let r : Reply := ⟨h.tag, h.code, status, reason, q.faultsPending, results⟩
      let marked := h.duress && p.teller?.isSome
      { q with
        held := some { h with answer := .waiting r }
        duressPending := q.duressPending || (marked && starting)
        duressDue := q.duressDue + (if marked && !starting then 1 else 0) })

/-! ## The journal (R160 to R167) -/

/-- A record as its rule fills it: unfilled fields hold zero and no port (R159). The amount is the exact value. That the outcome of a kind
whose rule names none is the 1 of a kind with one outcome (R203), and not zero, is a DESIGN CHOICE (notes/assumptions/97.md). -/
structure Draft where
  kind : RecordKind
  port : Option Port := none
  outcome : Nat := 1
  marks : Marks := {}
  counts : Quad Int := Quad.all 0
  amount : Int := 0
  extra : Nat := 0
  detail : Detail := .none

/-- The amount a record holds for an exact value (R34). -/
def recordAmount (v : Int) : Int :=
  if Config.balanceMax < v then Config.balanceMax
  else if v < -Config.balanceMax then -Config.balanceMax
  else v

/-- The record a draft becomes, with its number and the clock (R34, R159, R160). -/
def Draft.record (d : Draft) (n : Nat) (c : Clock) : Record :=
  { sequence := n, time := c.count, kind := d.kind, port := d.port, outcome := d.outcome,
    marks := { d.marks with valueOver := !balanceInRange d.amount, clockInvalid := c.invalid },
    counts := d.counts, amount := recordAmount d.amount, extra := d.extra, detail := d.detail }

/-- JOURNAL_HIGH to port S (R165). -/
def raiseJournalHigh (s : State) : State := raise .s (.journalHigh s.journal.figures) s

/-- JOURNAL_HIGH when the occupied slots have risen to 3,584 with the high mark clear (R165). Its figures are those right after the record
that reached the mark, whatever else its event then stages or reserves, a DESIGN CHOICE (notes/assumptions/91.md). -/
def watchHighWater (s : State) : State :=
  if Config.highWater ≤ s.journal.occupied ∧ s.journal.highMark = false then
    raiseJournalHigh (s.onJournal (fun j => { j with highMark := true }))
  else s

/-- JOURNAL_HIGH when the sequence space has just been exhausted (R160, R165). -/
def watchExhausted (s : State) : State :=
  if s.journal.next = none then raiseJournalHigh s else s

/-- A record enters the staging queue: it takes the next sequence number and the clock, and its writing begins if the queue
was empty (R160, R166). None where the sequence space is exhausted. -/
def stage (d : Draft) (s : State) : Option Nat × State :=
  match s.journal.next with
  | none => (none, s)
  | some n =>
    let s := s.onJournal (fun j =>
      { j with
        staging := j.staging ++ [d.record n s.clock]
        next := if n < Config.lastSequence then some (n + 1) else none
        write := if j.write = .idle then .writing else j.write
        writing := j.writing || j.write == .idle })
    (some n, watchExhausted (watchHighWater s))

/-- An event record is lost: the lost-event count rises, to 65,535 at most, with JOURNAL_HIGH when it rises from 0
(R163). -/
def loseRecord (s : State) : State :=
  let first := s.journal.lost = 0
  let s := s.onJournal (fun j => { j with lost := min Config.lostMax (j.lost + 1) })
  if first then raiseJournalHigh s else s

/-- Room for an event record: the available room less the reservations is at least 1, and a staging entry is free
(R163). -/
def Journal.eventRoom (j : Journal) : Bool := j.reservations.length < j.room && 0 < j.stagingFree

/-- An event record is written, or lost without a number (R163). -/
def eventRecord (d : Draft) (s : State) : Option Nat × State :=
  if s.journal.eventRoom then stage d s else (none, loseRecord s)

/-- A staging entry is promised to the record of the request in hand, which has passed its room check and whose rule stages that record
after other effects: the event records and ends these bring leave it the entry (R162, R163; notes/assumptions/19.md). -/
def promiseEntry (s : State) : State := s.onJournal (fun j => { j with promised := true })

/-- The record that an entry was promised to is staged in it (R162). -/
def stagePromised (d : Draft) (s : State) : Option Nat × State := stage d (s.onJournal (fun j => { j with promised := false }))

/-- The last-applied sequence is set to a record's number, where it has one (R13, R163). -/
def applyTo (n : Option Nat) (s : State) : State :=
  match n with
  | some n => s.onPosition (fun p => { p with lastApplied := n })
  | none => s

/-- A record staged and the last-applied sequence set to it (R13). -/
def stageApplied (d : Draft) (s : State) : Option Nat × State :=
  let (n, s) := stage d s
  (n, applyTo n s)

/-- An event record written and the last-applied sequence set to it, where it was written (R13, R163). -/
def eventApplied (d : Draft) (s : State) : Option Nat × State :=
  let (n, s) := eventRecord d s
  (n, applyTo n s)

/-- One reservation made (R161). -/
def reserve (p : Port) (k : OpKind) (start : Nat) (s : State) : State :=
  s.onJournal (fun j => { j with reservations := j.reservations ++ [{ port := p, kind := k, startSequence := start, jammed := false }] })

/-- The first reservation that meets a test is removed. -/
def removeFirst (test : Reservation → Bool) : List Reservation → List Reservation
  | [] => []
  | r :: rs => if test r then rs else r :: removeFirst test rs

/-- The entry of an operation that has not jammed is removed: its end record is being staged (R161). -/
def release (p : Port) (k : OpKind) (s : State) : State :=
  s.onJournal (fun j =>
    { j with reservations := removeFirst (fun r => r.port == p && r.kind == k && !r.jammed) j.reservations })

/-- The first reservation that meets a test gets the closed-by-jam mark, and keeps what its OP_DONE will carry. -/
def markFirst (test : Reservation → Bool) (marks : Marks) (unpaid : Nat) : List Reservation → List Reservation
  | [] => []
  | r :: rs =>
    if test r then { r with jammed := true, marks := marks, unpaid := unpaid } :: rs
    else r :: markFirst test marks unpaid rs

/-- The entry of an operation that has ended JAMMED is marked: it waits for a PURGE record (R62, R161), with the marks and the unpaid
amount of a dispense (R92; notes/assumptions/67.md). -/
def markJammed (p : Port) (k : OpKind) (marks : Marks) (unpaid : Nat) (s : State) : State :=
  s.onJournal (fun j =>
    { j with
      reservations := markFirst (fun r => r.port == p && r.kind == k && !r.jammed) marks unpaid j.reservations })

/-- OP_DONE is raised to a port when the closing record is durable (R92, R166). A closing record without a number (none can
be, while its reservation holds a number) raises nothing. -/
def awaitDurable (p : Port) (n : Option Nat) (d : OpDone) (s : State) : State :=
  match n with
  | some n => s.onJournal (fun j => { j with waitingDone := j.waitingDone ++ [⟨p, { d with closing := n }⟩] })
  | none => s

/-! ## Audit and integrity (R9, R10) -/

/-- An audit cause is added; the first one raises RESTRICTION to A, B and S (R10). -/
def addCause (c : AuditCause) (s : State) : State :=
  let was := s.auditRequired
  let s := s.onPosition (fun p => { p with causes := p.causes.add c })
  if was then s else raiseRestriction s

/-- A check word has failed: INTEGRITY is added and an empty integrity fault record takes the record and the time (R9). -/
def integrityFailure (which : GuardedRecord) (s : State) : State :=
  let s := s.onPosition (fun p =>
    { p with
      integrityFault :=
        match p.integrityFault with
        | some f => some f
        | none => some ⟨which, s.clock.count⟩ })
  addCause .integrity s

/-- A cassette's check word verified as the record is read (R9): whether it matches, with the effects of a failure. -/
def verifyCassette (k : Ix) (s : State) : Bool × State :=
  if (s.position.cassettes.get k).intact then (true, s) else (false, integrityFailure (.cassette k) s)

/-- An account's check word verified as the record is read (R9). -/
def verifyAccount (a : AccountId) (s : State) : Bool × State :=
  if (s.position.account a).intact then (true, s) else (false, integrityFailure (.account a) s)

/-- All four cassette records read and verified (R36): whether all match. They are read in the order 1 to 4, so that of several that fail
the first enters an empty integrity fault record, a DESIGN CHOICE (R9; notes/assumptions/65.md). -/
def verifyCassettes (s : State) : Bool × State :=
  Ix.all.foldl (fun (r : Bool × State) k => let (ok, s) := verifyCassette k r.2; (r.1 && ok, s)) (true, s)

/-! ## Bookings (R3, R5) -/

/-- CASSETTE_LOW to port S when a RECYCLE or DISPENSE cassette enters LOW or EMPTY from another state (R5). -/
def watchLow (k : Ix) (before : CassetteState) (s : State) : State :=
  let c := s.position.cassettes.get k
  if c.mode ≠ .deposit ∧ c.state ≠ before ∧ (c.state = .low ∨ c.state = .empty) then
    raise .s (.cassetteLow k c.state c.total) s
  else s

/-- A cassette record is written: its state re-derived where R5 says so, its check word rewritten (R4, R9), and
CASSETTE_LOW raised where due. -/
def writeCassette (k : Ix) (c : Cassette) (s : State) : State :=
  let before := (s.position.cassettes.get k).state
  watchLow k before (s.onPosition (fun p => p.setCassette k { c.rederive with intact := true }))

/-- A cassette record is written with a state that its own rule sets (R18 to R25): no re-derivation. -/
def writeCassetteAs (k : Ix) (c : Cassette) (s : State) : State :=
  let before := (s.position.cassettes.get k).state
  watchLow k before (s.onPosition (fun p => p.setCassette k { c with intact := true }))

/-- An account record is written with its check word (R7, R9). -/
def writeAccount (a : AccountId) (balance : Int) (coinDue : Nat) (s : State) : State :=
  s.onPosition (fun p => p.setAccount a ⟨balance, coinDue, true⟩)

/-- The inventory generation rises by one, wrapping (R8). -/
def bumpGeneration (s : State) : State := s.onPosition (fun p => { p with generation := p.generation + 1 })

/-- The places that hold unsigned counts, the cassettes and ESCROW apart. -/
inductive Store where
  | transit
  | pocket (t : Teller)
  | reject
  | retract
  deriving DecidableEq, Repr

/-- The counts of a place. -/
def Position.stored (p : Position) : Store → Quad Nat
  | .transit => p.transit
  | .pocket t => p.pockets.get t
  | .reject => p.reject
  | .retract => p.retract

/-- The position with the counts of a place replaced. -/
def Position.setStored (p : Position) (x : Store) (q : Quad Nat) : Position :=
  match x with
  | .transit => { p with transit := q }
  | .pocket t => { p with pockets := p.pockets.set t q }
  | .reject => { p with reject := q }
  | .retract => { p with retract := q }

/-- Counts with n more of one denomination. -/
def Quad.plus (q : Quad Nat) (d : Ix) (n : Nat) : Quad Nat := q.set d (q.get d + n)

/-- Counts with n fewer of one denomination. -/
def Quad.minus (q : Quad Nat) (d : Ix) (n : Nat) : Quad Nat := q.set d (q.get d - n)

/-- n notes of a denomination move from a place to a place, at most what the first holds: a booking never makes or loses a
note (R3; notes/assumptions/12.md). -/
def Position.move (p : Position) (src dst : Store) (d : Ix) (n : Nat) : Position :=
  let n := min n ((p.stored src).get d)
  let p := p.setStored src (Quad.minus (p.stored src) d n)
  p.setStored dst (Quad.plus (p.stored dst) d n)

/-- n notes of a denomination leave a place into the TAKEN flow, at most what the place holds (R3). -/
def Position.take (p : Position) (src : Store) (d : Ix) (n : Nat) : Position :=
  let n := min n ((p.stored src).get d)
  let p := p.setStored src (Quad.minus (p.stored src) d n)
  { p with flows := { p.flows with taken := Quad.plus p.flows.taken d n } }

/-- All counts of a place go to DISCREPANCY as a shortage (R1). -/
def Position.shortage (p : Position) (src : Store) : Position :=
  let q := p.stored src
  let p := p.setStored src Quad.zero
  { p with discrepancy := Quad.zip (fun a (n : Nat) => a + n) p.discrepancy q }

/-- n notes of a denomination are found in a place: added there and taken from DISCREPANCY, a surplus (R1). -/
def Position.surplus (p : Position) (dst : Store) (d : Ix) (n : Nat) : Position :=
  let p := p.setStored dst (Quad.plus (p.stored dst) d n)
  { p with discrepancy := p.discrepancy.set d (p.discrepancy.get d - n) }

/-- Counts added to DISCREPANCY (R1). -/
def Position.addDiscrepancy (p : Position) (q : Quad Int) : Position :=
  { p with discrepancy := Quad.zip (· + ·) p.discrepancy q }

/-! ## The claim's owner (R53, R97) -/

/-- The claim owner changes: the idle timer stops, and an OPEN escrow record with an empty stack becomes CLOSED unless the
new owner is its owner port (R53, R97). The timer starts again at the end of the step where R53 says so. -/
def setOwner (o : Owner) (s : State) : State :=
  let s := { s with claim := { s.claim with owner := o, idle := none } }
  if s.escrow.isOpen ∧ s.escrow.stack = [] ∧ o ≠ ownerOf s.escrow.owner.port then
    s.onEscrow (fun e => { e with isOpen := false })
  else s

end Sys2Proof.Machine
end

