-- ==== Sys2Proof/Machine/Ending.lean ====
section
/-!
DEFINITION. How a module operation ends: the bookings to accounts, the end record in the reserved slot, the end hold, and
the end of an operation that jams (R35, R62, R65, R91, R105, R109, R114, R163).
-/
namespace Sys2Proof.Machine

/-! ## Bookings to accounts at an end (R35, R90) -/

/-- An amount added to an account's balance at an end: nothing for 0.00; not applied, and answered as unbooked, where the
result leaves its range or the check word fails. -/
def bookBalance (a : AccountId) (amount : Int) (s : State) : Nat × State :=
  if amount = 0 then (0, s)
  else
    let (ok, s) := verifyAccount a s
    let r := s.position.account a
    if ok ∧ balanceInRange (r.balance + amount) then (0, writeAccount a (r.balance + amount) r.coinDue s)
    else (amount.natAbs, s)

/-- A remainder added to an account's coin due at an end, in the same way. -/
def bookCoinDue (a : AccountId) (amount : Nat) (s : State) : Nat × State :=
  if amount = 0 then (0, s)
  else
    let (ok, s) := verifyAccount a s
    let r := s.position.account a
    if ok ∧ r.coinDue + amount ≤ Config.coinDueMax then (0, writeAccount a r.balance (r.coinDue + amount) s)
    else (amount, s)

/-! ## Codes of records (11.4) -/

/-- The cause byte of a short dispense. -/
def shortCode : Option ShortCause → Nat
  | none => 0
  | some .earlyEmpty => 1
  | some .rejectLimit => 2

/-- The code of a feed cause: its place in the list of R102, a DESIGN CHOICE (R105; notes/assumptions/74.md). -/
def FeedCause.code : FeedCause → Nat
  | .intakeEmpty => 1
  | .bundleLimit => 2
  | .escrowLimit => 3
  | .feedFailure => 4
  | .lock => 5

/-- The code of a commit's cause: its place in the list of R113, a DESIGN CHOICE (R114; notes/assumptions/74.md). -/
def CommitCause.code : CommitCause → Nat
  | .noDestination => 1
  | .lock => 2
  | .audit => 3

/-- The outcome code of JAMMED for an operation kind (R203). -/
def OpKind.jammedCode : OpKind → Nat
  | .dispense => 14
  | .insert => 3
  | .return_ => 3
  | .commit => 3

/-- The outcome a failed grant check gives, as R203 numbers the outcomes of R90 (R78). -/
def Reason.outcomeCode : Reason → Nat
  | .halted => 7
  | .audit => 8
  | .notPayable => 9
  | .inexact => 10
  | .range => 11
  | .binFull => 12
  | .busy => 13
  | _ => 14

/-- A deposit detail at zero. -/
def DepositDetail.zero : DepositDetail :=
  { fit := Quad.zero, unfit := Quad.zero, suspect := 0, returned := 0, bundles := 0, first := 0, purpose := none,
    account := none, cause := 0, unbooked := 0, ownerPort := none }

/-- An OP_DONE with nothing but its kind. -/
def OpDone.zero (k : OpKind) : OpDone :=
  { kind := k, startSequence := 0, closing := 0, outcome := 0, reason := none, marks := {}, counts := Quad.zero,
    presented := Quad.zero, retracted := Quad.zero, value := 0, remainder := 0, unpaid := 0, unbooked := 0, cause := 0,
    carried := .none, remaining := [] }

/-! ## Dispense (R91, R92) -/

/-- Counts leave a pocket into the TAKEN flow (R85, R87). -/
def Position.takeAll (p : Position) (t : Teller) (taken : Quad Nat) : Position :=
  Ix.all.foldl (fun p d => p.take (.pocket t) d (taken.get d)) p

/-- The generation step of a dispense that changed a cassette count (R8, R91). -/
def stepGeneration (changed : Bool) (s : State) : State := if changed then bumpGeneration s else s

/-- The code of RETRACTED among the outcomes of R90. -/
def retractedCode : Nat := 4

/-- The retracted counts of a dispense that ends RETRACTED: the presented less the taken counts; none at another end (R87). -/
def Dispense.retractedCounts (d : Dispense) (outcome : Nat) (taken : Quad Nat) : Quad Nat :=
  if outcome = retractedCode then Quad.zip (fun (p n : Nat) => p - n) d.presented taken else Quad.zero

/-- The marks a dispense's progress has set: CAPPED and SHORT (R69). -/
def Dispense.marks (d : Dispense) : Marks := { capped := d.capped, short := d.short.isSome }

/-- A dispense ends: the bookings, the DISPENSE_END record in the reserved slot, the last-applied sequence, the generation
and the record in IDLE, together (R85, R87, R90, R91). Its record has no place for the presented and retracted counts, which OP_DONE
carries (11.4; notes/assumptions/68.md). M and the preference order of its detail hold zero, since R91 does not list them (R159). -/
def finishDispense (t : Teller) (outcome : Nat) (taken : Quad Nat) (remainderDue : Bool) (reason : Option Reason)
    (carried : Results) (s : State) : State :=
  let d := s.dispense t
  let value := s.value taken
  let owed := remainderAccount t d.target
  let due := if remainderDue then d.remainder else 0
  let s := s.onPosition (fun p => p.takeAll t taken)
  let (missed, s) := bookBalance (drawerOf t) value s
  let (missedCoin, s) := bookCoinDue owed due s
  let booked := due - missedCoin
  let marks : Marks := { d.marks with unbooked := 0 < missed + missedCoin }
  let detail : DispenseDetail :=
    { amount := d.amount, payable := d.payable, remainder := d.remainder, unpaid := d.unpaid,
      unbooked := missed + missedCoin, cap := 0, preference := [],
      account := if booked = 0 then none else some owed, cause := shortCode d.short }
  let (n, s) :=
    stageApplied
      { kind := .dispenseEnd, port := some t.port, outcome := outcome, marks := marks, counts := taken.toInt,
        amount := value, extra := d.startSequence, detail := .dispense detail }
      (release t.port .dispense s)
  let s := stepGeneration d.changed s
  let s := s.onDispense t (fun _ => Dispense.idle)
  awaitDurable t.port n
    { OpDone.zero .dispense with
      startSequence := d.startSequence, outcome := outcome, reason := reason, marks := marks, counts := taken,
      presented := d.presented, retracted := d.retractedCounts outcome taken, value := value, remainder := booked,
      unpaid := d.unpaid, unbooked := missed + missedCoin, cause := shortCode d.short,
      carried := carried }
    s

/-! ## Escrow operations (R105, R109, R114) -/

/-- The feeding bundle's TRUNCATED flag for a feed cause (R102). -/
def FeedCause.truncates (c : FeedCause) (intakeEmpty : Bool) : Bool :=
  match c with
  | .intakeEmpty => false
  | .bundleLimit => !intakeEmpty
  | .escrowLimit => !intakeEmpty
  | .feedFailure => true
  | .lock => true

/-- An INSERT ends: the feeding bundle is pushed or dropped, and its record written (R105). -/
def finishInsert (o : InsertOp) (why : FeedCause) (s : State) : State :=
  match s.escrow.stack with
  | [] => s.onEscrow (fun e => { e with op := none })
  | feeding :: beneath =>
    let b := { feeding with truncated := why.truncates o.intakeEmpty }
    let pushed : Bool := 0 < b.notes.total
    let marks : Marks := { truncated := b.truncated, suspectReturned := b.suspectReturned }
    let detail : DepositDetail :=
      { DepositDetail.zero with
        fit := b.fit, unfit := b.unfit, suspect := b.suspect, returned := b.returned,
        bundles := if pushed then beneath.length + 1 else 0, cause := why.code }
    let outcome := if pushed then 1 else 2
    let value := s.value b.notes
    let (n, s) :=
      stageApplied
        { kind := .insert, port := some o.port.port, outcome := outcome, marks := marks, counts := b.notes.toInt,
          amount := value, detail := .deposit detail }
        (release o.port.port .insert s)
    let s := s.onEscrow (fun e =>
      { e with
        stack := if pushed then b :: beneath else beneath
        verdict := if pushed then .none else e.verdict
        op := none })
    awaitDurable o.port.port n
      { OpDone.zero .insert with
        outcome := outcome, marks := marks, counts := b.notes, value := value, cause := why.code,
        remaining := s.escrow.stack }
      s

/-- No bundle has left the stack. -/
def BundleFields.zero : BundleFields := ⟨0, 0, false, false⟩

/-- A bundle has left the stack: its counts are added and its flags kept. Several bundles in one record are a DESIGN CHOICE (R107;
notes/assumptions/82.md). -/
def BundleFields.plus (x : BundleFields) (b : Bundle) : BundleFields :=
  ⟨x.suspect + b.suspect, x.returned + b.returned, x.truncated || b.truncated, x.suspectReturned || b.suspectReturned⟩

/-- A return ends without a jam: its record is written, with the suspect, returned and flag fields of the bundles that left the stack
(R107, R109). -/
def finishReturn (o : ReturnOp) (outcome : ReturnOutcome) (s : State) : State :=
  let code := match outcome with | .complete => 1 | .halted => 2
  let value := s.value o.given
  let marks : Marks := { truncated := o.fields.truncated, suspectReturned := o.fields.suspectReturned }
  let detail : DepositDetail :=
    { DepositDetail.zero with
      suspect := o.fields.suspect, returned := o.fields.returned, bundles := o.bundlesOut, first := o.first
      ownerPort := if o.underHold then some o.window.port else none }
  let (n, s) :=
    stageApplied
      { kind := .return_, port := some o.port, outcome := code, marks := marks, counts := o.given.toInt, amount := value,
        detail := .deposit detail }
      (release o.port .return_ s)
  let s := s.onEscrow (fun e => { e with op := none })
  awaitDurable o.port n
    { OpDone.zero .return_ with
      outcome := code, marks := marks, counts := o.given, value := value, remaining := s.escrow.stack }
    s

/-- The notes of a commit tally, per denomination. -/
def CommitTally.notes (c : CommitTally) : Quad Nat := Quad.add c.fit c.unfit

/-- The account a commit's value is debited from, for purpose DRAWER (R114). -/
def CommitTally.account (c : CommitTally) : Option AccountId :=
  match c.purpose with
  | .customer => none
  | .drawer => some (drawerOf c.owner)

/-- The drawer debit of a commit (R114), and the amount unbooked; the tally is then at zero (R116). -/
def debitCommit (s : State) : Nat × State :=
  let tally := s.escrow.tally
  let s := s.onEscrow (fun e => { e with tally := CommitTally.zero })
  match tally.account with
  | none => (0, s)
  | some a => bookBalance a (-(s.value tally.notes : Int)) s

/-- A commit ends without a jam: the debit, the COMMIT record, the generation (R113, R114). -/
def finishCommit (o : CommitOp) (outcome : CommitOutcome) (s : State) : State :=
  let tally := s.escrow.tally
  let value := s.value tally.notes
  let code := match outcome with | .committed => 1 | .partial_ _ => 2
  let cause := match outcome with | .committed => 0 | .partial_ c => c.code
  let (unbooked, s) := debitCommit s
  let marks : Marks := { unbooked := 0 < unbooked }
  let detail : DepositDetail :=
    { DepositDetail.zero with
      fit := tally.fit, unfit := tally.unfit, purpose := some tally.purpose,
      account := if value = 0 ∨ 0 < unbooked then none else tally.account, cause := cause, unbooked := unbooked }
  let (n, s) :=
    stageApplied
      { kind := .commit, port := some o.port, outcome := code, marks := marks, counts := tally.perCassette.toInt,
        amount := value, detail := .deposit detail }
      (release o.port .commit s)
  let s := stepGeneration (0 < tally.perCassette.total) s
  let s := s.onEscrow (fun e =>
    { e with
      verdict := .none
      declared := match outcome with | .committed => none | .partial_ _ => e.declared
      op := none })
  awaitDurable o.port n
    { OpDone.zero .commit with
      outcome := code, marks := marks, counts := tally.perCassette, value := value, unbooked := unbooked, cause := cause,
      remaining := s.escrow.stack }
    s

/-! ## Purge (R65) -/

/-- Whether a PURGE record closes a reservation: every entry at start-up, otherwise those that ended JAMMED (R65, R174). -/
def Purge.closes (p : Purge) (r : Reservation) : Bool := p.startUp || r.jammed

/-- The least of a list of numbers, 0 for none. -/
def leastOf : List Nat → Nat
  | [] => 0
  | [n] => n
  | n :: m :: ns => min n (leastOf (m :: ns))

/-- The lowest start sequence among the dispenses closed, or 0 (R65). -/
def lowestStart (closed : List Reservation) : Nat :=
  leastOf ((closed.filter (fun r => r.kind == .dispense)).map (fun r => r.startSequence))

/-- What OP_DONE carries for an operation that had ended JAMMED: a dispense its marks and unpaid amount (R92), a COMMIT what its debit
gave (R35, R114; notes/assumptions/69.md), every escrow operation the stack as it then stands (notes/assumptions/88.md). -/
def Reservation.done (r : Reservation) (debit : OpDone) : OpDone :=
  match r.kind with
  | .commit => { debit with startSequence := r.startSequence, outcome := r.kind.jammedCode }
  | k =>
    { OpDone.zero k with
      startSequence := r.startSequence, outcome := k.jammedCode, marks := r.marks, unpaid := r.unpaid
      remaining := debit.remaining }

/-- OP_DONE with outcome JAMMED for each closed operation that had ended JAMMED (R65, R199). -/
def awaitClosed (n : Option Nat) (debit : OpDone) (closed : List Reservation) (s : State) : State :=
  closed.foldl (fun s r => if r.jammed then awaitDurable r.port n (r.done debit) s else s) s

/-- What the debit of a closed COMMIT gives its OP_DONE: the notes delivered to each cassette, their value, what was not booked, and
what the stack still holds (R35, R114). -/
def CommitTally.done (c : CommitTally) (value unbooked : Nat) (stack : List Bundle) : OpDone :=
  { OpDone.zero .commit with
    marks := { unbooked := 0 < unbooked }, counts := c.perCassette, value := value, unbooked := unbooked,
    remaining := stack }

/-- The purge's port: S, or none at start-up (R65). -/
def Purge.port (p : Purge) : Option Port := if p.startUp then none else some .s

/-- A purge ends: the debits of the commits it closes, the PURGE record, and the module state it leaves (R65). A PURGE record has no
field for an amount not booked, and carries the mark alone (R65, R159; notes/assumptions/70.md). -/
def finishPurge (p : Purge) (outcome : PurgeOutcome) (s : State) : State :=
  let closed := s.journal.reservations.filter p.closes
  let tally := s.escrow.tally
  let value := s.value tally.notes
  let (unbooked, s) := if closed.any (fun r => r.kind == .commit) then debitCommit s else (0, s)
  let s := s.onJournal (fun j => { j with reservations := j.reservations.filter (fun r => !p.closes r) })
  let draft : Draft :=
    { kind := .purge, port := p.port, outcome := outcome.code, marks := { unbooked := 0 < unbooked },
      counts := p.booked.toInt, amount := s.value p.booked, extra := lowestStart closed }
  let (n, s) := if closed = [] then eventApplied draft s else stageApplied draft s
  let s := awaitClosed n (tally.done value unbooked s.escrow.stack) closed s
  let ready : Bool := outcome == .complete || outcome == .short
  let s := s.onPath (fun q => { q with state := if ready then .ready else .jammed, purge := none })
  if ready then raise .s (.moduleFault (.ready outcome)) s else s

/-! ## The end hold (R163) -/

/-- The end that waits in the end hold is made, its operation being as it stands. -/
def finishEnd (e : HeldEnd) (s : State) : State :=
  match e with
  | .dispense t outcome taken remainderDue reason carried =>
    finishDispense t outcome taken remainderDue reason carried s
  | .insert why =>
    match s.escrow.op with
    | some (.insert o) => finishInsert o why s
    | _ => s
  | .give outcome =>
    match s.escrow.op with
    | some (.give o) => finishReturn o outcome s
    | _ => s
  | .commit outcome =>
    match s.escrow.op with
    | some (.commit o) => finishCommit o outcome s
    | _ => s
  | .purge outcome =>
    match s.path.purge with
    | some p => finishPurge p outcome s
    | none => s

/-- An end is made at once where the staging queue has a free entry and nothing waits before it; otherwise it waits in the
end hold (R163). -/
def holdOrFinish (e : HeldEnd) (s : State) : State :=
  if s.journal.endHold = [] ∧ 0 < s.journal.stagingFree then finishEnd e s
  else s.onJournal (fun j => { j with endHold := j.endHold ++ [e] })

/-- The ends in the end hold that the freed staging entries take, oldest first (R163). The first argument bounds them. -/
def drainEndHold : Nat → State → State
  | 0, s => s
  | n + 1, s =>
    match s.journal.endHold with
    | [] => s
    | e :: rest =>
      if 0 < s.journal.stagingFree then
        drainEndHold n (finishEnd e (s.onJournal (fun j => { j with endHold := rest })))
      else s

/-- The timers of an owner's notes are stopped, but for those of checked notes: a note that its check has sent to the pocket or the REJECT
BIN is timed until it is there, whatever has become of its dispense (R59, R62). -/
def stopTimers (o : MoveOwner) (s : State) : State :=
  s.onPath (fun q => { q with timers := q.timers.filter (fun n => n.owner != o || n.checked) })

/-- The first timer that meets a test has last been seen at another sensor. -/
def moveTimer (test : NoteTimer → Bool) (at_ : Sensor) : List NoteTimer → List NoteTimer
  | [] => []
  | n :: ns => if test n then { n with lastSeen := at_ } :: ns else n :: moveTimer test at_ ns

/-- The first timer that meets a test is stopped. -/
def stopTimer (test : NoteTimer → Bool) : List NoteTimer → List NoteTimer
  | [] => []
  | n :: ns => if test n then ns else n :: stopTimer test ns

/-- A dispense comes to its end (R78, R85, R87, R88): it is marked, and its end made or held. -/
def endDispense (t : Teller) (outcome : Nat) (taken : Quad Nat) (remainderDue : Bool) (reason : Option Reason)
    (carried : Results) (s : State) : State :=
  holdOrFinish (.dispense t outcome taken remainderDue reason carried)
    (stopTimers (.dispense t) (s.onDispense t (fun d => { d with ending := true, deferred := false })))

/-- An INSERT's feed ends (R102, R105). -/
def endInsert (o : InsertOp) (why : FeedCause) (s : State) : State :=
  holdOrFinish (.insert why)
    (stopTimers .escrow
      (s.onEscrow (fun e => { e with op := some (.insert { o with note := .none, ended := some why }) })))

/-- A return ends (R109). -/
def endReturn (o : ReturnOp) (outcome : ReturnOutcome) (s : State) : State :=
  holdOrFinish (.give outcome)
    (stopTimers .escrow
      (s.onEscrow (fun e => { e with op := some (.give { o with moving := false, ended := some outcome }) })))

/-- A commit ends (R113, R114). -/
def endCommit (o : CommitOp) (outcome : CommitOutcome) (s : State) : State :=
  holdOrFinish (.commit outcome)
    (stopTimers .escrow
      (s.onEscrow (fun e => { e with op := some (.commit { o with moving := false, ended := some outcome }) })))

/-- A purge ends (R65): a PURGE record that closes no operation is an event record, made at once; one that closes operations
is made or held as an end record (R163). -/
def endPurge (outcome : PurgeOutcome) (s : State) : State :=
  let s := stopTimers .purge (s.onPath (fun q => { q with draw := none }))
  match s.path.purge with
  | none => s
  | some p =>
    let s := s.onPath (fun q => { q with purge := some { p with rest := [], ended := some outcome } })
    if s.journal.reservations.any p.closes then holdOrFinish (.purge outcome) s
    else finishEnd (.purge outcome) s

/-! ## Jams (R62, R66, R104, R106) -/

/-- A dispense ends JAMMED in the module: no record, its reservation marked, its generation step taken (R62, R91). -/
def jamDispense (t : Teller) (s : State) : State :=
  let d := s.dispense t
  let s := stepGeneration d.changed (markJammed t.port .dispense d.marks d.unpaid s)
  stopTimers (.dispense t) (s.onDispense t (fun _ => Dispense.idle))

/-- The escrow operation ends JAMMED: a feeding bundle with notes stays with TRUNCATED set, one without leaves the stack;
the verdict becomes NONE where a bundle was pushed, popped or reduced; a commit's tally waits for its debit, and its
generation step is taken (R8, R104, R106, R113). -/
def jamEscrow (s : State) : State :=
  let s := stopTimers .escrow s
  match s.escrow.op with
  | none => s
  | some (.insert o) =>
    let s := markJammed o.port.port .insert {} 0 s
    s.onEscrow (fun e =>
      match e.stack with
      | [] => { e with op := none }
      | b :: beneath =>
        if 0 < b.notes.total then
          { e with stack := { b with truncated := true } :: beneath, verdict := .none, op := none }
        else { e with stack := beneath, op := none })
  | some (.give o) =>
    let s := markJammed o.port .return_ {} 0 s
    s.onEscrow (fun e => { e with op := none, verdict := .none })
  | some (.commit o) =>
    let s := markJammed o.port .commit {} 0 s
    let s := stepGeneration (0 < s.escrow.tally.perCassette.total) s
    s.onEscrow (fun e => { e with op := none, verdict := if o.reduced then .none else e.verdict })

/-- The port of an operation that moves notes, as MODULE_FAULT names it (R62). -/
def State.movePort (s : State) : MoveOwner → Option Port
  | .dispense t => some t.port
  | .escrow =>
    match s.escrow.op with
    | some o => some o.port
    | none => none
  | .purge =>
    match s.path.purge with
    | some p => p.port
    | none => none

/-- The transport and every actuator of the module stop: no note moves, and none is timed (R62; notes/assumptions/61.md). -/
def stopTransport (s : State) : State := s.onPath (fun q => { q with pick := none, draw := none, timers := [] })

/-- A jam, or a full RETRACT BIN handled as one: the transport stops, the operation in flight ends JAMMED, the module becomes
JAMMED and port S is told (R62, R66). A purge ends with the outcome given, its record first. -/
def jam (o : MoveOwner) (fault : ModuleFault) (outcome : PurgeOutcome) (s : State) : State :=
  let s := stopTransport (raise .s (.moduleFault fault) s)
  match o with
  | .dispense t => (jamDispense t s).onPath (fun q => { q with state := .jammed })
  | .escrow => (jamEscrow s).onPath (fun q => { q with state := .jammed })
  | .purge => endPurge outcome s

end Sys2Proof.Machine
end

