-- ==== Sys2Proof/Machine/Mix.lean ====
section
/-!
DEFINITION. The note mix (R36 to R44): availability, the preference order, the search for the mix, and its judgement.
-/
namespace Sys2Proof.Machine

/-! ## The definition of the mix (R39 to R41) -/

/-- The note cap as applied: 0 as 1, above 100 as 100 (R39). -/
def appliedCap (operand : Nat) : Nat := max 1 (min Config.pocketNotes operand)

/-- A cassette appended to an order, unless it already appears. -/
def appendNew (order : List Ix) (k : Ix) : List Ix := if k ∈ order then order else order ++ [k]

/-- The preference order: the cassettes named, each at its first appearance, then those not named (R40). -/
def preferenceOrder (named : List (Option Ix)) : List Ix :=
  Ix.all.foldl appendNew (named.foldl (fun o k => match k with | some k => appendNew o k | none => o) [])

/-- The better of f n, …, f 0: the least remainder, and of equal remainders the greatest count. -/
def descend (f : Nat → Quad Nat × Nat) : Nat → Quad Nat × Nat
  | 0 => f 0
  | n + 1 => if (descend f n).2 < (f (n + 1)).2 then descend f n else f (n + 1)

/-- The greatest count of one cassette that a candidate can hold. -/
def greatestCount (value avail cap target : Nat) : Nat :=
  min avail (min cap (if value = 0 then avail else target / value))

/-- The mix over the cassettes of a list, in preference order, with its remainder: the candidate of least remainder, and
among those the one greatest in preference order (R41). -/
def bestMix (values avail : Quad Nat) : List Ix → Nat → Nat → Quad Nat × Nat
  | [], _, target => (Quad.zero, target)
  | k :: ks, cap, target =>
    descend
      (fun t =>
        let rest := bestMix values avail ks (cap - t) (target - t * values.get k)
        (rest.1.set k t, rest.2))
      (greatestCount (values.get k) (avail.get k) cap target)

/-- A vector is a candidate: no count above its availability, at most M notes, worth at most T (R41). -/
def Candidate (values avail : Quad Nat) (cap target : Nat) (t : Quad Nat) : Prop :=
  (∀ k, t.get k ≤ avail.get k) ∧ t.total ≤ cap ∧ valueOf values t ≤ target

/-- One vector is greater than another in a preference order: more notes from the first cassette at which they differ
(R41). -/
def greaterIn (t u : Quad Nat) : List Ix → Prop
  | [] => False
  | k :: ks => u.get k < t.get k ∨ (u.get k = t.get k ∧ greaterIn t u ks)

/-! ## Inputs read from the position (R37, R38, R43) -/

/-- The values of the cassettes' notes: the denomination the index names (R38). -/
def State.cassetteValues (s : State) : Quad Nat :=
  s.position.cassettes.map (fun c => c.value s.settings.denominations)

/-- The availability of each cassette, with the notes it has already delivered (R38, R43). -/
def State.availability (s : State) (delivered : Quad Nat) : Quad Nat :=
  Quad.zip
    (fun (c : Cassette) (n : Nat) =>
      if c.usable s.settings.denominations then min c.ownCount (Config.pickLimit - n) else 0)
    s.position.cassettes delivered

/-- The target of a mix for an amount (R37). -/
def State.mixTarget (s : State) (amount : Nat) : Nat :=
  if s.restricted .dispenseCap then min amount s.settings.holdupCap else amount

/-- The mix over the cassettes as they stand, with what R41 lists. -/
def State.mix (s : State) (order : List Ix) (delivered : Quad Nat) (cap target unpaid : Nat) : MixResult :=
  let best := bestMix s.cassetteValues (s.availability delivered) order cap target
  let value := valueOf s.cassetteValues best.1
  { mix := best.1, notes := best.1.total, value := value, remainder := target - value, payable := target,
    unpaid := unpaid }

/-! ## The judgement (R42) -/

/-- The result of a mix: PAYABLE, or the reason with what it hands over. -/
inductive MixOutcome where
  | payable (m : MixResult)
  | failed (why : Reason) (carried : Results)
  deriving DecidableEq, Repr

/-- The lines of R42 after HALTED and the cassettes' check words: NOT_PAYABLE, INEXACT, RANGE with the accounts' own check
words verified, PAYABLE. DESIGN CHOICES are the order of its two reads, the remainder account before the drawer, with both words verified
before either range is judged (notes/assumptions/65.md), and the coin due as the part named where both bookings fail
(notes/assumptions/71.md). -/
def judgeMix (t : Teller) (target : RemainderTarget) (limit : Nat) (m : MixResult) (s : State) : MixOutcome × State :=
  if m.notes = 0 then (.failed .notPayable (.notPayable m.payable), s)
  else if limit < m.remainder then (.failed .inexact (.inexact m.mix m.notes m.value m.remainder m.payable), s)
  else
    let owed := remainderAccount t target
    let (owedOk, s) := verifyAccount owed s
    let (drawerOk, s) := verifyAccount (drawerOf t) s
    if !(owedOk && drawerOk) then (.failed .audit .none, s)
    else if Config.coinDueMax < (s.position.account owed).coinDue + m.remainder then
      (.failed .range (.mixRange m.mix m.value m.remainder (.coinDue owed)), s)
    else if !balanceInRange ((s.position.account (drawerOf t)).balance + m.value) then
      (.failed .range (.mixRange m.mix m.value m.remainder (.balance (drawerOf t))), s)
    else (.payable m, s)

/-- A mix for a DISPENSE being checked or for a grant (R36, R37, R42). -/
def requestMix (t : Teller) (amount cap : Nat) (order : List Ix) (target : RemainderTarget) (s : State) :
    MixOutcome × State :=
  if s.restricted .dispenseCap ∧ s.settings.holdupCap = 0 then (.failed .halted .none, s)
  else
    let (ok, s) := verifyCassettes s
    if !ok then (.failed .audit .none, s)
    else
      judgeMix t target s.settings.remainderLimit
        (s.mix order Quad.zero cap (s.mixTarget amount) (amount - s.mixTarget amount)) s

/-- A re-mix during picking, over the unpaid part, with the remainder limit of the original mix (R43). -/
def reMix (t : Teller) (s : State) : MixOutcome × State :=
  let d := s.dispense t
  let (ok, s) := verifyCassettes s
  if !ok then (.failed .audit .none, s)
  else
    let paid := valueOf s.cassetteValues d.delivered
    judgeMix t d.target d.limit
      (s.mix d.preference d.delivered (d.cap - d.delivered.total) (d.payable - paid) d.unpaid) s

end Sys2Proof.Machine
end

