-- ==== Sys2Proof/Machine/Picking.lean ====
section
/-!
DEFINITION. How the module works for a dispense and a purge: picks, draws to the RETRACT BIN, presenting, the grant checks
(R58 to R66, R77 to R87).
-/
namespace Sys2Proof.Machine

/-! ## Draws (R64, R66) -/

/-- The sensor at which a source's notes are last seen. -/
def DrawSource.sensor : DrawSource → Sensor
  | .transit => .transit
  | .pocket t => .pocket t
  | .drum => .drumExit

/-- The operation a draw belongs to. -/
def DrawCause.owner : DrawCause → MoveOwner
  | .purge => .purge
  | .retract t => .dispense t
  | .stop t _ => .dispense t

/-- The timer of a draw's note leaving its source (R62). -/
def Draw.timer (d : Draw) : NoteTimer := ⟨d.cause.owner, d.source.sensor, false⟩

/-- A note of the draw between two sensors on the way. One that its operation's picks have sent to the pocket or the REJECT BIN is checked
and is none. -/
def Draw.onWay (d : Draw) (n : NoteTimer) : Bool :=
  n.owner == d.cause.owner && !n.checked &&
    (match n.lastSeen with
      | .way _ => true
      | _ => false)

/-- The timers once a drawn note has reached the validator: its own stops, the first of those on the way, and where none is on the way
the one from the source, from which the next note is then timed (R62; notes/assumptions/61.md). -/
def Draw.nextTimers (d : Draw) (timers : List NoteTimer) : List NoteTimer :=
  if timers.any d.onWay then stopTimer d.onWay timers else stopTimer (fun n => n == d.timer) timers ++ [d.timer]

/-- The place a source is; the drum of a cold start is none (R116). -/
def DrawSource.place : DrawSource → Option Store
  | .transit => some .transit
  | .pocket t => some (.pocket t)
  | .drum => none

/-- The counts a source holds. -/
def Position.sourceCounts (p : Position) (x : DrawSource) : Quad Nat :=
  match x.place with
  | some place => p.stored place
  | none => Quad.zero

/-- The RETRACT BIN holds 200 notes (R66). -/
def Position.retractFull (p : Position) : Bool := Config.retractNotes ≤ p.retract.total

/-- A full RETRACT BIN stops a draw: it is handled as a jam with cause RETRACT_BIN_FULL (R66). No note is missing at a sensor; that
MODULE_FAULT names the sensor of the draw's source is a DESIGN CHOICE (notes/assumptions/93.md). -/
def stopDraw (d : Draw) (s : State) : State :=
  jam d.cause.owner (.retractBinFull (s.movePort d.cause.owner) d.source.sensor) .binFull s

/-- A draw starts, with its uncounted notes; one that meets a full bin with notes to draw is stopped
(notes/assumptions/13.md). -/
def startDraw (source : DrawSource) (cause : DrawCause) (uncounted : Quad Nat) (s : State) : State :=
  let d : Draw := ⟨source, cause, uncounted, Quad.zero⟩
  if s.position.retractFull ∧ 0 < uncounted.total then stopDraw d s
  else s.onPath (fun q => { q with draw := some d, timers := q.timers ++ [d.timer] })

/-- The denomination a validator report is booked under: the one read, or for UNREADABLE the one of smallest value with
uncounted notes, else the defined one of smallest value (R64). Where none is defined it is a free value. That a note reported under a
denomination that is not defined is booked under it all the same is a DESIGN CHOICE (R101, R195; notes/assumptions/102.md). -/
def State.attribution (s : State) (d : Draw) (report : Option Ix) : Ix :=
  match report with
  | some x => x
  | none =>
    match smallestHeld s.settings.denominations d.uncounted with
    | some x => x
    | none =>
      match smallestDefined s.settings.denominations with
      | some x => x
      | none => Config.undefinedAttribution s.freeCount

/-- A drawn note booked into the RETRACT BIN: from its source while uncounted notes of its denomination remain, otherwise as
surplus (R64); its timing ends, and the next note's begins (R62). -/
def bookDrawn (d : Draw) (x : Ix) (s : State) : State :=
  let counted : Bool := 0 < d.uncounted.get x
  let s := s.onPosition (fun p =>
    match d.source.place with
    | some place => if counted then p.move place .retract x 1 else p.surplus .retract x 1
    | none => p.surplus .retract x 1)
  let d :=
    if counted then
      { d with uncounted := Quad.minus d.uncounted x 1, retracted := Quad.plus d.retracted x 1 }
    else d
  s.onPath (fun q =>
    { q with
      draw := some d
      timers := d.nextTimers q.timers
      purge :=
        match d.cause, q.purge with
        | .purge, some p => some { p with booked := Quad.plus p.booked x 1 }
        | _, other => other })

/-! ## The purge's sources (R65) -/

/-- A window's present is live: its dispense is PRESENTING or RETRACTING (R65). -/
def State.livePresent (s : State) (t : Teller) : Bool :=
  (s.dispense t).state == .presenting || (s.dispense t).state == .retracting

/-- A purge draws TRANSIT, and a pocket only if it holds notes and has no live present (R65). -/
def State.drawable (s : State) : DrawSource → Bool
  | .transit => true
  | .pocket t => 0 < (s.position.pockets.get t).total && !s.livePresent t
  | .drum => true

/-- The purge goes on to its next source, or ends (R65). -/
def purgeNext (s : State) : State :=
  match s.path.purge with
  | none => s
  | some p =>
    match p.rest.dropWhile (fun x => !s.drawable x) with
    | [] => endPurge (if p.short then .short else .complete) s
    | x :: rest =>
      startDraw x .purge (s.position.sourceCounts x)
        (s.onPath (fun q => { q with purge := some { p with rest := rest } }))

/-- A purge starts: the module is PURGING and TRANSIT is drawn first (R57, R65). -/
def startPurge (startUp : Bool) (sources : List DrawSource) (s : State) : State :=
  purgeNext
    (s.onPath (fun q =>
      { q with
        state := .purging
        pick := none
        draw := none
        purge := some { startUp := startUp, rest := sources, booked := Quad.zero, short := false, ended := none } }))

/-- Uncounted notes left in a source become a shortage, and the source zero (R65, R83). -/
def leaveShort (d : Draw) (s : State) : State :=
  match d.source.place with
  | some place => s.onPosition (fun p => p.shortage place)
  | none => s

/-! ## Presenting and stopping short (R81, R84) -/

/-- The notes of each cassette, counted by denomination. -/
def State.byDenomination (s : State) (delivered : Quad Nat) : Quad Nat :=
  Ix.all.foldl
    (fun q k =>
      match (s.position.cassettes.get k).index with
      | some d => Quad.plus q d (delivered.get k)
      | none => q)
    Quad.zero

/-- A dispense enters PRESENTING: the presented counts, the shutter, the present timer, the PRESENT notice (R84); a short
one's unpaid amount is A less the value presented (R81). -/
def present (t : Teller) (s : State) : State :=
  let d := s.dispense t
  let presented := s.byDenomination d.delivered
  let value := s.value presented
  let timeout := s.settings.presentTimeout
  raise t.port (.present d.startSequence presented value d.short.isSome timeout)
    (s.onDispense t (fun d =>
      { d with
        state := .presenting
        presented := presented
        unpaid := if d.short.isSome then d.amount - value else d.unpaid
        shutterOpen := true
        presentTimer := some timeout }))

/-- Picking stops short: the pocket is presented, or with nothing in it the dispense ends SHORT_PAID (R81). -/
def stopShort (t : Teller) (why : ShortCause) (s : State) : State :=
  let s := s.onDispense t (fun d => { d with short := some why, unpaid := d.amount })
  if 0 < (s.dispense t).delivered.total then present t s
  else endDispense t 3 Quad.zero false none .none s

/-- The outcome of a dispense whose picking was stopped (R83). -/
def StopReason.outcome : StopReason → Nat
  | .locked => 7
  | .cancelled => 6
  | .audit => 8

/-- Picking has stopped: the draw back of TRANSIT begins (R83). -/
def beginStop (t : Teller) (why : StopReason) (s : State) : State :=
  startDraw .transit (.stop t why) s.position.transit
    (s.onDispense t (fun d => { d with stop := some why }))

/-! ## Commanding picks (R58, R61, R79, R80) -/

/-- The first cassette in the preference order whose delivered count is below its mix count (R79). -/
def Dispense.nextCassette (d : Dispense) : Option Ix :=
  d.preference.find? (fun k => d.delivered.get k < d.mix.get k)

/-- What commanding a pick from a cassette meets. -/
inductive PickCommand where
  | started (d : Ix)
  | locked
  | earlyEmpty
  deriving DecidableEq, Repr

/-- A pick commanded from a cassette: LOCKED under MODULE_LOCK (R58), LOST for an ABSENT or RELEASED one (R61), no pick from
one with count 0 (R80); LOST is handled as early empty. -/
def State.commandPick (s : State) (k : Ix) : PickCommand :=
  let c := s.position.cassettes.get k
  if c.state = .absent ∨ c.state = .released then
    if s.restricted .moduleLock then .locked else .earlyEmpty
  else
    match c.index with
    | none => .earlyEmpty
    | some d =>
      if c.ownCount = 0 then .earlyEmpty
      else if s.restricted .moduleLock then .locked
      else .started d

/-- Picking goes on: the next pick, or the re-mix of an early-empty cassette, or the stop it leads to, or presenting (R79 to
R83). The first argument bounds the re-mixes: each leaves one cassette more without notes. -/
def advance : Nat → Teller → State → State
  | 0, _, s => s
  | n + 1, t, s =>
    match (s.dispense t).nextCassette with
    | none => present t s
    | some k =>
      match s.commandPick k with
      | .started d => s.onPath (fun q => { q with pick := some ⟨t, k, d, .commanded⟩ })
      | .locked => beginStop t .locked s
      | .earlyEmpty =>
        match reMix t s with
        | (.payable m, s) =>
          advance n t
            (s.onDispense t (fun d => { d with mix := Quad.add d.delivered m.mix, remainder := m.remainder }))
        | (.failed why _, s) =>
          if why = .audit then beginStop t .audit s else stopShort t .earlyEmpty s

/-- The re-mixes that one dispense can need at one point, and one step more. -/
def advanceBound : Nat := 5

/-- A dispense enters PICKING (R79). -/
def enterPicking (t : Teller) (s : State) : State :=
  advance advanceBound t (s.onDispense t (fun d => { d with state := .picking }))

/-- The dispense controller acts on the report after a pick (R79 to R83): a stop already fixed first, then completion, then
the reject limit. -/
def pickReported (t : Teller) (s : State) : State :=
  let d := s.dispense t
  match d.stop with
  | some why => beginStop t why s
  | none =>
    match d.nextCassette with
    | none => present t s
    | some _ =>
      if Config.rejectLimit ≤ d.diverted then stopShort t .rejectLimit s
      else advance advanceBound t s

/-! ## Grant checks (R77, R78) -/

/-- The bins refuse a dispense (R67). -/
def Position.binsFull (p : Position) : Bool :=
  Config.rejectMargin ≤ p.reject.total || Config.retractMargin ≤ p.retract.total

/-- A failed grant check ends the dispense with its reason as outcome (R78). -/
def failGrant (t : Teller) (why : Reason) (carried : Results) (s : State) : State :=
  endDispense t why.outcomeCode Quad.zero false (some why) carried s

/-- The record takes the mix computed at grant (R77). -/
def takeMix (t : Teller) (m : MixResult) (s : State) : State :=
  s.onDispense t (fun d =>
    { d with
      payable := m.payable, unpaid := m.unpaid, capped := m.payable < d.amount, mix := m.mix, remainder := m.remainder,
      limit := s.settings.remainderLimit })

/-- The grant checks 4, 5, 6, 10 and 11, and picking or the end they lead to (R77, R78). -/
def grantChecks (t : Teller) (s : State) : State :=
  let s := s.onDispense t (fun d => { d with state := .queued, deferred := false })
  let d := s.dispense t
  match s.path.state with
  | .jammed => failGrant t .jammed .none s
  | .purging => failGrant t .busy .none s
  | .ready =>
    if s.auditRequired then failGrant t .audit .none s
    else if s.restricted .dispenseHalt ∨ s.restricted .moduleLock then failGrant t .halted .none s
    else
      match requestMix t d.amount d.cap d.preference d.target s with
      | (.failed why carried, s) => failGrant t why carried s
      | (.payable m, s) =>
        if s.position.binsFull then failGrant t .binFull .none s else enterPicking t (takeMix t m s)

/-- A dispense whose entry was granted, or that took an unowned claim: its grant checks, deferred while a module operation of
the other teller port is in flight (R77). -/
def grantDispense (t : Teller) (s : State) : State :=
  if s.opInFlight t.other.port then s.onDispense t (fun d => { d with state := .queued, deferred := true })
  else grantChecks t s

/-! ## Retracting (R86) -/

/-- A dispense enters RETRACTING: the shutter closes and the timer stops; its draw begins at the end of the step, or when a
purge ends (R86). -/
def enterRetracting (t : Teller) (s : State) : State :=
  s.onDispense t (fun d => { d with state := .retracting, shutterOpen := false, presentTimer := none })

/-- A RETRACTING dispense whose draw has not begun. -/
def State.retractWaits (s : State) (t : Teller) : Bool :=
  (s.dispense t).state == .retracting && !(s.dispense t).ending && s.path.draw.isNone

/-- The retract begins in READY, ends JAMMED in JAMMED, and waits in PURGING (R86). -/
def proceedRetract (t : Teller) (s : State) : State :=
  if s.retractWaits t then
    match s.path.state with
    | .ready => startDraw (.pocket t) (.retract t) (s.dispense t).presented s
    | .jammed => jamDispense t s
    | .purging => s
  else s

end Sys2Proof.Machine
end

