-- ==== Sys2Proof/Machine/Claims.lean ====
section
/-!
DEFINITION. The module claim: the wait list, the hand-on, what a lock does to it, and lending it to a delay (R50 to R55,
R74, R76).
-/
namespace Sys2Proof.Machine

/-- The port of a wait-list entry. -/
def WaitEntry.port : WaitEntry → Port
  | .claim p => p
  | .delayed t => t.port

/-- The group of an entry: DELAYED entries, then port S, then tellers (R50). -/
def WaitEntry.rank : WaitEntry → Nat
  | .delayed _ => 0
  | .claim .s => 1
  | .claim _ => 2

/-- A new entry joins at the back of its own group (R50). -/
def joinList (e : WaitEntry) : List WaitEntry → List WaitEntry
  | [] => [e]
  | x :: xs => if e.rank < x.rank then e :: x :: xs else x :: joinList e xs

/-- An entry joins the wait list. -/
def joinWaiting (e : WaitEntry) (s : State) : State :=
  { s with claim := { s.claim with waiting := joinList e s.claim.waiting } }

/-- An entry leaves the wait list; those behind it keep their order (R50). -/
def leaveWaiting (e : WaitEntry) (s : State) : State :=
  { s with claim := { s.claim with waiting := s.claim.waiting.filter (fun x => x != e) } }

/-- The owner has become NONE: the head of the wait list becomes owner, a CLAIM entry with a GRANT notice, a DELAYED entry
with its grant checks (R51). -/
def handOn (s : State) : State :=
  match s.claim.waiting with
  | [] => s
  | e :: rest =>
    let s := setOwner (ownerOf e.port) { s with claim := { s.claim with waiting := rest } }
    match e with
    | .claim p => raise p (.grant (ownerOf p)) s
    | .delayed t => grantDispense t s

/-- The owner becomes NONE and the claim is handed on (R51). -/
def freeClaim (s : State) : State := handOn (setOwner .none s)

/-- The wait list emptied by a lock, head first: CLAIM_ENDED with cause LOCK, and for a DELAYED entry the dispense ends
HALTED (R55). -/
def emptyWaiting : List WaitEntry → State → State
  | [], s => s
  | e :: rest, s =>
    let s := raise e.port (.claimEnded .lock) s
    match e with
    | .claim _ => emptyWaiting rest s
    | .delayed t => emptyWaiting rest (endDispense t 7 Quad.zero false none .none s)

/-- A dispense whose grant checks are deferred is given up by the lock (R55). -/
def giveUpDeferred (t : Teller) (s : State) : State :=
  if (s.dispense t).state = .queued ∧ (s.dispense t).deferred then endDispense t 7 Quad.zero false none .none s else s

/-- MODULE_LOCK has entered the restriction set: the wait list is emptied, and a teller that owns the module loses it, to HOLD
with notes in escrow and to NONE without (R55). -/
def lockClaim (s : State) : State :=
  let entries := s.claim.waiting
  let s := emptyWaiting entries { s with claim := { s.claim with waiting := [] } }
  let lose (t : Teller) (s : State) : State :=
    let s := giveUpDeferred t s
    let held : Bool := !s.escrow.stack.isEmpty
    let s := setOwner (if held then .hold else .none) s
    let s := raise t.port (.claimEnded .lock) s
    if held then raise .s (.grant .hold) s else s
  match s.claim.owner with
  | .portA => lose .a s
  | .portB => lose .b s
  | .portS => s
  | .hold => s
  | .none => s

/-- A dispense enters DELAYING: the delay end is set, the claim is lent (R74). -/
def enterDelaying (t : Teller) (s : State) : State :=
  let finish := s.clock.count + BitVec.ofNat 32 s.settings.delayTime
  freeClaim (s.onDispense t (fun d => { d with state := .delaying, delayEnd := finish, extended := false }))

/-- The clock has reached a dispense's delay end (R190): the count stands less than half its range past it. -/
def delayReached (count finish : Word32) : Bool := (count - finish).toNat < 2147483648

/-- A delay ends (R76). -/
def endDelay (t : Teller) (s : State) : State :=
  if s.restricted .dispenseHalt ∨ s.restricted .moduleLock then endDispense t 7 Quad.zero false none .none s
  else if s.claim.owner = .none then grantDispense t (setOwner (ownerOf t.port) s)
  else joinWaiting (.delayed t) (s.onDispense t (fun d => { d with state := .queued }))

/-- The claim idle timer follows its condition at the end of a step: it starts, with the length then set, where a port has
come to own the module with nothing in flight, and stops where that no longer holds (R53). -/
def watchIdle (s : State) : State :=
  if s.idleRuns then
    match s.claim.idle with
    | some _ => s
    | none => { s with claim := { s.claim with idle := some s.settings.idleTimeout } }
  else { s with claim := { s.claim with idle := none } }

/-- A deferred grant is made once the other window's operation has ended (R77). -/
def proceedDeferred (t : Teller) (s : State) : State :=
  let d := s.dispense t
  if d.state = .queued ∧ d.deferred ∧ s.opInFlight t.other.port = false then grantChecks t s else s

end Sys2Proof.Machine
end

