-- ==== Sys2Proof/Machine/Operands.lean ====
section
/-!
DEFINITION. What the port interfaces know of each request (its roles and lengths, the idle timer, approvals), amount text, and the
calendar.
-/
namespace Sys2Proof.Machine

/-! ## Roles and lengths (R179, R182, 11.2) -/

/-- The role table (R182). -/
def Request.permitted (r : Request) (p : Port) : Bool :=
  match r with
  | .dispense | .cancel | .depositOpen | .insertNotes | .returnLast => p == .a || p == .b
  | .claim | .release | .returnAll | .compareEscrow | .commit | .depositClose | .post => p != .m
  | .handover | .load | .unload | .reconcile | .jamClear | .slotOpen | .slotClose | .binEmptied | .zoneSet | .arm | .disarm
  | .bypass | .trim | .approve | .clockSet | .setSetting | .restart => p == .s
  | .alarmAck | .alarmList | .silence => p == .m
  | .journalRead => p == .s || p == .m
  | .journalScan | .sync | .status | .positionRead | .clearFaults => true

/-- The operand lengths a code allows (11.2). -/
def Request.lengthOk (r : Request) (n : Nat) : Bool :=
  match r with
  | .dispense => n == 10 || n == 14
  | .cancel | .claim | .release | .insertNotes | .returnLast | .returnAll | .commit | .depositClose | .slotOpen | .slotClose
  | .binEmptied | .arm | .disarm | .silence | .sync | .positionRead | .clearFaults | .restart => n == 0
  | .depositOpen => n == 1 || n == 5
  | .compareEscrow => n == 0 || n == 4
  | .post => n == 5 || n == 10
  | .handover | .clockSet => n == 7
  | .load => n == 9
  | .unload | .jamClear | .alarmList | .status => n == 1
  | .reconcile => n == 17 || n == 26 || n == 35 || n == 44 || n == 53
  | .zoneSet => n == 8
  | .bypass | .alarmAck => n ≤ 16
  | .journalRead | .trim => n == 4
  | .journalScan => n == 16
  | .approve => n == 2
  | .setSetting => n == 6

/-- The module requests (R48), whose taking from the owner restarts the claim idle timer, and CLAIM (R53). -/
def Request.touchesIdle : Request → Bool
  | .dispense | .depositOpen | .insertNotes | .returnLast | .returnAll | .compareEscrow | .commit | .depositClose | .load
  | .unload | .reconcile | .claim => true
  | .cancel | .release | .post | .handover | .jamClear | .slotOpen | .slotClose | .binEmptied | .zoneSet | .arm | .disarm
  | .bypass | .alarmAck | .alarmList | .silence | .journalRead | .journalScan | .trim | .sync | .status | .positionRead
  | .clearFaults | .approve | .clockSet | .setSetting | .restart => false

/-- The approval class a request consumes (R189). -/
def Request.consumes : Request → Option ApprovalClass
  | .commit => some .depositOverride
  | .dispense => some .delayWaive
  | .post => some .postLarge
  | _ => none

/-! ## Amount text (R45 to R47) -/

/-- A decimal digit as a character. -/
def digitChar (d : Nat) : Char := Char.ofNat (48 + d % 10)

/-- The lowest n decimal digits of a number, with leading zeros. -/
def zeroFilled : Nat → Nat → List Char
  | 0, _ => []
  | n + 1, v => digitChar (v / 10 ^ n) :: zeroFilled n v

/-- A field of asterisks (R47). -/
def asterisks (w : Nat) : List Char := List.replicate w '*'

/-- ZERO_FILL mode (R45). -/
def renderZeroFill (w v : Nat) : List Char := if v < 10 ^ w then zeroFilled w v else asterisks w

/-- The digits of a number without leading zeros, least significant first; one 0 for zero. The first argument bounds the
digits read. -/
def digitsBack : Nat → Nat → List Char
  | 0, _ => []
  | n + 1, v => if v < 10 then [digitChar v] else digitChar v :: digitsBack n (v / 10)

/-- Commas between groups of three, on digits least significant first (R46). -/
def groupThrees : List Char → List Char
  | a :: b :: c :: d :: rest => a :: b :: c :: ',' :: groupThrees (d :: rest)
  | ds => ds

/-- The text of an amount in cents: integer part with commas, point, two cents digits (R46). -/
def moneyText (cents : Nat) : List Char :=
  (groupThrees (digitsBack 20 (cents / 100))).reverse ++ ('.' :: zeroFilled 2 (cents % 100))

/-- Text right-aligned in a field, or asterisks where it is too long (R46, R47). -/
def rightAligned (w : Nat) (text : List Char) : List Char :=
  if text.length ≤ w then List.replicate (w - text.length) ' ' ++ text else asterisks w

/-- MONEY mode (R46, R47). -/
def renderMoney (w cents : Nat) : List Char := rightAligned w (moneyText cents)

/-! ## Calendar (R190, R191) -/

/-- The days of a month, in a leap year or not. -/
def monthDays (leap : Bool) : Nat → Nat
  | 2 => if leap then 29 else 28
  | 4 => 30
  | 6 => 30
  | 9 => 30
  | 11 => 30
  | _ => 31

/-- Every year divisible by 4 from 2000 to 2096 is a leap year (R190). -/
def leapYear (year : Nat) : Bool := year % 4 == 0

/-- The days of the months before one, counted from month 1. -/
def daysBeforeMonth (leap : Bool) : Nat → Nat
  | 0 => 0
  | 1 => 0
  | n + 2 => daysBeforeMonth leap (n + 1) + monthDays leap (n + 1)

/-- The days from 1 January 2000 to 1 January of a year. -/
def daysBeforeYear (year : Nat) : Nat := (year - 2000) * 365 + (year - 2000 + 3) / 4

/-- The seconds count of a date and time (R190). -/
def countOf (year month day hour minute second : Nat) : Nat :=
  (daysBeforeYear year + daysBeforeMonth (leapYear year) month + (day - 1)) * 86400 + hour * 3600 + minute * 60 + second

/-- The month and day of a day number within a year, searching from a month for so many months. -/
def monthDay (leap : Bool) : Nat → Nat → Nat → Nat × Nat
  | 0, month, day => (month, day + 1)
  | n + 1, month, day =>
    if day < monthDays leap month then (month, day + 1) else monthDay leap n (month + 1) (day - monthDays leap month)

/-- The date of a day number from 1 January 2000: year, month, day (R190). -/
def dateOf (days : Nat) : Nat × Nat × Nat :=
  let cycle := days / 1461
  let rest := days % 1461
  let inCycle := if rest < 366 then 0 else (rest - 1) / 365
  let dayOfYear := if rest < 366 then rest else (rest - 1) % 365
  let md := monthDay (inCycle == 0) 11 1 dayOfYear
  (2000 + cycle * 4 + inCycle, md.1, md.2)

/-- The date field of the imprint line (R126). -/
def dateText (count : Nat) : List Char :=
  let (y, m, d) := dateOf (count / 86400)
  zeroFilled 4 y ++ ('-' :: zeroFilled 2 m) ++ ('-' :: zeroFilled 2 d)

/-- The time field of the imprint line (R126). -/
def timeText (count : Nat) : List Char :=
  let t := count % 86400
  zeroFilled 2 (t / 3600) ++ (':' :: zeroFilled 2 (t / 60 % 60)) ++ (':' :: zeroFilled 2 (t % 60))

/-- The date and time fields while CLOCK_INVALID is set: every digit a hyphen (R126). -/
def hyphens (n : Nat) : List Char := List.replicate n '-'

/-- The imprint line: sequence, date, time and amount with a space between (R126). -/
def imprintLine (c : Clock) (sequence : Nat) (declared : Option Nat) : List Char :=
  let date := if c.invalid then hyphens 10 else dateText c.count.toNat
  let time :=
    if c.invalid then hyphens 2 ++ (':' :: hyphens 2) ++ (':' :: hyphens 2) else timeText c.count.toNat
  let amount :=
    match declared with
    | some a => renderMoney 10 a
    | none => rightAligned 10 ['N', 'O', 'N', 'E']
  renderZeroFill 7 sequence ++ (' ' :: date) ++ (' ' :: time) ++ (' ' :: amount)

end Sys2Proof.Machine
end

