-- ==== Sys2Proof/Machine/Slot.lean ====
section
/-!
DEFINITION. The envelope slot: the open permit as it is judged, the display, the bin marks, the drop, and the jam (R118,
R121, R127 to R132).
-/
namespace Sys2Proof.Machine

/-- The keypad entry is discarded (R118, R120, R130). -/
def discardEntry (s : State) : State := s.onDepository (fun d => { d with entry := .empty, keypadTimer := false })

/-- The open permit is judged, in CLOSED and OPEN (R118). -/
def judgePermit (s : State) : State :=
  match s.depository.slot with
  | .closed => if s.permit then s.onDepository (fun d => { d with slot := .open_ }) else s
  | .open_ => if s.permit then s else discardEntry (s.onDepository (fun d => { d with slot := .closed }))
  | .intake => s
  | .imprint => s
  | .drop => s
  | .jammed => s

/-- The slot leaves INTAKE, IMPRINT, DROP or JAMMED: it becomes OPEN or CLOSED by the permit (R118). -/
def leaveTransport (s : State) : State :=
  if s.permit then s.onDepository (fun d => { d with slot := .open_ })
  else discardEntry (s.onDepository (fun d => { d with slot := .closed }))

/-- A message in the first twelve characters, left-aligned and filled with spaces (R121). -/
def messageField (text : List Char) : List Char := text ++ List.replicate (12 - text.length) ' '

/-- The message of the display: the first row of R121 that applies. -/
def Depository.message (d : Depository) : List Char :=
  match d.slot with
  | .open_ =>
    if d.takeEnvelope then messageField "TAKE ENVELOP".toList
    else if d.receiptOut then messageField "OPEN-NO RCPT".toList
    else messageField "DEPOSIT OPEN".toList
  | .closed => if d.takeEnvelope then messageField "TAKE ENVELOP".toList else messageField "CLOSED".toList
  | .intake => messageField "PLEASE WAIT".toList
  | .imprint => messageField "PLEASE WAIT".toList
  | .drop => messageField "PLEASE WAIT".toList
  | .jammed => messageField "OUT OF ORDER".toList

/-- The amount a keypad entry stands at, in cents (R120). -/
def KeyEntry.cents : KeyEntry → Option Nat
  | .empty => none
  | .keying digits => some (decimal (digits.map (fun d => d.val)))
  | .held amount => some amount

/-- The echo field: the keyed amount in MONEY mode at width 8, or eight spaces (R121). -/
def Depository.echo (d : Depository) : List Char :=
  if d.slot.takesKeys then
    match d.entry.cents with
    | some cents => renderMoney 8 cents
    | none => List.replicate 8 ' '
  else List.replicate 8 ' '

/-- The display line of R121. -/
def Depository.line (d : Depository) : List Char := d.message ++ d.echo

/-- The display as the slot state, the entry, RECEIPT_OUT and MOUTH make it (R121). -/
def rewriteDisplay (s : State) : State := s.onDepository (fun d => { d with display := d.line })

/-- The sequence number advances, wrapping from 9,999,999 to 1 (R128). -/
def nextEnvelope (n : Nat) : Nat := if Config.envelopeLast ≤ n then 1 else n + 1

/-- The near-full mark and BIN_NEAR_FULL when the count comes to be at or above the capacity less 40, and again with FULL when
a drop brings it to the capacity (R132). -/
def judgeBin (byDrop : Bool) (s : State) : State :=
  let b := s.depository.bin
  let capacity := s.settings.binCapacity
  let full : Bool := byDrop && b.count == capacity
  let near : Bool := capacity ≤ b.count + Config.nearFullMargin
  let first : Bool := near && !b.nearFull
  let s := if first then s.onDepository (fun d => { d with bin := { d.bin with nearFull := true } }) else s
  let s := if first then raise .s (.binNearFull b.count capacity false) s else s
  if full then raise .s (.binNearFull b.count capacity true) s else s

/-- The counts of the bin, in the order an ENVELOPE record carries them (R127). -/
def BinRecord.counts (b : BinRecord) : Quad Int := ⟨b.count, b.declared, b.undeclared, b.captured⟩

/-- The line a receipt prints: the imprint line composed for the envelope (R129); where none was composed, a free value
(notes/assumptions/14.md). -/
def Envelope.receiptLine (e : Envelope) (free : Nat) : List Char :=
  match e.line with
  | some l => l
  | none => Config.uncomposedReceipt free

/-- The envelope is dropped: bin, ENVELOPE record, receipt, sequence number, marks and permit together (R127). `capturing` is
an envelope caught by a clear run (R131, R134). -/
def dropEnvelope (e : Envelope) (capturing : Bool) (s : State) : State :=
  let captured := capturing || e.unimprinted
  let sequence := s.depository.sequence
  let (free, s) := s.takeFree
  let amount : Nat := match e.declared with | some a => a | none => 0
  let s := s.onDepository (fun d =>
    { d with
      bin :=
        { d.bin with
          count := d.bin.count + 1
          declared := d.bin.declared + (if e.declared.isSome then 1 else 0)
          undeclared := d.bin.undeclared + (if e.declared.isSome then 0 else 1)
          captured := d.bin.captured + (if captured then 1 else 0)
          total := d.bin.total + amount } })
  let (_, s) :=
    eventRecord
      { kind := .envelope, outcome := if captured then 2 else 1, marks := { noReceipt := s.depository.receiptOut },
        counts := s.depository.bin.counts, amount := amount, extra := sequence }
      s
  let s := s.onDepository (fun d =>
    { d with
      receipts := if d.receiptOut then d.receipts else d.receipts ++ [⟨e.receiptLine free, captured⟩]
      sequence := nextEnvelope sequence
      envelope := none
      dropTimer := false
      imprinterTimer := false })
  leaveTransport (judgeBin true s)

/-- The slot becomes JAMMED, with MODULE_FAULT to port S (R130). -/
def jamSlot (inDrop : Bool) (s : State) : State :=
  raise .s (.moduleFault (.slotJam inDrop))
    (discardEntry
      (s.onDepository (fun d =>
        { d with
          slot := .jammed, intakeTimer := false, reverseTimer := false, imprinterTimer := false, dropTimer := false })))

/-- A clear run ends: the clearing mark goes; by request the permit is judged and SLOT_READY raised (R131), at start-up the
slot becomes CLOSED (R134). -/
def endClearRun (run : ClearRun) (s : State) : State :=
  let s := s.onDepository (fun d => { d with clearing := none, clearTimer := false })
  match run with
  | .byRequest => raise .s (.moduleFault .slotReady) (leaveTransport s)
  | .atStartUp => discardEntry (s.onDepository (fun d => { d with slot := .closed }))

/-- A clear run starts: DROP with a clearing mark, for 5 s (R131, R134). -/
def startClearRun (run : ClearRun) (s : State) : State :=
  s.onDepository (fun d => { d with slot := .drop, clearing := some run, clearTimer := true, dropTimer := false })

end Sys2Proof.Machine
end

