-- ==== Sys2Proof/Machine/Alarms.lean ====
section
/-!
DEFINITION. The alarm unit at work: activations and restores, the active level and the restriction set with their reports to
the other blocks, the sounder, debounced readings and momentary raises (R138 to R156).
-/
namespace Sys2Proof.Machine

/-- One zone record changed. -/
def onZone (z : Fin 16) (f : Zone → Zone) (s : State) : State :=
  s.onAlarm (fun u => u.setZone z (f (u.zone z)))

/-- The record of a zone. -/
def State.zone (s : State) (z : Fin 16) : Zone := s.alarm.zone z

/-- An ALARM_CHANGE is due at the end of the step (R154). -/
def markChanged (s : State) : State := s.onAlarm (fun u => { u with changed := true })

/-- A zone's state changes, which ALARM_CHANGE reports (R154). -/
def setZoneState (z : Fin 16) (x : ZoneState) (s : State) : State :=
  if (s.zone z).state = x then s else markChanged (onZone z (fun r => { r with state := x }) s)

/-- The sounder goes off and its timer stops (R156). -/
def sounderOff (s : State) : State := s.onAlarm (fun u => { u with sounder := false, sounderTimer := none })

/-- An entry to PENDING_ACTIVE of a zone with SOUNDER turns the sounder ON and starts its timer, or restarts it (R156). -/
def soundFor (z : Fin 16) (s : State) : State :=
  if (s.zone z).config.effects.has .sounder then
    s.onAlarm (fun u => { u with sounder := true, sounderTimer := some Config.sounderTime })
  else s

/-- The escrow operation in flight is told that MODULE_LOCK has entered the set: a note in hand goes on and the operation then
ends; a return with no note in hand ends at once (R103, R109). A commit reads the set at its next choice (R113). -/
def lockEscrow (s : State) : State :=
  match s.escrow.op with
  | none => s
  | some (.insert o) =>
    if o.note = .none then s
    else s.onEscrow (fun e => { e with op := some (.insert { o with locked := true }) })
  | some (.give o) =>
    if o.ended.isSome then s
    else if o.note = none then endReturn o .halted s
    else s.onEscrow (fun e => { e with op := some (.give { o with locked := true }) })
  | some (.commit _) => s

/-- MODULE_LOCK has entered the set: the arbiter and the escrow controller are told, once start-up has ended (R55, R103, R109,
R158). -/
def lockEntered (s : State) : State :=
  if s.startUp.phase = .ready then lockEscrow (lockClaim s) else s

/-- The restriction set, where it has changed: RESTRICTION, the reports of MODULE_LOCK and SLOT_CLOSE, the silent line, and the
sounder where SOUNDER has left (R153, R155, R156). The open permit is judged at the change in every phase (R118;
notes/assumptions/59.md). -/
def newRestriction (before after : Effects) (s : State) : State :=
  let s := raiseRestriction (s.onAlarm (fun u =>
    { u with restriction := after, silentLine := after.has .silentLine }))
  let s := if after.has .moduleLock && !before.has .moduleLock then lockEntered s else s
  let s := if after.has .slotClose != before.has .slotClose then judgePermit s else s
  if before.has .sounder && !after.has .sounder then sounderOff s else s

/-- The active level recomputed (R151). -/
def recomputeLevel (s : State) : State :=
  if s.alarm.activeLevel = s.alarm.level then s
  else markChanged (s.onAlarm (fun u => { u with level := u.activeLevel }))

/-- The active level and the restriction set recomputed from the zones (R151, R153). -/
def recompute (s : State) : State :=
  let s := recomputeLevel s
  let after := s.alarm.latchedEffects
  if after = s.alarm.restriction then s else newRestriction s.alarm.restriction after s

/-- A holdup extension of one window's delay: the first report moves the delay end and sets the mark (R75). -/
def extendDelay (t : Teller) (s : State) : State :=
  s.onDispense t (fun d =>
    if d.state = .delaying ∧ d.extended = false ∧ d.ending = false then
      { d with delayEnd := d.delayEnd + BitVec.ofNat 32 s.settings.holdupExtension, extended := true }
    else d)

/-- A zone with DISPENSE_CAP or DISPENSE_HALT has entered PENDING_ACTIVE from QUIET or ENTRY_TIMING (R75, R143). -/
def reportHoldup (z : Fin 16) (s : State) : State :=
  let e := (s.zone z).config.effects
  if e.has .dispenseCap ∨ e.has .dispenseHalt then extendDelay .b (extendDelay .a s) else s

/-- A zone latches from QUIET or at entry expiry: PENDING_ACTIVE, the last activation, the ALARM record (R143, R145, R157). The record
carries the active level right after this zone's own activation, a DESIGN CHOICE where one event latches several zones
(notes/assumptions/75.md). -/
def latch (z : Fin 16) (port : Option Port) (entry : Bool) (s : State) : State :=
  let s := setZoneState z .pendingActive s
  let s := onZone z (fun r => { r with entryTimer := none, marked := none, lastActivation := s.clock.count }) s
  let (_, s) :=
    eventRecord
      { kind := .alarm, port := port, outcome := 1, marks := { entry := entry },
        counts := ⟨(s.zone z).config.level, s.alarm.activeLevel, 0, 0⟩, extra := z.val }
      s
  recompute (reportHoldup z (soundFor z s))

/-- An activation of a zone (R143). An entry timing keeps the teller port whose duress raise began it, for the record of its expiry
(R141, R157). -/
def activate (z : Fin 16) (port : Option Port) (s : State) : State :=
  if s.alarm.eligible z then
    match (s.zone z).state with
    | .quiet =>
      if (s.zone z).config.type = .intrusionDelayed ∧ s.alarm.armed = true then
        setZoneState z .entryTiming (onZone z (fun r => { r with entryTimer := some s.settings.entryDelay, marked := port }) s)
      else latch z port false s
    | .pendingRestored => recompute (soundFor z (setZoneState z .pendingActive s))
    | .entryTiming => s
    | .pendingActive => s
    | .ackedActive => s
  else s

/-- A restore of a zone (R144). -/
def restore (z : Fin 16) (s : State) : State :=
  match (s.zone z).state with
  | .pendingActive => recompute (setZoneState z .pendingRestored s)
  | .ackedActive => recompute (setZoneState z .quiet s)
  | .entryTiming => s
  | .quiet => s
  | .pendingRestored => s

/-- A zone's input takes a value: a change is an activation or a restore (R139, R140). -/
def setInput (z : Fin 16) (active : Bool) (s : State) : State :=
  if (s.zone z).inputActive = active then s
  else
    let s := onZone z (fun r => { r with inputActive := active }) s
    if active then activate z none s else restore z s

/-- A momentary raise of a zone: with its input NORMAL, an activation followed at once by a restore (R142). -/
def momentary (z : Fin 16) (port : Option Port) (s : State) : State :=
  if (s.zone z).inputActive then s else restore z (activate z port s)

/-- The trouble mark of an enabled zone: set with its ALARM record and notice, cleared with the notice (R139). -/
def setTrouble (z : Fin 16) (mark : Bool) (s : State) : State :=
  let r := s.zone z
  if r.config.enabled = false ∨ r.trouble = mark then s
  else
    let s := markChanged (onZone z (fun r => { r with trouble := mark }) s)
    if mark then
      (eventRecord { kind := .alarm, outcome := 2, counts := ⟨1, 0, 0, 0⟩, extra := z.val } s).2
    else s

/-- A cut or shorted loop counts as ACTIVE (R139). -/
def ZoneType.cutActivates : ZoneType → Bool
  | .tamper => true
  | .attack => true
  | .holdup => false
  | .intrusion => false
  | .intrusionDelayed => false
  | .supervisory => false

/-- A debounced reading is judged (R139). -/
def judgeReading (z : Fin 16) (x : Reading) (s : State) : State :=
  let s := onZone z (fun r => { r with reading := x }) s
  match x with
  | .normal => setInput z false (setTrouble z false s)
  | .active => setInput z true (setTrouble z false s)
  | .open_ | .short =>
    if (s.zone z).config.type.cutActivates then setInput z true (setTrouble z false s) else setTrouble z true s

/-- A zone is re-judged after its eligibility may have changed: one that has become eligible with its input ACTIVE in QUIET or
PENDING_RESTORED is activated (R146). -/
def reJudge (z : Fin 16) (before : Bool) (s : State) : State :=
  if !before && s.alarm.eligible z && (s.zone z).inputActive &&
      ((s.zone z).state == .quiet || (s.zone z).state == .pendingRestored) then
    activate z none s
  else s

/-- A zone's entry timing ends without an alarm: it returns to QUIET (R145). -/
def endEntryTiming (z : Fin 16) (s : State) : State :=
  if (s.zone z).state = .entryTiming then
    setZoneState z .quiet (onZone z (fun r => { r with entryTimer := none, marked := none }) s)
  else s

/-- The content of ALARM_CHANGE (R154). That the zones outside QUIET stand by ascending zone number is a DESIGN CHOICE
(notes/assumptions/108.md). -/
def State.alarmNotice (s : State) : Notice :=
  .alarmChange s.alarm.summary
    ((allZones.filter (fun z => (s.zone z).state != .quiet)).map
      (fun z => (z, (s.zone z).state, (s.zone z).config.level)))
    s.alarm.troubleSet

/-- ALARM_CHANGE to port M (R154). -/
def raiseAlarmChange (s : State) : State := raise .m s.alarmNotice s

/-- One ALARM_CHANGE for all the changes of a step (R154). -/
def flushAlarm (s : State) : State :=
  if s.alarm.changed then raiseAlarmChange (s.onAlarm (fun u => { u with changed := false })) else s

/-- Port M's interface has taken a valid frame: the monitor timer restarts and zone 14's input becomes NORMAL (R140), once the
alarm unit has started the timer (10.2). -/
def monitorHeard (s : State) : State :=
  if s.alarm.monitorTimer.isSome ∨ (s.zone 14).inputActive then
    setInput 14 false (s.onAlarm (fun u => { u with monitorTimer := some Config.monitorTime }))
  else s

end Sys2Proof.Machine
end

