-- ==== Sys2Proof/Machine/Settle.lean ====
section
/-!
DEFINITION. What every step shares: how a port takes a request and answers it (R178 to R184, R189), and what follows at the end of a
step (the claim's timer, waiting draws and grants, the display, ALARM_CHANGE, the transmitters).
-/
namespace Sys2Proof.Machine

/-! ## The end of a step -/

/-- What follows every command: waiting retracts (R86), then deferred grants, since a retract that ends JAMMED here is an operation that
has ended (R77), the claim idle timer (R53), the display (R121), ALARM_CHANGE (R154), the transmitters (R186). Nothing follows while the
part has no supply. -/
def settle (s : State) : State :=
  if s.powered then
    let s := proceedRetract .b (proceedRetract .a s)
    let s := proceedDeferred .b (proceedDeferred .a s)
    pumpAll (flushAlarm (rewriteDisplay (watchIdle s)))
  else s

/-- The outcome of a command of the part: the next state (no command faults or is refused by the model). -/
def done (s : State) : Host.Outcome State Fault Refusal := .next (settle s)

/-! ## Requests -/

/-- What the owning block answers: a reply at once, or one that waits until a record is durable (R168, R180). -/
inductive Answer where
  | reply (status : Status) (reason : Option Reason) (results : Results)
  | wait (number : Nat)
  deriving DecidableEq, Repr

/-- OK with results. -/
def ok (r : Results) (s : State) : Answer × State := (.reply .ok none r, s)

/-- OK, or CLAMPED where an operand was applied at the end of its range (R180). -/
def okOrClamped (clamped : Bool) (r : Results) (s : State) : Answer × State :=
  (.reply (if clamped then .clamped else .ok) none r, s)

/-- ACCEPTED with results. -/
def accepted (r : Results) (s : State) : Answer × State := (.reply .accepted none r, s)

/-- REFUSED with a reason and no figures. -/
def refuse (why : Reason) (s : State) : Answer × State := (.reply .refused (some why) .none, s)

/-- REFUSED with a reason and its figures. -/
def refuseWith (why : Reason) (r : Results) (s : State) : Answer × State := (.reply .refused (some why) r, s)

/-- REFUSED BAD_DIGIT: operand number and position (R30, R202). -/
def refuseDigit (operand position : Nat) (s : State) : Answer × State :=
  refuseWith .badDigit (.badDigit operand position) s

/-- The journal room check before a request's effects: its refusal carries the room, the reservations and the staging entries
free (R162). -/
def withRoom (n atOnce : Nat) (s : State) (k : Answer × State) : Answer × State :=
  match s.journal.roomCheck n atOnce with
  | some why =>
    refuseWith why (.room s.journal.room s.journal.reservations.length s.journal.stagingFree) s
  | none => k

/-- The count margins of R3, then the room check. -/
def withMargins (n atOnce : Nat) (s : State) (k : Answer × State) : Answer × State :=
  if s.position.marginsExceeded then refuse .range s else withRoom n atOnce s k

/-- The answer is given to the port: its reply is formed, or it waits (R168, R180). -/
def giveAnswer (p : Port) (x : Answer × State) : State :=
  match x with
  | (.reply status reason results, s) => formReply p status reason results s
  | (.wait n, s) =>
    s.onPort p (fun q =>
      match q.held with
      | some h => { q with held := some { h with answer := .awaiting n } }
      | none => q)

/-- The request enters the held-frame buffer (R178); its answer is formed in the same step. -/
def hold (code : Byte) (f : Frame) (s : State) : State :=
  s.onPort f.port (fun q => { q with held := some ⟨code, f.tag, f.duress, .awaiting 0⟩ })

/-- The approval of the port is consumed by the first request taken whose code matches its class (R189). -/
def consumeApproval (r : Request) (p : Port) (s : State) : Bool × State :=
  match Request.consumes r with
  | none => (false, s)
  | some c =>
    if (s.ports.get p).approval = some c then (true, s.onPort p (fun q => { q with approval := none })) else (false, s)

/-- A module request or CLAIM of the owner restarts its idle timer (R53). -/
def touchIdle (r : Request) (p : Port) (s : State) : State :=
  if Request.touchesIdle r = true ∧ s.claim.owner.port? = some p then
    { s with claim := { s.claim with idle := some s.settings.idleTimeout } }
  else s

/-- The port checks 3 and 4, with the approval consumed before them, and then the owning block, which is told whether an
approval was consumed (R179, R189). -/
def passPort (r : Request) (f : Frame) (owner : Bool → State → Answer × State) (s : State) : Answer × State :=
  let (consumed, s) := consumeApproval r f.port s
  if !Request.permitted r f.port then refuse .role s
  else if !Request.lengthOk r f.operands.length then refuse .length s
  else owner consumed (touchIdle r f.port s)

/-- A valid frame reaches a port: on port M the monitor hears it (R177, R140). -/
def hearFrame (p : Port) (s : State) : State :=
  if p = .m then monitorHeard s else s

/-- A valid request frame is complete: with the buffer full it is discarded with OVERRUN (R178), otherwise it is taken and
answered (R179): STARTING, then what `answer` gives. -/
def takeFrame (code : Byte) (f : Frame) (answer : State → Answer × State) (s : State) : State :=
  if s.powered then
    let s := hearFrame f.port s
    if (s.ports.get f.port).held.isSome then s.onPort f.port (fun q => { q with overrunFlag := true })
    else
      let s := hold code f s
      giveAnswer f.port (if s.startUp.phase = .ready then answer s else refuse .starting s)
  else s

/-- A request of a known code is taken at its port (R178 to R184), its owning block being told of a consumed approval. -/
def takeConsuming (r : Request) (f : Frame) (owner : Bool → State → Answer × State) (s : State) : State :=
  takeFrame r.code f (passPort r f owner) s

/-- A request of a known code is taken at its port (R178 to R184). -/
def takeRequest (r : Request) (f : Frame) (owner : State → Answer × State) (s : State) : State :=
  takeConsuming r f (fun _ => owner) s

/-- A mechanism or timer event, taken while the blocks run; before that, and while there is no supply, it is ignored
(notes/assumptions/8.md). -/
def event (f : State → State) (s : State) : State := if s.running then f s else s

end Sys2Proof.Machine
end

