-- ==== Sys2Proof/Machine/Alarming.lean ====
section
/-!
DEFINITION. The commands of the alarm unit (07): ZONE_SET, ARM, DISARM, BYPASS, ALARM_ACK, ALARM_LIST, SILENCE, DURESS_RAISE, the
loop readings and the unit's timers.
-/
namespace Sys2Proof.Machine

/-! ## ZONE_SET (R137) -/

/-- A zone made disabled leaves ENTRY_TIMING and loses its trouble mark (R137). -/
def zoneDisabled (z : Fin 16) (s : State) : State :=
  let s := endEntryTiming z s
  if (s.zone z).trouble then markChanged (onZone z (fun r => { r with trouble := false }) s) else s

/-- A zone made enabled has its present debounced reading judged; zones 14 and 15 have no loop (R137). -/
def zoneEnabled (z : Fin 16) (s : State) : State :=
  if z.val < 14 then judgeReading z (s.zone z).reading s else s

/-- A new configuration acts (R137, R146). -/
def applyZone (z : Fin 16) (c : ZoneConfig) (s : State) : State :=
  let before := s.alarm.eligible z
  let was := (s.zone z).config.enabled
  let s := onZone z (fun r => { r with config := c }) s
  let s := if was && !c.enabled then zoneDisabled z s else s
  let s := recompute s
  let s := if !was && c.enabled then zoneEnabled z s else s
  reJudge z before s

/-- An accepted ZONE_SET: the SETTING record, then the new configuration; a clamped one answers with the values applied (R137, R157). -/
def acceptZoneSet (z : Fin 16) (c : ZoneConfig) (clamped : Bool) (s : State) : Answer × State :=
  let (_, s) :=
    stage
      { kind := .setting, port := some .s, outcome := 2, extra := z.val,
        detail := .setting (settingBytes (s.zone z).config.bytes) (settingBytes c.bytes) }
      s
  okOrClamped clamped (if clamped then .zoneSet c else .none) (applyZone z c s)

/-- ZONE_SET at its owning block: the checks and clamps of R137. The enable byte is disabled at 0 and enabled otherwise
(notes/assumptions/18.md). -/
def zoneSetOwner (ops : List Byte) (s : State) : Answer × State :=
  match zoneOf (byteField ops 0), zoneTypeOf (byteField ops 1), armModeOf (byteField ops 4) with
  | some z, some type, some armMode =>
    let level := max 1 (min 7 (byteField ops 2))
    let debounce := max 50 (min 2000 (intField ops 6 2))
    let enabled : Bool := byteField ops 5 != 0
    if z = 15 ∧ enabled = false then refuse .range s
    else
      withRoom 1 1 s
        (acceptZoneSet z
          { type := type, level := level, effects := BitVec.ofNat 6 (byteField ops 3), armMode := armMode, enabled := enabled,
            debounce := debounce }
          (level != byteField ops 2 || debounce != intField ops 6 2) s)
  | _, _, _ => refuse .range s

/-- ZONE_SET (R137, R146). -/
def execZoneSet (f : Frame) (s : State) : Host.Outcome State Fault Refusal :=
  done (takeRequest .zoneSet f (zoneSetOwner f.operands) s)

/-! ## ARM, DISARM, BYPASS (R147 to R149) -/

/-- The zones that fail ARM's check 2, with their readings (R147). That they stand by ascending zone number is a DESIGN CHOICE
(notes/assumptions/107.md). -/
def State.zonesNotNormal (s : State) : List (Fin 16 × Reading) :=
  (allZones.filter (fun z =>
    (s.zone z).config.enabled && !(s.zone z).bypassed && (s.zone z).config.armMode == .armedOnly &&
      (s.zone z).reading != .normal)).map (fun z => (z, (s.zone z).reading))

/-- Zones re-judged against what they were (R146). -/
def reJudgeAll (zones : List (Fin 16)) (before : Fin 16 → Bool) (s : State) : State :=
  zones.foldl (fun s z => reJudge z (before z) s) s

/-- An accepted ARM (R147). -/
def acceptArm (s : State) : Answer × State :=
  let u := s.alarm
  let bypassed := u.bypassSet
  let s := s.onAlarm (fun u => { u with armed := true })
  let (_, s) := stage { kind := .arm, port := some .s, extra := bypassed.toNat } s
  ok (.bypassSet bypassed) (reJudgeAll allZones u.eligible (markChanged s))

/-- ARM at its owning block: the checks of R147. -/
def armOwner (s : State) : Answer × State :=
  if s.alarm.armed then ok .none s
  else if s.zonesNotNormal ≠ [] then refuseWith .zoneActive (.zonesNotNormal s.zonesNotNormal) s
  else withRoom 1 1 s (acceptArm s)

/-- ARM (R147). -/
def execArm (f : Frame) (s : State) : Host.Outcome State Fault Refusal := done (takeRequest .arm f armOwner s)

/-- Every bypass mark cleared. -/
def clearBypass (s : State) : State :=
  allZones.foldl (fun s z => onZone z (fun r => { r with bypassed := false }) s) s

/-- An accepted DISARM: the six steps of R148. Its record follows the ALARM records of step 4 and has been promised its entry, since a
request that passes the room check writes its records (R160, R162); an ALARM record that finds no other entry is lost (R163;
notes/assumptions/19.md). -/
def acceptDisarm (s : State) : Answer × State :=
  let bypassed := s.alarm.bypassSet
  let cleared := allZones.filter (fun z => (s.zone z).bypassed)
  let timing := zoneSetOf (fun z => (s.zone z).state == .entryTiming)
  let s := s.onAlarm (fun u => { u with armed := false })
  let s := allZones.foldl (fun s z => endEntryTiming z s) s
  let s := clearBypass s
  let s := reJudgeAll cleared (fun _ => false) (promiseEntry s)
  let (_, s) :=
    stagePromised
      { kind := .disarm, port := some .s, counts := ⟨timing.toNat, 0, 0, 0⟩, extra := bypassed.toNat } s
  ok .none (markChanged s)

/-- DISARM at its owning block (R148). -/
def disarmOwner (s : State) : Answer × State := withRoom 1 1 s (acceptDisarm s)

/-- DISARM (R148). -/
def execDisarm (f : Frame) (s : State) : Host.Outcome State Fault Refusal := done (takeRequest .disarm f disarmOwner s)

/-- The zones a list operand names, or none where one is above 15. -/
def zonesOf (ops : List Byte) : Option (List (Fin 16)) := ops.mapM (fun b => zoneOf b.toNat)

/-- An accepted BYPASS (R149). -/
def acceptBypass (zones : List (Fin 16)) (s : State) : Answer × State :=
  let s := zones.foldl (fun s z => endEntryTiming z (onZone z (fun r => { r with bypassed := true }) s)) s
  let bypassed := s.alarm.bypassSet
  let (_, s) := stage { kind := .arm, port := some .s, outcome := 2, extra := bypassed.toNat } s
  ok (.bypassSet bypassed) (markChanged s)

/-- BYPASS at its owning block: the checks of R149. -/
def bypassOwner (ops : List Byte) (s : State) : Answer × State :=
  match zonesOf ops with
  | none => refuse .range s
  | some zones => if zones = [] ∨ 15 ∈ zones then refuse .range s else withRoom 1 1 s (acceptBypass zones s)

/-- BYPASS (R149). -/
def execBypass (f : Frame) (s : State) : Host.Outcome State Fault Refusal :=
  done (takeRequest .bypass f (bypassOwner f.operands) s)

/-! ## ALARM_ACK, ALARM_LIST, SILENCE (R150, R152, R156) -/

/-- What acknowledgement makes of a zone state (R150). -/
def ZoneState.acked : ZoneState → ZoneState
  | .pendingRestored => .quiet
  | .pendingActive => .ackedActive
  | .quiet => .quiet
  | .entryTiming => .entryTiming
  | .ackedActive => .ackedActive

/-- An accepted ALARM_ACK (R150). -/
def acceptAck (zones : List (Fin 16)) (s : State) : Answer × State :=
  let named (z : Fin 16) : Bool := z ∈ zones
  let toQuiet := zoneSetOf (fun z => named z && (s.zone z).state == .pendingRestored)
  let toAcked := zoneSetOf (fun z => named z && (s.zone z).state == .pendingActive)
  let s := allZones.foldl (fun s z => if named z then setZoneState z (s.zone z).state.acked s else s) s
  let level := s.alarm.activeLevel
  if toQuiet ||| toAcked = 0 then ok (.acknowledged toQuiet toAcked level) s
  else
    let (_, s) :=
      stage { kind := .ack, port := some .m, counts := ⟨level, 0, 0, 0⟩, extra := (toQuiet ||| toAcked).toNat } s
    ok (.acknowledged toQuiet toAcked level) (recompute s)

/-- The zones of an ALARM_ACK operand: a single 0FFh is ALL (11.2). -/
def ackZones (ops : List Byte) : Option (List (Fin 16)) := if ops = [0xFF#8] then some allZones else zonesOf ops

/-- ALARM_ACK at its owning block: the checks of R150. -/
def alarmAckOwner (ops : List Byte) (s : State) : Answer × State :=
  match ackZones ops with
  | none => refuse .range s
  | some zones => if zones = [] then refuse .range s else withRoom 1 1 s (acceptAck zones s)

/-- ALARM_ACK (R150). -/
def execAlarmAck (f : Frame) (s : State) : Host.Outcome State Fault Refusal :=
  done (takeRequest .alarmAck f (alarmAckOwner f.operands) s)

/-- The level a zone is listed at: its own, or 1 for a QUIET zone listed for trouble alone (R152). -/
def Zone.listedLevel (r : Zone) : Nat := if r.state = .quiet then 1 else r.config.level

/-- An entry put in by listed level, highest first, behind those of its own level (R152). -/
def insertEntry (x : AlarmEntry) : List AlarmEntry → List AlarmEntry
  | [] => [x]
  | y :: ys => if y.level < x.level then x :: y :: ys else y :: insertEntry x ys

/-- A zone's entry in the zone alarm list (R152). -/
def State.alarmEntry (s : State) (z : Fin 16) : AlarmEntry :=
  { zone := z, state := (s.zone z).state, level := (s.zone z).listedLevel, effects := (s.zone z).config.effects,
    trouble := (s.zone z).trouble, bypassed := (s.zone z).bypassed, enabled := (s.zone z).config.enabled,
    lastActivation := (s.zone z).lastActivation }

/-- The zone alarm list: zones not QUIET or with a trouble mark, by listed level and then by number (R152). -/
def State.alarmEntries (s : State) : List AlarmEntry :=
  let listed := allZones.filter (fun z => (s.zone z).state != .quiet || (s.zone z).trouble)
  listed.foldl (fun l z => insertEntry (s.alarmEntry z) l) []

/-- ALARM_LIST at its owning block: up to eight entries from the start position (R152). A clamped start is answered CLAMPED,
and its applied value is not among the results, which R152 lists (R180; notes/assumptions/20.md). -/
def alarmListOwner (ops : List Byte) (s : State) : Answer × State :=
  let start := max 1 (min 16 (byteField ops 0))
  let entries := s.alarmEntries
  okOrClamped (start != byteField ops 0)
    (.alarmList s.alarm.summary entries.length ((entries.drop (start - 1)).take 8)) s

/-- ALARM_LIST (R152). -/
def execAlarmList (f : Frame) (s : State) : Host.Outcome State Fault Refusal :=
  done (takeRequest .alarmList f (alarmListOwner f.operands) s)

/-- SILENCE at its owning block (R156). -/
def silenceOwner (s : State) : Answer × State := ok (.sounder s.alarm.sounder false) (sounderOff s)

/-- SILENCE (R156). -/
def execSilence (f : Frame) (s : State) : Host.Outcome State Fault Refusal := done (takeRequest .silence f silenceOwner s)

/-! ## Events (R138 to R145, R156) -/

/-- One duress raise of a window, reported and not yet taken, is taken: zone 15 momentarily (R141, R142). -/
def duressRaised (t : Teller) (s : State) : State :=
  if (s.ports.get t.port).duressDue = 0 then s
  else
    momentary 15 (some t.port)
      (s.onPort t.port (fun q => { q with duressDue := q.duressDue - 1 }))

/-- DURESS_RAISE (R141, R142). -/
def execDuressRaise (t : Teller) (s : State) : Host.Outcome State Fault Refusal := done (event (duressRaised t) s)

/-- The raw reading of a loop changes. -/
def setLoop (z : Fin 14) (r : Reading) (s : State) : State :=
  { s with pins := { s.pins with loops := s.pins.loops.set z r } }

/-- A changed raw reading starts the debounce count afresh with the new value, the time read at this moment (R138); one that
is the debounced reading again leaves nothing to count. -/
def debounce (z : Fin 14) (r : Reading) (s : State) : State :=
  onZone (wired z)
    (fun x => { x with debounceTimer := if x.reading = r then none else some x.config.debounce }) s

/-- A raw loop reading (R138). The loop itself keeps its reading whatever the part does. -/
def loopRead (z : Fin 14) (r : Reading) (s : State) : State :=
  if s.pins.loops.get z = r then s
  else
    let s := setLoop z r s
    if s.running then debounce z r s else s

/-- LOOP_READING (R138). -/
def execLoopReading (z : Fin 14) (r : Reading) (s : State) : Host.Outcome State Fault Refusal := done (loopRead z r s)

/-- The raw reading has held for the debounce time: it becomes the debounced reading and is judged (R138, R139). -/
def readingHeld (z : Fin 14) (s : State) : State :=
  if (s.zone (wired z)).debounceTimer.isSome then
    judgeReading (wired z) (s.pins.loops.get z) (onZone (wired z) (fun r => { r with debounceTimer := none }) s)
  else s

/-- DEBOUNCED_READING_CHANGE (R139). -/
def execDebouncedReadingChange (z : Fin 14) (s : State) : Host.Outcome State Fault Refusal :=
  done (event (readingHeld z) s)

/-- A zone's entry timer expires: the alarm, and at once the restore of an input then NORMAL (R145). The ALARM record carries the port of the duress
raise that began the timing (R141, R157). -/
def entryExpired (z : Fin 16) (s : State) : State :=
  if (s.zone z).state = .entryTiming ∧ (s.zone z).entryTimer.isSome then
    let s := latch z (s.zone z).marked true s
    if (s.zone z).inputActive then s else restore z s
  else s

/-- ENTRY_TIMER_EXPIRY (R145). -/
def execEntryTimerExpiry (z : Fin 16) (s : State) : Host.Outcome State Fault Refusal := done (event (entryExpired z) s)

/-- The monitor timer expires: zone 14's input becomes ACTIVE (R140). -/
def monitorExpired (s : State) : State :=
  if s.alarm.monitorTimer.isSome then setInput 14 true (s.onAlarm (fun u => { u with monitorTimer := none })) else s

/-- MONITOR_TIMER_EXPIRY (R140). -/
def execMonitorTimerExpiry (s : State) : Host.Outcome State Fault Refusal := done (event monitorExpired s)

/-- SOUNDER_TIMER_EXPIRY (R156). -/
def execSounderTimerExpiry (s : State) : Host.Outcome State Fault Refusal :=
  done (event (fun s => if s.alarm.sounderTimer.isSome then sounderOff s else s) s)

end Sys2Proof.Machine
end

