-- ==== Sys2Proof/Machine/Claiming.lean ====
section
/-!
DEFINITION. The commands of the module claim arbiter: CLAIM, RELEASE, CLAIM_IDLE_EXPIRY (03).
-/
namespace Sys2Proof.Machine

/-- A teller port's dispense is in DELAYING or QUEUED (R49, R52). -/
def State.waitsForModule (s : State) (p : Port) : Bool :=
  match p.teller? with
  | some t => (s.dispense t).state == .delaying || (s.dispense t).state == .queued
  | none => false

/-- The port has an entry in the wait list. -/
def State.isWaiting (s : State) (p : Port) : Bool := s.claim.waiting.any (fun e => e.port == p)

/-- CLAIM: the first line of R49's table that applies; every reply carries the owner as it stood. -/
def claimOwner (f : Frame) (s : State) : Answer × State :=
  let was := s.claim.owner
  let granted (s : State) : Answer × State := (.reply .granted none (.owner was), s)
  if s.restricted .moduleLock then refuseWith .halted (.owner was) s
  else if s.waitsForModule f.port then refuseWith .busy (.owner was) s
  else if was.ownedBy f.port then granted s
  else if was = .none then granted (setOwner (ownerOf f.port) s)
  else if s.isWaiting f.port then refuseWith .duplicate (.owner was) s
  else (.reply .waiting none (.owner was), joinWaiting (.claim f.port) s)

/-- CLAIM (R49, R50). -/
def execClaim (f : Frame) (s : State) : Host.Outcome State Fault Refusal :=
  done (takeRequest .claim f (claimOwner f) s)

/-- RELEASE: the checks of R52 and its effect. An owner whose dispense is QUEUED with its grant checks deferred is busy (R69;
notes/assumptions/16.md). -/
def releaseOwner (f : Frame) (s : State) : Answer × State :=
  if !s.claim.owner.ownedBy f.port then
    if s.waitsForModule f.port then refuse .busy s
    else if .claim f.port ∈ s.claim.waiting then ok .withdrawn (leaveWaiting (.claim f.port) s)
    else refuse .notClaimed s
  else if s.opInFlight f.port ∨ s.waitsForModule f.port then refuse .busy s
  else if s.escrow.stack ≠ [] then refuse .escrowNotEmpty s
  else
    let s := freeClaim s
    ok (.owner s.claim.owner) s

/-- RELEASE (R52, R51). -/
def execRelease (f : Frame) (s : State) : Host.Outcome State Fault Refusal :=
  done (takeRequest .release f (releaseOwner f) s)

/-- The claim idle timer expires: the claim is handed on, or with notes in escrow goes to HOLD (R54). -/
def idleExpired (s : State) : State :=
  match s.claim.owner.port? with
  | none => s
  | some p =>
    if s.escrow.stack = [] then freeClaim (raise p (.claimEnded .idle) s)
    else if p.teller?.isSome then
      leaveWaiting (.claim .s)
        (raise .s (.grant .hold) (raise p (.claimEnded .hold) (setOwner .hold s)))
    else s

/-- CLAIM_IDLE_EXPIRY (R54). -/
def execClaimIdleExpiry (s : State) : Host.Outcome State Fault Refusal :=
  done (event (fun s => if s.claim.idle.isSome then idleExpired s else s) s)

end Sys2Proof.Machine
end

