-- ==== Sys2Proof/Machine/Custody.lean ====
section
/-!
DEFINITION. The commands of the position store (01): POST, HANDOVER, LOAD, UNLOAD of a cassette or a bin, RECONCILE, POSITION_READ, and
the removal and insertion of a cassette.
-/
namespace Sys2Proof.Machine

/-! ## Postings (R14 to R16) -/

/-- The account a port posts to (R14). -/
def postAccount : Port → AccountId
  | .a => .drawerA
  | .b => .drawerB
  | .s => .branchCash
  | .m => .branchCash

/-- The balance and coin due a POST gives, or none where RANGE (R15). -/
def postResult (k : PostKind) (x : Nat) (r : Account) : Option (Int × Nat) :=
  match k with
  | .cashIn => if Config.balanceMax < r.balance + x then none else some (r.balance + x, r.coinDue)
  | .cashOut => if r.balance - x < -Config.balanceMax then none else some (r.balance - x, r.coinDue)
  | .coinPaid =>
    if r.coinDue < x ∨ r.balance - x < -Config.balanceMax then none else some (r.balance - x, r.coinDue - x)

/-- The posting code a record carries (R203). -/
def PostKind.code : PostKind → Nat
  | .cashIn => 1
  | .cashOut => 2
  | .coinPaid => 3

/-- The amount a POSTING record carries (R16). -/
def PostKind.signed (k : PostKind) (x : Nat) : Int :=
  match k with
  | .cashIn => x
  | .cashOut => -(x : Int)
  | .coinPaid => -(x : Int)

/-- An applied POST (R16). -/
def applyPost (p : Port) (k : PostKind) (x : Nat) (balance : Int) (coinDue : Nat) (s : State) : Answer × State :=
  let s := writeAccount (postAccount p) balance coinDue s
  let (n, s) := stageApplied { kind := .posting, port := some p, outcome := k.code, amount := k.signed x } s
  ok (.posted n balance coinDue) s

/-- The optional expected balance of a POST (11.2). -/
def expectedBalance (ops : List Byte) : Except Nat (Option Int) :=
  if ops.length = 10 then (readS5 (field ops 5 5)).map some else .ok none

/-- Checks 4 to 8 of POST (R14). -/
def judgePost (p : Port) (kind : Option PostKind) (x : Nat) (expected : Option Int) (consumed : Bool) (s : State) :
    Answer × State :=
  let (fine, s) := verifyAccount (postAccount p) s
  let r := s.position.account (postAccount p)
  if !fine then refuse .audit s
  else if p.teller?.isSome ∧ s.settings.postingLimit < x ∧ consumed = false then refuse .approval s
  else if expected.getD r.balance ≠ r.balance then refuseWith .mismatch (.balances r.balance r.coinDue) s
  else
    match kind.bind (fun k => (postResult k x r).map (fun q => (k, q))) with
    | none => refuse .range s
    | some (k, balance, coinDue) => withRoom 1 1 s (applyPost p k x balance coinDue s)

/-- POST at its owning block: the checks of R14. A kind that names none is refused at the first RANGE check (R202). -/
def postOwner (f : Frame) (consumed : Bool) (s : State) : Answer × State :=
  if s.auditRequired then refuse .audit s
  else
    match readU4 (field f.operands 1 4) with
    | .error p => refuseDigit 1 p s
    | .ok x =>
      match expectedBalance f.operands with
      | .error p => refuseDigit 2 p s
      | .ok expected =>
        if x = 0 then refuse .zeroAmount s
        else judgePost f.port (postKindOf (byteField f.operands 0)) x expected consumed s

/-- POST (R14 to R16). -/
def execPost (f : Frame) (s : State) : Host.Outcome State Fault Refusal :=
  done (takeConsuming .post f (postOwner f) s)

/-! ## Handover (R17) -/

/-- The option code a record carries (R203). -/
def HandoverOption.code : HandoverOption → Nat
  | .exchange => 1
  | .moveAll => 2
  | .moveAmount => 3

/-- The two accounts after a HANDOVER, or none where RANGE (R17). -/
def handoverResult (o : HandoverOption) (a : Nat) (src dst : Account) : Option (Account × Account) :=
  match o with
  | .exchange => some (dst, src)
  | .moveAll =>
    if balanceInRange (dst.balance + src.balance) ∧ dst.coinDue + src.coinDue ≤ Config.coinDueMax then
      some ({ src with balance := 0, coinDue := 0 },
        { dst with balance := dst.balance + src.balance, coinDue := dst.coinDue + src.coinDue })
    else none
  | .moveAmount =>
    if balanceInRange (src.balance - a) ∧ balanceInRange (dst.balance + a) then
      some ({ src with balance := src.balance - a }, { dst with balance := dst.balance + a })
    else none

/-- The amount a HANDOVER record carries (R17). -/
def handoverAmount (o : HandoverOption) (a : Nat) (src : Account) : Int :=
  match o with
  | .exchange => 0
  | .moveAll => src.balance
  | .moveAmount => a

/-- An applied HANDOVER (R17). -/
def applyHandover (o : HandoverOption) (a : Nat) (src dst : AccountId) (after : Account × Account) (s : State) :
    Answer × State :=
  let amount := handoverAmount o a (s.position.account src)
  let s := writeAccount src after.1.balance after.1.coinDue s
  let s := writeAccount dst after.2.balance after.2.coinDue s
  let (_, s) :=
    stageApplied
      { kind := .handover, outcome := o.code, amount := amount,
        extra := accountCode (some src) * 256 + accountCode (some dst) }
      s
  ok (.handedOver after.1.balance after.1.coinDue after.2.balance after.2.coinDue) s

/-- Checks 4 to 6 of HANDOVER (R17): the source's record is read before the destination's, a DESIGN CHOICE
(notes/assumptions/65.md). -/
def judgeHandover (o : HandoverOption) (a : Nat) (src dst : AccountId) (s : State) : Answer × State :=
  let (srcFine, s) := verifyAccount src s
  let (dstFine, s) := verifyAccount dst s
  if !(srcFine && dstFine) then refuse .audit s
  else
    match handoverResult o a (s.position.account src) (s.position.account dst) with
    | none => refuse .range s
    | some after => withRoom 1 1 s (applyHandover o a src dst after s)

/-- HANDOVER between two accounts: checks 1 to 3 (R17). -/
def handoverBetween (src dst : AccountId) (option : Option HandoverOption) (amount : Except Nat Nat) (s : State) :
    Answer × State :=
  if s.auditRequired then refuse .audit s
  else if src = dst then refuse .range s
  else
    match option with
    | none => refuse .range s
    | some .moveAmount =>
      match amount with
      | .error p => refuseDigit 1 p s
      | .ok a => if a = 0 then refuse .zeroAmount s else judgeHandover .moveAmount a src dst s
    | some o => judgeHandover o 0 src dst s

/-- HANDOVER at its owning block; account codes that name none are refused before its first check (R202). -/
def handoverOwner (ops : List Byte) (s : State) : Answer × State :=
  match accountOf (byteField ops 0), accountOf (byteField ops 1) with
  | some src, some dst => handoverBetween src dst (handoverOptionOf (byteField ops 2)) (readU4 (field ops 3 4)) s
  | _, _ => refuse .range s

/-- HANDOVER (R17). -/
def execHandover (f : Frame) (s : State) : Host.Outcome State Fault Refusal :=
  done (takeRequest .handover f (handoverOwner f.operands) s)

/-! ## Loading (R18) -/

/-- The counts a cassette may be given: for RECYCLE and DISPENSE, none but its own denomination's, and that one defined
(R18, R195). That a DEPOSIT cassette, like a bin, takes a count of a denomination that is not defined is a DESIGN CHOICE
(notes/assumptions/104.md). -/
def countsFit (values : Quad Nat) (c : Cassette) (counts : Quad Nat) : Bool :=
  Ix.all.all (fun d =>
    counts.get d == 0 || c.mode == .deposit || (c.index == some d && values.get d != 0))

/-- An accepted LOAD (R18). -/
def acceptLoad (k : Ix) (counts : Quad Nat) (s : State) : Answer × State :=
  let c := { s.position.cassettes.get k with counts := counts, pickFailed := false }
  let s := s.onPosition (fun p => { p with flows := { p.flows with loaded := Quad.add p.flows.loaded counts } })
  let s := writeCassetteAs k { c with state := c.derivedState } s
  let (_, s) :=
    stageApplied { kind := .load, counts := counts.toInt, amount := s.value counts, extra := k.number } (bumpGeneration s)
  ok .none s

/-- LOAD of a cassette: checks 2 to 6 (R18), its record verified as it is read (R9; notes/assumptions/22.md). -/
def loadCassette (k : Ix) (counts : Quad Nat) (s : State) : Answer × State :=
  match s.ownershipCheck .s with
  | some why => refuse why s
  | none =>
    let (fine, s) := verifyCassette k s
    let c := s.position.cassettes.get k
    if !fine then refuse .audit s
    else if c.state ≠ .uncounted then refuse .inUse s
    else if countsFit s.settings.denominations c counts = false then refuse .range s
    else if c.capacity < counts.total then refuse .range s
    else withMargins 1 1 s (acceptLoad k counts s)

/-- LOAD at its owning block (R18). -/
def loadOwner (ops : List Byte) (s : State) : Answer × State :=
  match ixOf (byteField ops 0) with
  | none => refuse .range s
  | some k => loadCassette k (countsField ops 1) s

/-- LOAD (R18). -/
def execLoad (f : Frame) (s : State) : Host.Outcome State Fault Refusal :=
  done (takeRequest .load f (loadOwner f.operands) s)

/-! ## Unloading (R19 to R21) -/

/-- A cassette is released for removal (R19), its record verified as it is read (R9; notes/assumptions/22.md). The lock that UNLOAD opens
is no field of its own: it stands open exactly in state RELEASED, a DESIGN CHOICE, since R19 does not say when it closes again
(notes/assumptions/64.md). -/
def releaseCassette (k : Ix) (s : State) : Answer × State :=
  let (fine, s) := verifyCassette k s
  let c := s.position.cassettes.get k
  if !fine then refuse .audit s
  else if c.state = .absent then refuse .inUse s
  else if c.state = .released then ok .none s
  else ok .none (bumpGeneration (writeCassetteAs k { c with state := .released } s))

/-- The counts a bin is booked out with: the compartment's one count in the first field (R21). -/
def Position.binCounts (p : Position) : UnloadPlace → Quad Nat
  | .reject => p.reject
  | .retract => p.retract
  | .suspect => ⟨p.suspect, 0, 0, 0⟩
  | .cassette _ => Quad.zero

/-- A bin is booked out (R21). -/
def Position.unloadBin (p : Position) (x : UnloadPlace) : Position :=
  match x with
  | .reject => { p with reject := Quad.zero, flows := { p.flows with unloaded := Quad.add p.flows.unloaded p.reject } }
  | .retract => { p with retract := Quad.zero, flows := { p.flows with unloaded := Quad.add p.flows.unloaded p.retract } }
  | .suspect => { p with suspect := 0, suspectOut := p.suspectOut + p.suspect }
  | .cassette _ => p

/-- An accepted UNLOAD of a bin (R21). -/
def acceptUnloadBin (x : UnloadPlace) (s : State) : Answer × State :=
  let counts := s.position.binCounts x
  let value : Nat := if x = .suspect then 0 else s.value counts
  let s := bumpGeneration (s.onPosition (fun p => p.unloadBin x))
  let (_, s) := stageApplied { kind := .unload, counts := counts.toInt, amount := value, extra := placeCode x } s
  ok .none s

/-- UNLOAD of a place: the checks of R19 and R21. -/
def unloadPlace (x : UnloadPlace) (s : State) : Answer × State :=
  match s.ownershipCheck .s with
  | some why => refuse why s
  | none =>
    if s.anyOpInFlight then refuse .busy s
    else
      match x with
      | .cassette k => releaseCassette k s
      | .reject => withMargins 1 1 s (acceptUnloadBin .reject s)
      | .retract => withMargins 1 1 s (acceptUnloadBin .retract s)
      | .suspect => withMargins 1 1 s (acceptUnloadBin .suspect s)

/-- UNLOAD at its owning block; a place code that names none is refused before its first check (R202). -/
def unloadOwner (ops : List Byte) (s : State) : Answer × State :=
  match unloadPlaceOf (byteField ops 0) with
  | none => refuse .range s
  | some x => unloadPlace x s

/-- UNLOAD of a cassette (R19). -/
def execUnload (f : Frame) (s : State) : Host.Outcome State Fault Refusal :=
  done (takeRequest .unload f (unloadOwner f.operands) s)

/-- UNLOAD of a bin or the compartment (R21). -/
def execUnloadBin (f : Frame) (s : State) : Host.Outcome State Fault Refusal :=
  done (takeRequest .unload f (unloadOwner f.operands) s)

/-! ## Removal and insertion (R20, R22, R23) -/

/-- The cassette-present sensor of a slot changes. -/
def setPresent (k : Ix) (present : Bool) (s : State) : State :=
  { s with pins := { s.pins with cassettePresent := s.pins.cassettePresent.set k present } }

/-- A removed cassette's record: zero counts, ABSENT, flag clear (R20, R22). -/
def emptyRecord (k : Ix) (s : State) : State :=
  let c := s.position.cassettes.get k
  writeCassetteAs k { c with counts := Quad.zero, state := .absent, pickFailed := false } s

/-- A RELEASED cassette is removed: booked to UNLOADED (R20). -/
def removeReleased (k : Ix) (s : State) : State :=
  let counts := (s.position.cassettes.get k).counts
  let s := s.onPosition (fun p => { p with flows := { p.flows with unloaded := Quad.add p.flows.unloaded counts } })
  let s := bumpGeneration (emptyRecord k s)
  (eventApplied { kind := .unload, counts := counts.toInt, amount := s.value counts, extra := k.number } s).2

/-- A cassette is removed without release: booked to DISCREPANCY, with its audit cause and zone 3 (R22). -/
def removeUnreleased (k : Ix) (s : State) : State :=
  let counts := (s.position.cassettes.get k).counts
  let s := s.onPosition (fun p => p.addDiscrepancy counts.toInt)
  let s := addCause .unauthorisedRemoval (emptyRecord k s)
  let s := bumpGeneration s
  let s := (eventApplied { kind := .removal, counts := counts.toInt, amount := s.value counts, extra := k.number } s).2
  momentary 3 none s

/-- A commit whose chosen cassette is removed: no entry will be reported (R112). -/
def loseDestination (k : Ix) (s : State) : State :=
  s.onEscrow (fun e =>
    { e with
      op :=
        match e.op with
        | some (.commit o) => some (.commit { o with lost := o.lost || o.chosen == some k })
        | other => other })

/-- The store books a removal (R20, R22), its record verified as it is read (R9; notes/assumptions/22.md); that of an ABSENT
cassette cannot be reported. -/
def bookRemoval (k : Ix) (s : State) : State :=
  let (_, s) := verifyCassette k s
  match (s.position.cassettes.get k).state with
  | .absent => s
  | .released => removeReleased k (loseDestination k s)
  | _ => removeUnreleased k (loseDestination k s)

/-- The store takes an insertion into an empty slot: UNCOUNTED (R23), its record verified as it is read (R9). -/
def bookInsertion (k : Ix) (s : State) : State :=
  let (_, s) := verifyCassette k s
  let c := s.position.cassettes.get k
  if c.state = .absent then
    writeCassetteAs k { c with counts := Quad.zero, state := .uncounted, pickFailed := false } s
  else s

/-- The sensor reports a removal; the store books it while the blocks run, and start-up reads the sensor otherwise (R198). -/
def cassetteRemoved (k : Ix) (s : State) : State :=
  if s.pins.cassettePresent.get k then event (bookRemoval k) (setPresent k false s) else s

/-- CASSETTE_REMOVAL (R20, R22). -/
def execCassetteRemoval (k : Ix) (s : State) : Host.Outcome State Fault Refusal := done (cassetteRemoved k s)

/-- The sensor reports an insertion (R23). -/
def cassetteInserted (k : Ix) (s : State) : State :=
  if s.pins.cassettePresent.get k then s else event (bookInsertion k) (setPresent k true s)

/-- CASSETTE_INSERTION (R23). -/
def execCassetteInsertion (k : Ix) (s : State) : Host.Outcome State Fault Refusal := done (cassetteInserted k s)

/-! ## Reconcile (R24, R25) -/

/-- The counted quantities of a RECONCILE: the cassette items, the bins, the compartment (11.2). -/
structure Counted where
  items : List (Nat × Quad Nat)
  reject : Quad Nat
  retract : Quad Nat
  suspect : Nat

/-- n cassette items of nine bytes from an offset. -/
def itemsOf (ops : List Byte) : Nat → Nat → List (Nat × Quad Nat)
  | 0, _ => []
  | n + 1, at_ => (byteField ops at_, countsField ops (at_ + 1)) :: itemsOf ops n (at_ + 9)

/-- The operands of RECONCILE. -/
def countedOf (ops : List Byte) : Counted :=
  let n := (ops.length - 17) / 9
  { items := itemsOf ops n 0, reject := countsField ops (n * 9), retract := countsField ops (n * 9 + 8),
    suspect := byteField ops (n * 9 + 16) }

/-- The items given for a cassette. -/
def Counted.itemsFor (c : Counted) (k : Ix) : List (Quad Nat) :=
  (c.items.filter (fun x => x.1 == k.number)).map (fun x => x.2)

/-- The counted vector of a cassette. -/
def Counted.vector (c : Counted) (k : Ix) : Quad Nat := (c.itemsFor k).headD Quad.zero

/-- A cassette is present by its record. -/
def State.recorded (s : State) (k : Ix) : Bool := (s.position.cassettes.get k).state != .absent

/-- One vector for each cassette that is not ABSENT, none for an ABSENT one (R24, check 5). -/
def State.itemsComplete (s : State) (c : Counted) : Bool :=
  Ix.all.all (fun k => (c.itemsFor k).length == (if s.recorded k then 1 else 0))

/-- The ranges of R24's check 6, the counts of a bin not held against the denominations defined (R195; notes/assumptions/104.md); an item
whose number is no cassette fails it too (notes/assumptions/21.md). -/
def State.countedInRange (s : State) (c : Counted) : Bool :=
  c.items.all (fun x => (ixOf x.1).isSome) &&
    Ix.all.all (fun k =>
      let r := s.position.cassettes.get k
      !s.recorded k ||
        (countsFit s.settings.denominations r (c.vector k) && (c.vector k).total ≤ r.capacity)) &&
    c.reject.total ≤ Config.rejectNotes && c.retract.total ≤ Config.retractNotes && c.suspect ≤ Config.suspectNotes

/-- The differences of a place: recorded minus counted (R25). -/
def differences (recorded counted : Quad Nat) : Quad Int :=
  Quad.zip (fun (a b : Nat) => (a : Int) - b) recorded counted

/-- A RECONCILE record of a place (R25). -/
def reconcileDraft (s : State) (place : Nat) (counts : Quad Int) : Draft :=
  { kind := .reconcile, counts := counts, amount := valueOfInt s.settings.denominations counts, extra := place }

/-- A counted cassette: its difference to DISCREPANCY, its counts as counted (R25, step 1). -/
def countCassette (c : Counted) (s : State) (k : Ix) : State :=
  if s.recorded k then
    s.onPosition (fun p =>
      let r := p.cassettes.get k
      (p.addDiscrepancy (differences r.counts (c.vector k))).setCassette k { r with counts := c.vector k })
  else s

/-- The bins counted (R25, step 1). -/
def countBins (c : Counted) (s : State) : State :=
  s.onPosition (fun p =>
    { (p.addDiscrepancy (differences p.reject c.reject)).addDiscrepancy (differences p.retract c.retract) with
      reject := c.reject, retract := c.retract, suspect := c.suspect })

/-- The drafts of the place records (R25, step 2). That they stand in the order in which R25's step 1 names the places, the cassettes by
number, and that the compartment's one difference stands in the first count field, is a DESIGN CHOICE (notes/assumptions/80.md). -/
def State.placeDrafts (s : State) (c : Counted) : List Draft :=
  (Ix.all.filter s.recorded).map
      (fun k => reconcileDraft s k.number (differences (s.position.cassettes.get k).counts (c.vector k))) ++
    [reconcileDraft s 5 (differences s.position.reject c.reject),
      reconcileDraft s 6 (differences s.position.retract c.retract),
      { kind := .reconcile, counts := ⟨(s.position.suspect : Int) - c.suspect, 0, 0, 0⟩, extra := 7 }]

/-- The state a counted cassette takes (R25, step 3), its check word over its present contents (step 5). -/
def settleCassette (s : State) (k : Ix) : State :=
  let c := s.position.cassettes.get k
  writeCassette k (if c.state = .uncounted then { c with state := c.derivedState } else c) s

/-- The counts in the places other than DISCREPANCY (R25, step 4). -/
def State.placeCounts (s : State) : Quad Nat :=
  let p := s.position
  let cassettes := Ix.all.foldl (fun q k => Quad.add q (p.cassettes.get k).counts) Quad.zero
  Quad.add cassettes
    (Quad.add (stackNotes s.escrow.stack)
      (Quad.add p.transit (Quad.add (Quad.add p.pockets.a p.pockets.b) (Quad.add p.reject p.retract))))

/-- A new period: OPENING from the places, the other flows and DISCREPANCY at zero; check words, causes and the integrity
fault record; the generation (R25, steps 4 to 6). -/
def openPeriod (s : State) : State :=
  let opening := s.placeCounts
  bumpGeneration
    (s.onPosition (fun p =>
      { p with
        flows := { Flows.zero with opening := opening }
        discrepancy := Quad.all 0
        suspectIn := 0
        suspectOut := 0
        drawerA := { p.drawerA with intact := true }
        drawerB := { p.drawerB with intact := true }
        branchCash := { p.branchCash with intact := true }
        causes := Causes.empty
        integrityFault := none }))

/-- An accepted RECONCILE: the six steps of R25 in order. -/
def acceptReconcile (c : Counted) (s : State) : Answer × State :=
  let drafts := s.placeDrafts c
  let s := countBins c (Ix.all.foldl (countCassette c) s)
  let s := drafts.foldl (fun s d => (stage d s).2) s
  let total := s.position.discrepancy
  let (n, s) := stageApplied (reconcileDraft s 0 total) s
  let s := Ix.all.foldl settleCassette s
  ok (.reconciled n total) (raiseRestriction (openPeriod s))

/-- The number of records of a RECONCILE: the places counted and the closing record (R162). -/
def State.reconcileRecords (s : State) : Nat := (Ix.all.filter s.recorded).length + 4

/-- A dispense waits in DELAYING or QUEUED, or a module operation is in flight (R24, check 3). -/
def State.anyOperation (s : State) : Bool :=
  s.anyOpInFlight || (s.dispense .a).state != .idle || (s.dispense .b).state != .idle

/-- Checks 5 to 7 of RECONCILE, and what follows (R24). -/
def reconcileCounted (c : Counted) (s : State) : Answer × State :=
  if s.itemsComplete c = false then refuse .length s
  else if s.countedInRange c = false then refuse .range s
  else withRoom s.reconcileRecords s.reconcileRecords s (acceptReconcile c s)

/-- RECONCILE at its owning block: the checks of R24. From check 5 on the cassette records are read and verified; a failing one has
the effects of R9 and refuses nothing, since RECONCILE is taken whatever the audit state (notes/assumptions/22.md). -/
def reconcileOwner (ops : List Byte) (s : State) : Answer × State :=
  let c := countedOf ops
  match s.ownershipCheck .s with
  | some why => refuse why s
  | none =>
    if s.escrow.stack ≠ [] then refuse .escrowNotEmpty s
    else if s.anyOperation then refuse .busy s
    else if s.path.state = .jammed then refuse .jammed s
    else reconcileCounted c (verifyCassettes s).2

/-- RECONCILE (R24, R25). -/
def execReconcile (f : Frame) (s : State) : Host.Outcome State Fault Refusal :=
  done (takeRequest .reconcile f (reconcileOwner f.operands) s)

/-! ## POSITION_READ (R12) -/

/-- The position as it stands, with the integrity status of each record (R12). -/
def State.positionReport (s : State) : PositionReport :=
  { position := s.position, escrow := stackNotes s.escrow.stack,
    cassettesOk := s.position.cassettes.map (fun c => c.intact), drawerAOk := s.position.drawerA.intact,
    drawerBOk := s.position.drawerB.intact, branchOk := s.position.branchCash.intact, moduleState := s.path.state }

/-- POSITION_READ at its owning block: the report, and R9 for each record that fails (R12), in the order of the report, a DESIGN CHOICE
(notes/assumptions/65.md). -/
def positionReadOwner (s : State) : Answer × State :=
  let report := s.positionReport
  let (_, s) := verifyCassettes s
  let (_, s) := verifyAccount .drawerA s
  let (_, s) := verifyAccount .drawerB s
  let (_, s) := verifyAccount .branchCash s
  ok (.position report) s

/-- POSITION_READ (R12). -/
def execPositionRead (f : Frame) (s : State) : Host.Outcome State Fault Refusal :=
  done (takeRequest .positionRead f positionReadOwner s)

end Sys2Proof.Machine
end

