-- ==== Sys2Proof/Machine/Dispensing.lean ====
section
/-!
DEFINITION. The commands of the dispense controller: DISPENSE, CANCEL, DELAY_END, PRESENT_TIMER_EXPIRY, POCKET_EMPTY (04).
-/
namespace Sys2Proof.Machine

/-- The module state check: JAMMED or BUSY, or none in READY (R57). -/
def State.moduleCheck (s : State) : Option Reason :=
  match s.path.state with
  | .ready => none
  | .jammed => some .jammed
  | .purging => some .busy

/-- The operands of DISPENSE (R70, 11.2). -/
structure DispenseOperands where
  amount : Except Nat Nat
  cap : Nat
  preference : List Ix
  target : RemainderTarget
  generation : Option Word32

/-- The operands of DISPENSE read from its bytes: the note cap clamped (R39), the order completed (R40), the target by its
default (R44). -/
def dispenseOperands (ops : List Byte) : DispenseOperands :=
  { amount := readU4 (field ops 0 4)
    cap := appliedCap (byteField ops 4)
    preference :=
      preferenceOrder [ixOf (byteField ops 5), ixOf (byteField ops 6), ixOf (byteField ops 7), ixOf (byteField ops 8)]
    target := if byteField ops 9 = 1 then .branch else .own
    generation := if ops.length = 14 then some (BitVec.ofNat 32 (intField ops 10 4)) else none }

/-- The delay applies (R73). -/
def State.delayApplies (s : State) (amount : Nat) (consumed : Bool) : Bool :=
  s.settings.delayThreshold != 0 && s.settings.delayThreshold ≤ amount &&
    (!consumed || s.restricted .dispenseCap || s.restricted .dispenseHalt)

/-- A consumed waiver has its effect: neither DISPENSE_CAP nor DISPENSE_HALT is present (R73). -/
def State.waiverApplies (s : State) (consumed : Bool) : Bool :=
  consumed && !(s.restricted .dispenseCap || s.restricted .dispenseHalt)

/-- An accepted DISPENSE fills the port's record (R72). -/
def acceptedRecord (s : State) (o : DispenseOperands) (amount : Nat) (m : MixResult) (start : Nat) : Dispense :=
  { Dispense.idle with
    amount := amount, cap := o.cap, preference := o.preference, target := o.target, payable := m.payable,
    unpaid := m.unpaid, capped := m.payable < amount, mix := m.mix, remainder := m.remainder,
    limit := s.settings.remainderLimit, startSequence := start }

/-- The effects of an accepted DISPENSE: DISPENSE_START, the reservation, the record, and DELAYING or PICKING (R72). -/
def acceptDispense (t : Teller) (o : DispenseOperands) (amount : Nat) (m : MixResult) (consumed : Bool) (s : State) :
    Answer × State :=
  let delayed := s.delayApplies amount consumed
  let applied := s.waiverApplies consumed
  let account := remainderAccount t o.target
  let detail : DispenseDetail :=
    { amount := amount, payable := 0, remainder := m.remainder, unpaid := 0, unbooked := 0, cap := o.cap,
      preference := o.preference, account := some account, cause := if delayed then 1 else 0 }
  let (n, s) :=
    stageApplied
      { kind := .dispenseStart, port := some t.port, counts := m.mix.toInt, amount := m.payable, detail := .dispense detail }
      s
  let start := n.getD 0
  let s := reserve t.port .dispense start s
  let s := s.onDispense t (fun _ => acceptedRecord s o amount m start)
  let delay := if delayed then s.settings.delayTime else 0
  accepted
    (.dispenseAccepted
      { startSequence := start, cap := o.cap, preference := o.preference, mix := m, account := account,
        waiverConsumed := consumed, waiverApplied := applied, delay := delay })
    (if delayed then enterDelaying t s else enterPicking t s)

/-- Checks 10 to 13 of DISPENSE (R71). -/
def judgeDispense (t : Teller) (o : DispenseOperands) (amount : Nat) (consumed : Bool) (s : State) : Answer × State :=
  match requestMix t amount o.cap o.preference o.target s with
  | (.failed why carried, s) => refuseWith why carried s
  | (.payable m, s) =>
    if s.position.binsFull then refuse .binFull s
    else if s.delayApplies amount consumed ∧ s.escrow.stack ≠ [] then refuse .escrowNotEmpty s
    else withMargins 2 1 s (acceptDispense t o amount m consumed s)

/-- A refusal STALE carries the generation and each cassette's counts (R71). -/
def State.staleResults (s : State) : Results :=
  .stale s.position.generation (s.position.cassettes.map (fun c => c.counts))

/-- A DISPENSE that fails check 9: the reply reads the four cassette records, and where one fails its word the request is refused
AUDIT (R9, R71; notes/assumptions/22.md). -/
def refuseStale (s : State) : Answer × State :=
  let (fine, s) := verifyCassettes s
  if fine then refuseWith .stale s.staleResults s else refuse .audit s

/-- Checks 2 to 9 of DISPENSE, and what follows (R71). -/
def dispenseAt (t : Teller) (ops : List Byte) (consumed : Bool) (s : State) : Answer × State :=
  let o := dispenseOperands ops
  if (s.dispense t).state ≠ .idle ∨ s.opInFlight t.port = true then refuse .busy s
  else
    match s.ownershipCheck t.port with
    | some why => refuse why s
    | none =>
      match s.moduleCheck with
      | some why => refuse why s
      | none =>
        if s.auditRequired then refuse .audit s
        else if s.restricted .dispenseHalt ∨ s.restricted .moduleLock then refuse .halted s
        else
          match o.amount with
          | .error p => refuseDigit 1 p s
          | .ok amount =>
            if amount = 0 then refuse .zeroAmount s
            else if o.generation.getD s.position.generation ≠ s.position.generation then
              refuseStale s
            else judgeDispense t o amount consumed s

/-- DISPENSE at its owning block (R71); the role check has been made at the port. -/
def dispenseOwner (f : Frame) (consumed : Bool) (s : State) : Answer × State :=
  match f.port.teller? with
  | some t => dispenseAt t f.operands consumed s
  | none => refuse .role s

/-- DISPENSE (R70 to R74, R79). -/
def execDispense (f : Frame) (s : State) : Host.Outcome State Fault Refusal :=
  done (takeConsuming .dispense f (dispenseOwner f) s)

/-- The draw back of a window's stopped dispense is under way (R83, R89). -/
def State.stopDraws (s : State) (t : Teller) : Bool :=
  match s.path.draw with
  | some d =>
    match d.cause with
    | .stop u _ => u == t
    | .retract _ => false
    | .purge => false
  | none => false

/-- CANCEL of a dispense that is not ending (R88). In PICKING with the pick in hand it is ACCEPTED, and a stop already fixed keeps its
outcome (R89; notes/assumptions/15.md). -/
def cancelAt (t : Teller) (s : State) : Answer × State :=
  let d := s.dispense t
  let cancelled (s : State) : Answer × State := ok .none (endDispense t 5 Quad.zero false none .none s)
  match d.state with
  | .idle => refuse .noOperation s
  | .delaying => cancelled s
  | .queued => if d.deferred then cancelled s else cancelled (leaveWaiting (.delayed t) s)
  | .picking =>
    if s.stopDraws t then ok .none s
    else if s.path.pick.isSome then
      accepted .none (s.onDispense t (fun d => { d with stop := d.stop.or (some .cancelled) }))
    else accepted .none (beginStop t (d.stop.getD .cancelled) s)
  | .presenting => accepted .none (enterRetracting t s)
  | .retracting => ok .none s

/-- CANCEL at its owning block (R88); a dispense whose end waits in the end hold is cancelled no more
(notes/assumptions/15.md). -/
def cancelOwner (f : Frame) (s : State) : Answer × State :=
  match f.port.teller? with
  | some t => if (s.dispense t).ending then ok .none s else cancelAt t s
  | none => refuse .role s

/-- CANCEL (R88, R89). -/
def execCancel (f : Frame) (s : State) : Host.Outcome State Fault Refusal :=
  done (takeRequest .cancel f (cancelOwner f) s)

/-- The clock reaches the delay end of a window's dispense (R76). -/
def delayEnded (t : Teller) (s : State) : State :=
  let d := s.dispense t
  if d.state = .delaying ∧ d.ending = false ∧ delayReached s.clock.count d.delayEnd = true then endDelay t s else s

/-- DELAY_END (R76). -/
def execDelayEnd (t : Teller) (s : State) : Host.Outcome State Fault Refusal := done (event (delayEnded t) s)

/-- The present timer of a window runs. -/
def State.presents (s : State) (t : Teller) : Bool :=
  (s.dispense t).state == .presenting && !(s.dispense t).ending && (s.dispense t).presentTimer.isSome

/-- PRESENT_TIMER_EXPIRY (R86). -/
def execPresentTimerExpiry (t : Teller) (s : State) : Host.Outcome State Fault Refusal :=
  done (event (fun s => if s.presents t then enterRetracting t s else s) s)

/-- The outcome of a dispense whose pocket was emptied (R90). -/
def Dispense.takenOutcome (d : Dispense) : Nat := if d.short.isSome then 3 else if d.capped then 2 else 1

/-- The pocket is empty: the timer stops, the shutter closes, the take is booked and the dispense ends (R85). -/
def pocketEmptied (t : Teller) (s : State) : State :=
  let d := s.dispense t
  endDispense t d.takenOutcome d.presented d.short.isNone none .none
    (s.onDispense t (fun d => { d with presentTimer := none, shutterOpen := false }))

/-- POCKET_EMPTY (R85). -/
def execPocketEmpty (t : Teller) (s : State) : Host.Outcome State Fault Refusal :=
  done (event (fun s => if s.presents t then pocketEmptied t s else s) s)

end Sys2Proof.Machine
end

