-- ==== Sys2Proof/Machine/Depositing.lean ====
section
/-!
DEFINITION. The commands of the escrow controller: DEPOSIT_OPEN, DEPOSIT_CLOSE, INSERT, RETURN_LAST, RETURN_ALL, COMPARE, COMMIT and
the reports of the feeder, the validator and the drum (05).
-/
namespace Sys2Proof.Machine

/-! ## Shared checks (R96) -/

/-- The escrow-open check (R96). -/
def State.escrowOpenFor (s : State) (p : Port) : Bool :=
  s.escrow.isOpen &&
    (match p.teller? with
      | some t => s.escrow.owner == t
      | none => s.claim.owner == .hold)

/-- The own-operation and ownership checks (R96, R48). -/
def ownModule (p : Port) (s : State) (k : Answer × State) : Answer × State :=
  if s.opInFlight p then refuse .busy s
  else
    match s.ownershipCheck p with
    | some why => refuse why s
    | none => k

/-- The own-operation, ownership and escrow-open checks (R96). -/
def ownEscrow (p : Port) (s : State) (k : Answer × State) : Answer × State :=
  ownModule p s (if s.escrowOpenFor p then k else refuse .notOpen s)

/-- The module state check of a request that moves notes (R57, R96). -/
def moduleReady (s : State) (k : Answer × State) : Answer × State :=
  match s.moduleCheck with
  | some why => refuse why s
  | none => k

/-- The value of all fit and unfit notes in the stack (R110). -/
def State.escrowTotal (s : State) : Nat := s.value (stackNotes s.escrow.stack)

/-- The notes in the stack. -/
def Escrow.notes (e : Escrow) : Nat := (stackNotes e.stack).total

/-! ## Opening and closing (R98, R99) -/

/-- A declared amount operand: absent, or read and checked. -/
def declaredOperand (present : Bool) (bytes : List Byte) : Except Nat (Option Nat) :=
  if present then (readU4 bytes).map some else .ok none

/-- DEPOSIT_OPEN from a window (R98). -/
def depositOpenAt (t : Teller) (ops : List Byte) (s : State) : Answer × State :=
  ownModule t.port s
    (if s.escrow.stack ≠ [] then refuse .escrowNotEmpty s
    else
      match purposeOf (byteField ops 0) with
      | none => refuse .range s
      | some purpose =>
        match declaredOperand (ops.length == 5) (field ops 1 4) with
        | .error p => refuseDigit 1 p s
        | .ok declared =>
          ok (.escrowRecord t purpose declared .none)
            (s.onEscrow (fun e =>
              { e with isOpen := true, owner := t, purpose := purpose, declared := declared, verdict := .none })))

/-- DEPOSIT_OPEN at its owning block (R98). -/
def depositOpenOwner (f : Frame) (s : State) : Answer × State :=
  match f.port.teller? with
  | some t => depositOpenAt t f.operands s
  | none => refuse .role s

/-- DEPOSIT_OPEN (R98). -/
def execDepositOpen (f : Frame) (s : State) : Host.Outcome State Fault Refusal :=
  done (takeRequest .depositOpen f (depositOpenOwner f) s)

/-- DEPOSIT_CLOSE at its owning block (R99). -/
def depositCloseOwner (f : Frame) (s : State) : Answer × State :=
  ownEscrow f.port s
    (if s.escrow.stack ≠ [] then refuse .escrowNotEmpty s
    else ok .none (s.onEscrow (fun e => { e with isOpen := false })))

/-- DEPOSIT_CLOSE (R99). -/
def execDepositClose (f : Frame) (s : State) : Host.Outcome State Fault Refusal :=
  done (takeRequest .depositClose f (depositCloseOwner f) s)

/-! ## Inserting (R100 to R105) -/

/-- A bundle record with every count 0 and both flags clear (R100). -/
def Bundle.fresh : Bundle :=
  { fit := Quad.zero, unfit := Quad.zero, suspect := 0, returned := 0, truncated := false, suspectReturned := false }

/-- An accepted INSERT: the reservation, the feeding bundle, the feed (R100). That its misses are counted from 0 is a DESIGN CHOICE
(R102, R116; notes/assumptions/90.md). -/
def acceptInsert (t : Teller) (s : State) : Answer × State :=
  let s := reserve t.port .insert 0 s
  accepted .none
    (s.onEscrow (fun e =>
      { e with
        stack := Bundle.fresh :: e.stack
        op :=
          some (.insert
            { port := t, note := .none, misses := 0, intakeEmpty := false, locked := false, ended := none }) }))

/-- INSERT from a window: the checks of R100. -/
def insertAt (t : Teller) (s : State) : Answer × State :=
  ownEscrow t.port s
    (moduleReady s
      (if s.auditRequired then refuse .audit s
      else if s.restricted .moduleLock then refuse .halted s
      else if Config.escrowBundles ≤ s.escrow.stack.length ∨ Config.escrowNotes ≤ s.escrow.notes then
        refuse .escrowFull s
      else withMargins 1 0 s (acceptInsert t s)))

/-- INSERT at its owning block (R100). -/
def insertOwner (f : Frame) (s : State) : Answer × State :=
  match f.port.teller? with
  | some t => insertAt t s
  | none => refuse .role s

/-- INSERT (R100). -/
def execInsertNotes (f : Frame) (s : State) : Host.Outcome State Fault Refusal :=
  done (takeRequest .insertNotes f (insertOwner f) s)

/-- The INSERT that is feeding. -/
def State.feeding (s : State) : Option InsertOp :=
  match s.escrow.op with
  | some (.insert o) => if o.ended.isSome then none else some o
  | _ => none

/-- The INSERT in flight is replaced. -/
def setInsert (o : InsertOp) (s : State) : State := s.onEscrow (fun e => { e with op := some (.insert o) })

/-- The feeding bundle, on top of the stack, is changed. -/
def onFeeding (f : Bundle → Bundle) (s : State) : State :=
  s.onEscrow (fun e => { e with stack := match e.stack with | b :: bs => f b :: bs | [] => [] })

/-- The timing of an escrow note starts at a sensor, in place of any before (R62). -/
def timeEscrow (at_ : Sensor) (s : State) : State :=
  (stopTimers .escrow s).onPath (fun q => { q with timers := q.timers ++ [⟨.escrow, at_, false⟩] })

/-- The feeder takes a note: its timing begins and the misses are forgotten (R102). A lock present stops the take, and the feed ends
with cause LOCK (R103). -/
def noteTaken (s : State) : State :=
  match s.feeding with
  | none => s
  | some o =>
    if o.note = .none then
      if s.restricted .moduleLock then endInsert o .lock s
      else timeEscrow (.intake o.port) (setInsert { o with note := .validating, misses := 0 } s)
    else s

/-- FEED_TAKE (R102). -/
def execFeedTake (s : State) : Host.Outcome State Fault Refusal := done (event noteTaken s)

/-- A feed attempt delivers no note: the feed ends under a lock, or at the third in a row (R102, R103). -/
def noteMissed (s : State) : State :=
  match s.feeding with
  | none => s
  | some o =>
    if o.note = .none then
      if s.restricted .moduleLock then endInsert o .lock s
      else if Config.feedMisses ≤ o.misses + 1 then endInsert { o with misses := o.misses + 1 } .feedFailure s
      else setInsert { o with misses := o.misses + 1 } s
    else s

/-- FEED_MISS (R102). -/
def execFeedMiss (s : State) : Host.Outcome State Fault Refusal := done (event noteMissed s)

/-- A genuine note at its verdict: the ACCEPTED flow and TRANSIT (R101). -/
def acceptNote (d : Ix) (s : State) : State :=
  s.onPosition (fun p =>
    { p with
      transit := Quad.plus p.transit d 1
      flows := { p.flows with accepted := Quad.plus p.flows.accepted d 1 } })

/-- An unreadable note: back to the return pocket (R101). -/
def returnUnread (o : InsertOp) (s : State) : State :=
  setInsert { o with note := .toPocket } (onFeeding (fun b => { b with returned := b.returned + 1 }) s)

/-- A genuine note of a defined denomination goes to the drum; of any other kind it reads as UNREADABLE (R101). -/
def routeGenuine (o : InsertOp) (d : Ix) (fit : Bool) (s : State) : State :=
  if s.settings.denominations.get d = 0 then returnUnread o s
  else setInsert { o with note := .toDrum d fit } (acceptNote d s)

/-- A suspect note is retained, or with the compartment full returned (R101). -/
def routeSuspect (o : InsertOp) (s : State) : State :=
  if s.position.suspect < Config.suspectNotes then
    setInsert { o with note := .toCompartment }
      (onFeeding (fun b => { b with suspect := b.suspect + 1 })
        (s.onPosition (fun p => { p with suspect := p.suspect + 1, suspectIn := p.suspectIn + 1 })))
  else
    setInsert { o with note := .toPocket }
      (onFeeding (fun b => { b with returned := b.returned + 1, suspectReturned := true }) s)

/-- A note's verdict: it is booked and routed (R101). -/
def judgeNote (v : NoteVerdict) (s : State) : State :=
  match s.feeding with
  | none => s
  | some o =>
    if o.note = .validating then
      timeEscrow .validator
        (match v with
          | .genuineFit d => routeGenuine o d true s
          | .genuineUnfit d => routeGenuine o d false s
          | .suspect => routeSuspect o s
          | .unreadable => returnUnread o s)
    else s

/-- INSERT_VERDICT (R101). -/
def execInsertVerdict (v : NoteVerdict) (s : State) : Host.Outcome State Fault Refusal := done (event (judgeNote v) s)

/-- The notes of the feeding bundle. -/
def Escrow.feedingNotes (e : Escrow) : Nat :=
  match e.stack with
  | b :: _ => b.notes.total
  | [] => 0

/-- The fed note has reached its destination: the feed ends, or goes on with the next note (R102, R103;
notes/assumptions/17.md gives the order). -/
def noteFed (o : InsertOp) (s : State) : State :=
  let s := stopTimers .escrow s
  if o.locked then endInsert o .lock s
  else if Config.bundleNotes ≤ s.escrow.feedingNotes then endInsert o .bundleLimit s
  else if Config.escrowNotes ≤ s.escrow.notes then endInsert o .escrowLimit s
  else if o.intakeEmpty then endInsert o .intakeEmpty s
  else if s.restricted .moduleLock then endInsert o .lock s
  else setInsert { o with note := .none } s

/-- A note wound onto the drum leaves TRANSIT for the feeding bundle (R101). -/
def windNote (d : Ix) (fit : Bool) (s : State) : State :=
  let n := if s.escrow.stack.isEmpty then 0 else min 1 (s.position.transit.get d)
  let s := s.onPosition (fun p => { p with transit := Quad.minus p.transit d n })
  onFeeding
    (fun b =>
      if fit then { b with fit := Quad.plus b.fit d n } else { b with unfit := Quad.plus b.unfit d n })
    s

/-- The drum-entry report (R101). -/
def drumEntered (s : State) : State :=
  match s.feeding with
  | none => s
  | some o =>
    match o.note with
    | .toDrum d fit => noteFed o (windNote d fit s)
    | _ => s

/-- DRUM_ENTRY (R101, R102). -/
def execDrumEntry (s : State) : Host.Outcome State Fault Refusal := done (event drumEntered s)

/-- The compartment-entry report (R101). -/
def compartmentEntered (s : State) : State :=
  match s.feeding with
  | none => s
  | some o => if o.note = .toCompartment then noteFed o s else s

/-- COMPARTMENT_ENTRY (R101). -/
def execCompartmentEntry (s : State) : Host.Outcome State Fault Refusal := done (event compartmentEntered s)

/-- The intake-present sensor of a window reports its intake empty: with no note in hand the feed ends, otherwise it ends when
the note has arrived (R102). -/
def intakeEmptied (t : Teller) (s : State) : State :=
  match s.feeding with
  | none => s
  | some o =>
    if o.port = t then
      if o.note = .none then endInsert { o with intakeEmpty := true } .intakeEmpty s
      else setInsert { o with intakeEmpty := true } s
    else s

/-- INTAKE_EMPTY (R102, R105). -/
def execIntakeEmpty (t : Teller) (s : State) : Host.Outcome State Fault Refusal := done (event (intakeEmptied t) s)

/-! ## Returning (R106 to R109) -/

/-- An accepted return: the reservation, the verdict NONE, the first bundle (R107, R108). Whether it is a return under HOLD, whose record
names the owner port, is judged here, at acceptance, a DESIGN CHOICE (R109; notes/assumptions/73.md). So is that the record names the top
bundle as the first given back though the return ends HALTED before any note has left it (R109; notes/assumptions/103.md). -/
def acceptReturn (p : Port) (every : Bool) (s : State) : Answer × State :=
  let s := reserve p .return_ 0 s
  accepted .none
    (s.onEscrow (fun e =>
      { e with
        verdict := .none
        op :=
          some (.give
            { port := p, window := e.owner, underHold := s.claim.owner == .hold, every := every, moving := true, note := none,
              given := Quad.zero, bundlesOut := 0, fields := BundleFields.zero, first := e.stack.length, locked := false
              ended := none }) }))

/-- The checks of a return (R107). -/
def returnOwner (p : Port) (every : Bool) (s : State) : Answer × State :=
  ownEscrow p s
    (moduleReady s
      (if s.restricted .moduleLock then refuse .halted s
      else if s.escrow.stack = [] then refuse .escrowEmpty s
      else withRoom 1 0 s (acceptReturn p every s)))

/-- RETURN_LAST (R107). -/
def execReturnLast (f : Frame) (s : State) : Host.Outcome State Fault Refusal :=
  done (takeRequest .returnLast f (returnOwner f.port false) s)

/-- RETURN_ALL (R108). -/
def execReturnAll (f : Frame) (s : State) : Host.Outcome State Fault Refusal :=
  done (takeRequest .returnAll f (returnOwner f.port true) s)

/-- A bundle with one note fewer. -/
def Bundle.without (b : Bundle) (d : Ix) (fit : Bool) : Bundle :=
  if fit then { b with fit := Quad.minus b.fit d 1 } else { b with unfit := Quad.minus b.unfit d 1 }

/-- A note between the drum and its destination is in TRANSIT (R106). -/
def unwindNote (d : Ix) (s : State) : State :=
  s.onPosition (fun p => { p with transit := Quad.plus p.transit d 1 })

/-- The return in flight is replaced. -/
def setReturn (o : ReturnOp) (s : State) : State := s.onEscrow (fun e => { e with op := some (.give o) })

/-- A bundle leaves the stack; its suspect, returned and flag fields go with it (R107). -/
def ReturnOp.bundleOut (o : ReturnOp) (b : Bundle) : ReturnOp :=
  { o with bundlesOut := o.bundlesOut + 1, fields := o.fields.plus b }

/-- One note leaves the drum for the return pocket: the top bundle's next in delivery order (R95, R106, R107). -/
def returnExit (o : ReturnOp) (s : State) : State :=
  match s.escrow.stack with
  | [] => s
  | b :: beneath =>
    match b.next s.settings.denominations with
    | none => s
    | some (d, fit) =>
      let b := b.without d fit
      let gone : Bool := b.notes.total == 0
      let s := unwindNote d (s.onEscrow (fun e => { e with stack := if gone then beneath else b :: beneath }))
      let o := if gone then o.bundleOut b else o
      timeEscrow .drumExit (setReturn { o with note := some d, moving := !gone } s)

/-- A return goes on with the next note, or ends (R107 to R109). -/
def returnGoesOn (o : ReturnOp) (s : State) : State :=
  let s := stopTimers .escrow s
  if o.locked ∨ s.restricted .moduleLock then endReturn o .halted s
  else if s.escrow.stack = [] ∨ (o.every = false ∧ 0 < o.bundlesOut) then endReturn o .complete s
  else setReturn { o with moving := true } s

/-- A note reaches the return pocket: TRANSIT to the RETURNED flow (R107). -/
def bookReturned (d : Ix) (s : State) : State :=
  s.onPosition (fun p =>
    let n := min 1 (p.transit.get d)
    { p with
      transit := Quad.minus p.transit d n
      flows := { p.flows with returned := Quad.plus p.flows.returned d n } })

/-- The return-pocket entry report (R101, R107). -/
def returnPocketEntered (s : State) : State :=
  match s.escrow.op with
  | some (.insert o) => if o.ended.isNone ∧ o.note = .toPocket then noteFed o s else s
  | some (.give o) =>
    match o.note with
    | some d =>
      if o.ended.isNone then
        returnGoesOn { o with note := none, given := Quad.plus o.given d 1 } (bookReturned d s)
      else s
    | none => s
  | _ => s

/-- RETURN_POCKET_ENTRY (R101, R107, R109). -/
def execReturnPocketEntry (s : State) : Host.Outcome State Fault Refusal := done (event returnPocketEntered s)

/-! ## Comparing (R110) -/

/-- The verdict of a COMPARE (R110). -/
def verdictOf (stack : List Bundle) (total declared : Nat) : Verdict :=
  if stack.any (fun b => decide (0 < b.suspect)) then .unordered
  else if total = declared then .match_
  else if total < declared then .short
  else .over

/-- The distance of two amounts. -/
def difference (a b : Nat) : Nat := (a - b) + (b - a)

/-- COMPARE at its owning block (R110). -/
def compareOwner (f : Frame) (s : State) : Answer × State :=
  ownEscrow f.port s
    (if s.escrow.stack = [] then refuse .escrowEmpty s
    else
      match declaredOperand (f.operands.length == 4) (field f.operands 0 4) with
      | .error p => refuseDigit 1 p s
      | .ok operand =>
        match operand.or s.escrow.declared with
        | none => refuse .range s
        | some declared =>
          let total := s.escrowTotal
          let verdict := verdictOf s.escrow.stack total declared
          ok (.compared verdict total declared (difference total declared))
            (s.onEscrow (fun e => { e with declared := some declared, verdict := verdict })))

/-- COMPARE (R110). -/
def execCompareEscrow (f : Frame) (s : State) : Host.Outcome State Fault Refusal :=
  done (takeRequest .compareEscrow f (compareOwner f) s)

/-! ## Committing (R111 to R114) -/

/-- The destination of a note (R112). -/
def State.destination (s : State) (d : Ix) (fit : Bool) : Option Ix :=
  let deposit := Ix.all.find? (fun k => (s.position.cassettes.get k).depositFor)
  if fit then (Ix.all.find? (fun k => (s.position.cassettes.get k).recycleFor d)).or deposit else deposit

/-- The commit in flight is replaced. -/
def setCommit (o : CommitOp) (s : State) : State := s.onEscrow (fun e => { e with op := some (.commit o) })

/-- The bundle a commit moves: the bottom one (R112). -/
def Escrow.bottom (e : Escrow) : Option Bundle := e.stack.getLast?

/-- The choice for the next note: the commit goes on with a destination, or stops, or has committed everything; what befell the cassette
chosen before it is over (R112, R113). -/
def chooseNext (o : CommitOp) (s : State) : State :=
  match s.escrow.bottom with
  | none => endCommit o .committed s
  | some b =>
    if s.restricted .moduleLock then endCommit o (.partial_ .lock) s
    else
      let (fine, s) := verifyCassettes s
      if !fine ∨ o.auditStop then endCommit o (.partial_ .audit) s
      else
        match b.next s.settings.denominations with
        | none => endCommit o (.partial_ .noDestination) s
        | some (d, fit) =>
          match s.destination d fit with
          | none => endCommit o (.partial_ .noDestination) s
          | some k => setCommit { o with chosen := some k, moving := true, lost := false } s

/-- An accepted COMMIT: the reservation, the tally, the first choice (R111, R112). -/
def acceptCommit (p : Port) (consumed : Bool) (s : State) : Answer × State :=
  let total := s.escrowTotal
  let s := reserve p .commit 0 s
  let o : CommitOp :=
    { port := p, underHold := s.claim.owner == .hold, chosen := none, note := none, moving := true, reduced := false,
      lost := false, auditStop := false, ended := none }
  let s := s.onEscrow (fun e =>
    { e with
      tally := { CommitTally.zero with purpose := e.purpose, owner := e.owner }
      op := some (.commit o) })
  accepted (.commitAccepted total consumed) (chooseNext o s)

/-- Checks 10 to 12 of COMMIT (R111). -/
def judgeCommit (p : Port) (consumed : Bool) (s : State) : Answer × State :=
  match s.escrow.purpose with
  | .customer => withMargins 1 0 s (acceptCommit p consumed s)
  | .drawer =>
    let a := drawerOf s.escrow.owner
    let (fine, s) := verifyAccount a s
    if !fine then refuse .audit s
    else if (s.position.account a).balance - s.escrowTotal < -Config.balanceMax then refuse .range s
    else withMargins 1 0 s (acceptCommit p consumed s)

/-- COMMIT at its owning block: the checks of R111. -/
def commitOwner (f : Frame) (consumed : Bool) (s : State) : Answer × State :=
  ownEscrow f.port s
    (moduleReady s
      (if s.auditRequired then refuse .audit s
      else if s.restricted .moduleLock then refuse .halted s
      else if s.escrow.stack = [] then refuse .escrowEmpty s
      else if s.escrow.verdict ≠ .match_ ∧ consumed = false then refuse .verdict s
      else judgeCommit f.port consumed s))

/-- COMMIT (R111, R112). -/
def execCommit (f : Frame) (s : State) : Host.Outcome State Fault Refusal :=
  done (takeConsuming .commit f (commitOwner f) s)

/-- One note leaves the drum for its cassette: the bottom bundle's next in delivery order (R95, R106, R112). -/
def commitExit (o : CommitOp) (s : State) : State :=
  match s.escrow.bottom with
  | none => s
  | some b =>
    match b.next s.settings.denominations with
    | none => s
    | some (d, fit) =>
      let b := b.without d fit
      let gone : Bool := b.notes.total == 0
      let s := unwindNote d
        (s.onEscrow (fun e =>
          { e with
            stack := if gone then e.stack.dropLast else e.stack.dropLast ++ [b]
            verdict := if gone then .none else e.verdict }))
      timeEscrow .drumExit (setCommit { o with note := some (d, fit), moving := !gone, reduced := true } s)

/-- The drum-exit report (R106). -/
def drumExited (s : State) : State :=
  match s.escrow.op with
  | some (.give o) => if o.ended.isNone ∧ o.note = none then returnExit o s else s
  | some (.commit o) => if o.ended.isNone ∧ o.note = none ∧ o.chosen.isSome then commitExit o s else s
  | _ => s

/-- DRUM_EXIT (R106). -/
def execDrumExit (s : State) : Host.Outcome State Fault Refusal := done (event drumExited s)

/-- A committed note enters its cassette: TRANSIT to the cassette's count, and the tally (R106, R112). -/
def bookEntry (k d : Ix) (fit : Bool) (s : State) : State :=
  let n := min 1 (s.position.transit.get d)
  let s := s.onPosition (fun p => { p with transit := Quad.minus p.transit d n })
  let c := s.position.cassettes.get k
  let s := writeCassette k { c with counts := Quad.plus c.counts d n } s
  s.onEscrow (fun e =>
    { e with
      tally :=
        { e.tally with
          perCassette := Quad.plus e.tally.perCassette k 1
          fit := if fit then Quad.plus e.tally.fit d 1 else e.tally.fit
          unfit := if fit then e.tally.unfit else Quad.plus e.tally.unfit d 1 } })

/-- A cassette stands in its slot, counted: notes can have entered it. -/
def State.holdsNotes (s : State) (k : Ix) : Bool :=
  (s.position.cassettes.get k).state != .absent && (s.position.cassettes.get k).state != .uncounted

/-- The chosen cassette's entry report (R112). A check word that fails at this booking, and not at a choice, stops the commit with AUDIT at
its next choice; the note is booked, and a commit with nothing left ends COMMITTED: a DESIGN CHOICE (R113;
notes/assumptions/76.md). -/
def cassetteEntered (k : Ix) (s : State) : State :=
  match s.escrow.op with
  | some (.commit o) =>
    match o.note with
    | some (d, fit) =>
      if o.ended.isNone ∧ o.chosen = some k ∧ o.lost = false ∧ s.holdsNotes k = true then
        let (fine, s) := verifyCassette k s
        let o := { o with note := none, chosen := none, auditStop := o.auditStop || !fine }
        chooseNext o (setCommit o (stopTimers .escrow (bookEntry k d fit s)))
      else s
    | none => s
  | _ => s

/-- CASSETTE_ENTRY (R112, R113). -/
def execCassetteEntry (k : Ix) (s : State) : Host.Outcome State Fault Refusal := done (event (cassetteEntered k) s)

/-- Notes a bundle still shows are not on the drum: they become a shortage, with RECONCILE_DUE_JAM (R106). -/
def missBundle (b : Bundle) (s : State) : State :=
  addCause .reconcileDueJam (s.onPosition (fun p => p.addDiscrepancy b.notes.toInt))

/-- The drum reports itself empty while the bundle being moved still shows notes: they are missed, the bundle leaves the stack,
and the operation goes on, once a note in the path has arrived (R106). -/
def drumEmptied (s : State) : State :=
  match s.escrow.op with
  | some (.give o) =>
    match s.escrow.stack with
    | b :: beneath =>
      if o.ended.isNone ∧ o.moving = true then
        let s := missBundle b (s.onEscrow (fun e => { e with stack := beneath, verdict := .none }))
        let o : ReturnOp := { o.bundleOut b with moving := false }
        if o.note = none then returnGoesOn o s else setReturn o s
      else s
    | [] => s
  | some (.commit o) =>
    match s.escrow.bottom with
    | some b =>
      if o.ended.isNone ∧ o.moving = true then
        let s := missBundle b (s.onEscrow (fun e => { e with stack := e.stack.dropLast, verdict := .none }))
        let o := { o with moving := false, reduced := true }
        if o.note = none then chooseNext { o with chosen := none } s else setCommit o s
      else s
    | none => s
  | _ => s

/-- DRUM_EMPTY (R106). -/
def execDrumEmpty (s : State) : Host.Outcome State Fault Refusal := done (event drumEmptied s)

end Sys2Proof.Machine
end

