-- ==== Sys2Proof/Machine/Envelopes.lean ====
section
/-!
DEFINITION. The commands of the envelope controller (06): SLOT_OPEN, SLOT_CLOSE, BIN_EMPTIED, the reports of GRIP, MOUTH, IMPRINT, DROP,
the imprinter and the receipt printer, the lane keypad, and their timers.
-/
namespace Sys2Proof.Machine

/-! ## Requests (R119, R133) -/

/-- The supervisor mark is set and the permit judged; the reply carries the slot state, with the failing conditions where the
slot did not open (R119). -/
def setSupervisor (open_ : Bool) (s : State) : Answer × State :=
  let s := judgePermit (s.onDepository (fun d => { d with supervisorOpen := open_ }))
  ok (.slot s.depository.slot s.permitFailures) s

/-- SLOT_OPEN (R119). -/
def execSlotOpen (f : Frame) (s : State) : Host.Outcome State Fault Refusal :=
  done (takeRequest .slotOpen f (setSupervisor true) s)

/-- SLOT_CLOSE (R119). -/
def execSlotClose (f : Frame) (s : State) : Host.Outcome State Fault Refusal :=
  done (takeRequest .slotClose f (setSupervisor false) s)

/-- An accepted BIN_EMPTIED: the ENVELOPE record, the bin at zero, the permit judged (R133). -/
def emptyBin (s : State) : Answer × State :=
  let b := s.depository.bin
  let (n, s) :=
    stage
      { kind := .envelope, outcome := 4, counts := b.counts, amount := b.total,
        extra := s.depository.sequence }
      s
  ok (.binBooked n b) (judgePermit (s.onDepository (fun d => { d with bin := BinRecord.zero })))

/-- BIN_EMPTIED at its owning block: the checks of R133. -/
def binEmptiedOwner (s : State) : Answer × State :=
  if s.depository.slot = .jammed then refuse .jammed s
  else if s.depository.slot ≠ .closed then refuse .busy s
  else withRoom 1 1 s (emptyBin s)

/-- BIN_EMPTIED (R133). -/
def execBinEmptied (f : Frame) (s : State) : Host.Outcome State Fault Refusal :=
  done (takeRequest .binEmptied f binEmptiedOwner s)

/-! ## Intake (R122 to R125) -/

/-- The amount a keypad entry attaches to a gripped envelope (R120). -/
def KeyEntry.attached : KeyEntry → Option Nat
  | .empty => none
  | .keying _ => none
  | .held amount => some amount

/-- GRIP reports an envelope: in OPEN an intake begins (R122). -/
def gripped (s : State) : State :=
  if s.depository.slot = .open_ then
    s.onDepository (fun d =>
      { d with
        envelope :=
          some { declared := d.entry.attached, imprinted := false, unimprinted := false, line := none }
        entry := .empty
        keypadTimer := false
        slot := .intake
        phase := .firstPull
        intakeTimer := true })
  else s

/-- GRIP_ON (R122). -/
def execGripOn (s : State) : Host.Outcome State Fault Refusal := done (event gripped s)

/-- A pullback enters the pullback list; three within 60 s raise zone 5 momentarily and empty the list (R125). -/
def enterPullback (s : State) : State :=
  let kept := s.depository.pullbacks ++ [s.clock.count]
  let list := if 3 < kept.length then kept.drop 1 else kept
  match list with
  | [a, b, c] =>
    if (c - a).toNat ≤ Config.pullbackTime then
      momentary 5 none (s.onDepository (fun d => { d with pullbacks := [] }))
    else s.onDepository (fun d => { d with pullbacks := [a, b, c] })
  | other => s.onDepository (fun d => { d with pullbacks := other })

/-- The envelope leaves the grip back to the customer: the declared amount returns to the keypad entry (R124). -/
def giveEnvelopeBack (s : State) : State :=
  let declared :=
    match s.depository.envelope with
    | some e => e.declared
    | none => none
  leaveTransport
    (s.onDepository (fun d =>
      { d with
        envelope := none
        intakeTimer := false
        reverseTimer := false
        takeEnvelope := true
        entry := match declared with | some a => .held a | none => d.entry
        keypadTimer := if declared.isSome then true else d.keypadTimer }))

/-- GRIP goes off in INTAKE: a return in the reverse, a pullback in a pull (R123, R124). -/
def ungripped (s : State) : State :=
  if s.depository.slot = .intake then
    if s.depository.phase = .reverse then giveEnvelopeBack s else enterPullback (giveEnvelopeBack s)
  else s

/-- GRIP_OFF (R123 to R125). -/
def execGripOff (s : State) : Host.Outcome State Fault Refusal := done (event ungripped s)

/-- The envelope enters IMPRINT: the imprint line is composed and sent (R126). -/
def enterImprint (s : State) : State :=
  s.onDepository (fun d =>
    { d with
      slot := .imprint
      intakeTimer := false
      reverseTimer := false
      imprinterTimer := true
      envelope :=
        match d.envelope with
        | some e => some { e with line := some (imprintLine s.clock d.sequence e.declared) }
        | none => none })

/-- IMPRINT reports the envelope: in a pull it is imprinted (R123). -/
def imprintReported (s : State) : State :=
  if s.depository.slot = .intake ∧ s.depository.phase ≠ .reverse then enterImprint s else s

/-- IMPRINT_REPORT (R123, R126). -/
def execImprintReport (s : State) : Host.Outcome State Fault Refusal := done (event imprintReported s)

/-- The intake timer expires: the rollers reverse, or after the second pull the slot is JAMMED (R123). -/
def intakeExpired (s : State) : State :=
  if s.depository.slot = .intake ∧ s.depository.intakeTimer = true then
    if s.depository.phase = .firstPull then
      s.onDepository (fun d => { d with phase := .reverse, intakeTimer := false, reverseTimer := true })
    else jamSlot false s
  else s

/-- INTAKE_TIMER_EXPIRY (R123, R130). -/
def execIntakeTimerExpiry (s : State) : Host.Outcome State Fault Refusal := done (event intakeExpired s)

/-- The reverse timer expires: the second pull (R123). -/
def reverseExpired (s : State) : State :=
  if s.depository.slot = .intake ∧ s.depository.reverseTimer = true then
    s.onDepository (fun d => { d with phase := .secondPull, reverseTimer := false, intakeTimer := true })
  else s

/-- REVERSE_TIMER_EXPIRY (R123). -/
def execReverseTimerExpiry (s : State) : Host.Outcome State Fault Refusal := done (event reverseExpired s)

/-! ## Imprint and drop (R126, R127) -/

/-- The envelope record's imprint marks change. -/
def onEnvelope (f : Envelope → Envelope) (s : State) : State :=
  s.onDepository (fun d => { d with envelope := match d.envelope with | some e => some (f e) | none => none })

/-- The rollers carry the envelope on to DROP (R126). -/
def enterDrop (s : State) : State :=
  s.onDepository (fun d => { d with slot := .drop, imprinterTimer := false, dropTimer := true })

/-- The imprint has failed: the envelope goes on unimprinted, and IMPRINTER_FAULT is raised where it was clear (R126). -/
def imprintFailed (s : State) : State :=
  let s := enterDrop (onEnvelope (fun e => { e with unimprinted := true }) s)
  if s.depository.imprinterFault then s
  else raise .s (.moduleFault .imprinter) (s.onDepository (fun d => { d with imprinterFault := true }))

/-- The imprinter's report, awaited in IMPRINT (R126). -/
def imprinterReported (r : ImprintResult) (s : State) : State :=
  if s.depository.slot = .imprint then
    match r with
    | .printed =>
      enterDrop
        ((onEnvelope (fun e => { e with imprinted := true }) s).onDepository (fun d =>
          { d with imprinterFault := false }))
    | .fault => imprintFailed s
  else s

/-- IMPRINTER_REPORT (R126). -/
def execImprinterReport (r : ImprintResult) (s : State) : Host.Outcome State Fault Refusal :=
  done (event (imprinterReported r) s)

/-- IMPRINTER_TIMEOUT: no report within 2 s counts as FAULT (R126). -/
def execImprinterTimeout (s : State) : Host.Outcome State Fault Refusal :=
  done
    (event (fun s => if s.depository.slot = .imprint ∧ s.depository.imprinterTimer = true then imprintFailed s else s) s)

/-- An envelope of which nothing is recorded (R134). -/
def Envelope.unknown : Envelope := { declared := none, imprinted := false, unimprinted := false, line := none }

/-- DROP reports the envelope: dropped in DROP, unimprinted in IMPRINT, captured in a clear run (R126, R127, R131, R134). -/
def dropReported (s : State) : State :=
  let e := s.depository.envelope.getD Envelope.unknown
  match s.depository.slot with
  | .drop =>
    match s.depository.clearing with
    | some run => endClearRun run (dropEnvelope e true s)
    | none => dropEnvelope e false s
  | .imprint => dropEnvelope { e with unimprinted := true } false s
  | .closed => s
  | .open_ => s
  | .intake => s
  | .jammed => s

/-- DROP_REPORT (R126, R127, R131). -/
def execDropReport (s : State) : Host.Outcome State Fault Refusal := done (event dropReported s)

/-- The drop timer expires: the slot is JAMMED (R127). -/
def dropExpired (s : State) : State :=
  if s.depository.slot = .drop ∧ s.depository.dropTimer = true then jamSlot true s else s

/-- DROP_TIMER_EXPIRY (R127, R130). -/
def execDropTimerExpiry (s : State) : Host.Outcome State Fault Refusal := done (event dropExpired s)

/-- A clear run finds no envelope: a NOT_FOUND record where it had been imprinted, and the sequence number advances
(R131). -/
def notFound (s : State) : State :=
  match s.depository.envelope with
  | none => s
  | some e =>
    let s := s.onDepository (fun d => { d with envelope := none })
    if e.imprinted then
      let amount : Nat := match e.declared with | some a => a | none => 0
      let (_, s) :=
        eventRecord
          { kind := .envelope, outcome := 3, counts := s.depository.bin.counts, amount := amount,
            extra := s.depository.sequence }
          s
      s.onDepository (fun d => { d with sequence := nextEnvelope d.sequence })
    else s

/-- The clear run expires (R131, R134). -/
def clearRunExpired (s : State) : State :=
  match s.depository.clearing with
  | some run => endClearRun run (notFound s)
  | none => s

/-- CLEAR_RUN_EXPIRY (R131, R134). -/
def execClearRunExpiry (s : State) : Host.Outcome State Fault Refusal := done (event clearRunExpired s)

/-- MOUTH_CLEAR: TAKE ENVELOP goes from the display (R121). -/
def execMouthClear (s : State) : Host.Outcome State Fault Refusal :=
  done (event (fun s => s.onDepository (fun d => { d with takeEnvelope := false })) s)

/-! ## Keypad (R120) -/

/-- A key is taken in OPEN, INTAKE, IMPRINT and DROP, and restarts the keypad timer (R120); elsewhere it is ignored. A key that the table
calls ignored restarts the timer too, a DESIGN CHOICE (notes/assumptions/84.md). -/
def takeKey (press : KeyEntry → KeyEntry) (s : State) : State :=
  if s.depository.slot.takesKeys then
    s.onDepository (fun d => { d with entry := press d.entry, keypadTimer := true })
  else s

/-- A digit key (R120). -/
def KeyEntry.digit (d : Fin 10) : KeyEntry → KeyEntry
  | .empty => .keying [d]
  | .keying ds => if ds.length < 7 then .keying (ds ++ [d]) else .keying ds
  | .held _ => .keying [d]

/-- The ENTER key (R120). -/
def KeyEntry.enter : KeyEntry → KeyEntry
  | .empty => .empty
  | .keying ds => if decimal (ds.map (fun d => d.val)) = 0 then .empty else .held (decimal (ds.map (fun d => d.val)))
  | .held a => .held a

/-- KEY_DIGIT (R120). -/
def execKeyDigit (d : Fin 10) (s : State) : Host.Outcome State Fault Refusal :=
  done (event (takeKey (KeyEntry.digit d)) s)

/-- KEY_ENTER (R120). -/
def execKeyEnter (s : State) : Host.Outcome State Fault Refusal := done (event (takeKey KeyEntry.enter) s)

/-- KEY_CLEAR (R120). -/
def execKeyClear (s : State) : Host.Outcome State Fault Refusal := done (event (takeKey (fun _ => .empty)) s)

/-- KEYPAD_TIMER_EXPIRY: the entry becomes EMPTY (R120). -/
def execKeypadTimerExpiry (s : State) : Host.Outcome State Fault Refusal :=
  done (event (fun s => if s.depository.keypadTimer then discardEntry s else s) s)

/-! ## Receipts (R129) -/

/-- The receipt printer reports for the oldest receipt attempted (R129). -/
def receiptReported (r : ReceiptResult) (s : State) : State :=
  match s.depository.receipts with
  | [] => s
  | _ :: rest =>
    s.onDepository (fun d =>
      { d with
        receipts := rest
        receiptOut := match r with | .printed => d.receiptOut | .paperOut => true })

/-- RECEIPT_PRINTER_REPORT (R129). -/
def execReceiptPrinterReport (r : ReceiptResult) (s : State) : Host.Outcome State Fault Refusal :=
  done (event (receiptReported r) s)

/-- PAPER_LOADED: RECEIPT_OUT is cleared (R129). -/
def execPaperLoaded (s : State) : Host.Outcome State Fault Refusal :=
  done (event (fun s => s.onDepository (fun d => { d with receiptOut := false })) s)

end Sys2Proof.Machine
end

