-- ==== Sys2Proof/Machine/Journals.lean ====
section
/-!
DEFINITION. The requests of the journal controller (08): JOURNAL_READ, JOURNAL_SCAN, TRIM, SYNC, and SYNC_TIMEOUT.
-/
namespace Sys2Proof.Machine

/-! ## Reading (R169) -/

/-- A GAP record stands for a number (R175). -/
def Record.standsFor (r : Record) (n : Nat) : Bool :=
  r.kind == .gap && r.extra + 1 ≤ n + r.counts.c1.toNat && n ≤ r.extra

/-- The retained durable range: from the trim point plus one to the durable mark (R169). -/
def Journal.inRange (j : Journal) (n : Nat) : Bool := j.trimPoint < n && n ≤ j.durable

/-- The retained record of a number, or the GAP record that stands for it, with the mark STANDS_FOR (R169). -/
def Journal.lookup (j : Journal) (n : Nat) : Option (Record × Bool) :=
  match j.retained.find? (fun r => r.sequence == n) with
  | some r => some (r, false)
  | none =>
    match j.retained.find? (fun r => r.standsFor n) with
    | some r => some (r, true)
    | none => none

/-- JOURNAL_READ at its owning block (R169). -/
def journalReadOwner (ops : List Byte) (s : State) : Answer × State :=
  let j := s.journal
  let n := intField ops 0 4
  match (if j.inRange n then j.lookup n else none) with
  | some (r, stands) => ok (.journalRecord r stands j.trimPoint j.durable j.next) s
  | none => refuseWith .outOfRange (.journalRange j.trimPoint j.durable j.next) s

/-- JOURNAL_READ (R169). -/
def execJournalRead (f : Frame) (s : State) : Host.Outcome State Fault Refusal :=
  done (takeRequest .journalRead f (journalReadOwner f.operands) s)

/-! ## Scanning (R170 to R172) -/

/-- The directions of a scan (11.2). -/
inductive Direction where
  | forward | backward
  deriving DecidableEq, Repr

/-- A direction code. -/
def directionOf : Nat → Option Direction
  | 1 => some .forward
  | 2 => some .backward
  | _ => none

/-- The modes of a scan (11.2). -/
inductive ScanMode where
  | untilMatch | whileMatch
  deriving DecidableEq, Repr

/-- A mode code. -/
def scanModeOf : Nat → Option ScanMode
  | 1 => some .untilMatch
  | 2 => some .whileMatch
  | _ => none

/-- A record matches when it meets every criterion present (R171). -/
def Criteria.matches_ (c : Criteria) (r : Record) : Bool :=
  (match c.kind with | some k => r.kind == k | none => true) &&
    (match c.port with | some p => r.port == p | none => true) &&
    (match c.amount with | some a => r.amount == a | none => true)

/-- The record examined stops the scan as FOUND (R171). -/
def stopsScan (m : ScanMode) (c : Criteria) (r : Record) : Bool :=
  match m with
  | .untilMatch => c.matches_ r
  | .whileMatch => !c.matches_ r

/-- The records of a scan examined one at a time, so many already examined: each is judged and counted before the scan
decides whether to go on (R171). -/
def scan (m : ScanMode) (c : Criteria) (applied : Nat) : Nat → List Record → ScanResult
  | examined, [] =>
    { stop := .endOfRange, last := 0, examined := examined, remaining := applied - examined, record := none,
      applied := applied, criteria := c }
  | examined, r :: rest =>
    let result (stop : ScanStop) (record : Option Record) : ScanResult :=
      { stop := stop, last := r.sequence, examined := examined + 1, remaining := applied - (examined + 1), record := record,
        applied := applied, criteria := c }
    if stopsScan m c r then result .found (some r)
    else if applied ≤ examined + 1 then result .countExhausted none
    else if rest = [] then result .endOfRange none
    else scan m c applied (examined + 1) rest

/-- The records from the start in a direction; a start a GAP record stands for is that GAP record (R171). -/
def Journal.from_ (j : Journal) (start : Nat) (d : Direction) : List Record :=
  let ahead := j.retained.dropWhile (fun r => r.sequence < start)
  match d with
  | .forward => ahead
  | .backward =>
    match ahead with
    | [] => []
    | r :: _ => (j.retained.takeWhile (fun x => x.sequence ≤ r.sequence)).reverse

/-- The scan count as applied: 0 as 1, above 4,096 as 4,096 (R170). -/
def scanCount (operand : Nat) : Nat := max 1 (min Config.scanMax operand)

/-- A criterion operand: absent, naming nothing, or a value. -/
def criterion {α : Type} (present : Bool) (value : Option α) : Option (Option α) :=
  if present then value.map some else some none

/-- The port criterion of a code: 0 names none (11.2). -/
def portCriterion (n : Nat) : Option (Option Port) := if n = 0 then some none else (portOf n).map some

/-- A scan whose operands have passed check 1 (R170, R172); a teller's port criterion is its own port. -/
def scanFrom (p : Port) (start count : Nat) (d : Direction) (m : ScanMode) (kind : Option RecordKind)
    (port : Option (Option Port)) (amount : Except Nat (Option Int)) (s : State) : Answer × State :=
  match amount with
  | .error pos => refuseDigit 1 pos s
  | .ok amount =>
    if s.journal.inRange start = false then
      refuseWith .outOfRange (.scanRange s.journal.trimPoint s.journal.durable) s
    else
      let own : Option (Option Port) := if p.teller?.isSome then some (some p) else port
      ok (.scanned (scan m ⟨kind, own, amount⟩ (scanCount count) 0 (s.journal.from_ start d))) s

/-- JOURNAL_SCAN at its owning block (R170 to R172). Bits 3 to 7 of the presence byte are not read, a DESIGN CHOICE (11.2;
notes/assumptions/99.md). -/
def journalScanOwner (f : Frame) (s : State) : Answer × State :=
  let ops := f.operands
  let presence := byteField ops 8
  let amount : Except Nat (Option Int) :=
    if presence.testBit 2 then (readS5 (field ops 11 5)).map some else .ok none
  match directionOf (byteField ops 4), scanModeOf (byteField ops 7),
      criterion (presence.testBit 0) (kindOf (byteField ops 9)),
      criterion (presence.testBit 1) (portCriterion (byteField ops 10)) with
  | some d, some m, some kind, some port =>
    scanFrom f.port (intField ops 0 4) (intField ops 5 2) d m kind port amount s
  | _, _, _, _ => refuse .range s

/-- JOURNAL_SCAN (R170 to R172). -/
def execJournalScan (f : Frame) (s : State) : Host.Outcome State Fault Refusal :=
  done (takeRequest .journalScan f (journalScanOwner f) s)

/-! ## Trimming (R173) -/

/-- The retained records at or below a number are removed, and the trim point becomes that number (R173). -/
def applyTrim (n : Nat) (s : State) : State :=
  if n ≤ s.journal.trimPoint then s
  else
    let s := s.onJournal (fun j =>
      { j with retained := j.retained.filter (fun r => n < r.sequence), trimPoint := n })
    if s.journal.occupied < Config.highWater then s.onJournal (fun j => { j with highMark := false }) else s

/-- TRIM at its owning block (R173). -/
def trimOwner (ops : List Byte) (s : State) : Answer × State :=
  let n := intField ops 0 4
  let before := s.journal.retained.length
  let clamped : Bool := s.journal.durable < n
  let s := applyTrim (min n s.journal.durable) s
  okOrClamped clamped
    (.trimmed (before - s.journal.retained.length) s.journal.trimPoint s.journal.occupied s.journal.room) s

/-- TRIM (R173). -/
def execTrim (f : Frame) (s : State) : Host.Outcome State Fault Refusal :=
  done (takeRequest .trim f (trimOwner f.operands) s)

/-! ## Synchronising (R168) -/

/-- SYNC at its owning block: at once where the durable mark has reached the highest number given, otherwise it waits
(R168). -/
def syncOwner (s : State) : Answer × State :=
  if s.journal.highest ≤ s.journal.durable then ok (.synced s.journal.durable s.journal.highest) s
  else (.wait s.journal.highest, s)

/-- SYNC (R168). -/
def execSync (f : Frame) (s : State) : Host.Outcome State Fault Refusal := done (takeRequest .sync f syncOwner s)

/-- The number a port's waiting SYNC awaits. -/
def State.awaited (s : State) (p : Port) : Option Nat :=
  match (s.ports.get p).held with
  | some ⟨_, _, _, .awaiting n⟩ => some n
  | _ => none

/-- A waiting SYNC is refused JOURNAL_BUSY 2 s after it was taken (R168). -/
def syncTimedOut (p : Port) (s : State) : State :=
  match s.awaited p with
  | some n => formReply p .refused (some .journalBusy) (.synced s.journal.durable n) s
  | none => s

/-- SYNC_TIMEOUT (R168). -/
def execSyncTimeout (p : Port) (s : State) : Host.Outcome State Fault Refusal := done (event (syncTimedOut p) s)

end Sys2Proof.Machine
end

