-- ==== Sys2Proof/Machine/NotePaths.lean ====
section
/-!
DEFINITION. The commands of the note path controller: PICK_EVENT, NOTE_CHECK, NOTE_SENSOR_ARRIVAL, NOTE_JAM,
RETRACT_NOTE_COUNTED, DRAW_SOURCE_EMPTY, and JAM_CLEAR with its two targets (03, R131).
-/
namespace Sys2Proof.Machine

/-! ## Picks (R58 to R60) -/

/-- The consecutive empty picks of a cassette in a window's dispense are set (R60). -/
def setMisses (t : Teller) (k : Ix) (n : Nat) (s : State) : State :=
  s.onDispense t (fun d => { d with misses := d.misses.set k n })

/-- The booking of a pick meets a failing check word: picking is to stop, unless a stop is already fixed, whose reason stays (R83;
notes/assumptions/15.md). -/
def stopForAudit (t : Teller) (s : State) : State :=
  s.onDispense t (fun d => { d with stop := match d.stop with | some w => some w | none => some .audit })

/-- The cassette's record is read for a booking (R9, R83). -/
def readForPick (t : Teller) (k : Ix) (s : State) : State :=
  let (fine, s) := verifyCassette k s
  if fine then s else stopForAudit t s

/-- A cassette's third consecutive empty pick: its count becomes a shortage, it goes FAULT, port S is told (R60). -/
def failCassette (t : Teller) (k d : Ix) (s : State) : State :=
  let s := readForPick t k s
  let c := s.position.cassettes.get k
  let s := s.onPosition (fun p => { p with discrepancy := p.discrepancy.set d (p.discrepancy.get d + c.counts.get d) })
  let s := writeCassetteAs k { c with counts := c.counts.set d 0, state := .fault, pickFailed := true } s
  raise .s (.moduleFault (.pickFailure k)) (s.onDispense t (fun d => { d with changed := true }))

/-- A cassette has been removed or released: a pick from it that gives no note is no pick failure (R61). -/
def State.cassetteLost (s : State) (k : Ix) : Bool :=
  (s.position.cassettes.get k).state == .absent || (s.position.cassettes.get k).state == .released

/-- A pick that gave no note is counted, and the third in a row fails its cassette (R60). -/
def countMiss (p : Pick) (s : State) : State :=
  let n := (s.dispense p.port).misses.get p.cassette + 1
  let s := setMisses p.port p.cassette n s
  if n = Config.pickFailures then failCassette p.port p.cassette p.denomination s else s

/-- A pick that gave no note (R60, R61). -/
def emptyPick (p : Pick) (s : State) : State :=
  let s := s.onPath (fun q => { q with pick := none })
  pickReported p.port (if s.cassetteLost p.cassette then s else countMiss p s)

/-- m notes leave a cassette for TRANSIT, those beyond its count as surplus (R58). -/
def bookPick (k d : Ix) (m : Nat) (s : State) : State :=
  let c := s.position.cassettes.get k
  let have_ := c.counts.get d
  let s := s.onPosition (fun p =>
    { p with
      transit := Quad.plus p.transit d m
      discrepancy := p.discrepancy.set d (p.discrepancy.get d - ((m - have_ : Nat) : Int)) })
  writeCassette k { c with counts := Quad.minus c.counts d m } s

/-- A pick of one or two notes: booked to TRANSIT, its notes on their way to the path sensor (R58, R62). -/
def notesPicked (p : Pick) (m : Multiplicity) (s : State) : State :=
  let s := readForPick p.port p.cassette s
  let s := bookPick p.cassette p.denomination m.notes s
  let s := setMisses p.port p.cassette 0 (s.onDispense p.port (fun d => { d with changed := true }))
  s.onPath (fun q =>
    { q with
      pick := some { p with stage := .checking m m.notes }
      timers := q.timers ++ List.replicate m.notes ⟨.dispense p.port, .picker p.cassette, false⟩ })

/-- The pick event of a commanded pick (R58). -/
def pickReport (m : Multiplicity) (s : State) : State :=
  match s.path.pick with
  | some ⟨t, k, d, .commanded⟩ =>
    match m with
    | .m0 => emptyPick ⟨t, k, d, .commanded⟩ s
    | .m1 => notesPicked ⟨t, k, d, .commanded⟩ .m1 s
    | .m2 => notesPicked ⟨t, k, d, .commanded⟩ .m2 s
  | _ => s

/-- PICK_EVENT (R58, R60). -/
def execPickEvent (m : Multiplicity) (s : State) : Host.Outcome State Fault Refusal := done (event (pickReport m) s)

/-- A note checked GOOD of a single pick goes to the pocket, any other to the REJECT BIN (R59). -/
def routeNote (p : Pick) (m : Multiplicity) (r : NoteCheck) (s : State) : State :=
  if m = .m1 ∧ r = .good then
    (s.onPosition (fun q => q.move .transit (.pocket p.port) p.denomination 1)).onDispense p.port
      (fun d => { d with delivered := Quad.plus d.delivered p.cassette 1 })
  else
    (s.onPosition (fun q => q.move .transit .reject p.denomination 1)).onDispense p.port
      (fun d => { d with diverted := d.diverted + 1 })

/-- The timers once a note is checked: the first of the dispense's notes that has had no check is at the path sensor, wherever it was last
seen, and is timed from there (R59, R62; notes/assumptions/61.md). -/
def checkTimers (t : Teller) : List NoteTimer → List NoteTimer
  | [] => []
  | n :: ns =>
    if n.owner == .dispense t && !n.checked then { n with lastSeen := .path, checked := true } :: ns
    else n :: checkTimers t ns

/-- A note at the path sensor is checked and booked; after the pick's last note the dispense controller acts (R59). -/
def checkNote (r : NoteCheck) (s : State) : State :=
  match s.path.pick with
  | some ⟨t, k, d, .checking m left⟩ =>
    let p : Pick := ⟨t, k, d, .checking m (left - 1)⟩
    let s := routeNote p m r s
    let s := s.onPath (fun q =>
      { q with
        timers := checkTimers t q.timers
        pick := if left ≤ 1 then none else some p })
    if left ≤ 1 then pickReported t s else s
  | _ => s

/-- NOTE_CHECK (R59). -/
def execNoteCheck (r : NoteCheck) (s : State) : Host.Outcome State Fault Refusal := done (event (checkNote r) s)

/-! ## Timing and jams (R62) -/

/-- The timers once a note has reached a sensor on the way: the note that came is timed from there, and where it was the draw's note
leaving its source, the next note is timed from the source (R62; notes/assumptions/61.md, 79.md). -/
def NotePath.wayTimers (q : NotePath) (from_ : Sensor) (i : Fin 12) : List NoteTimer :=
  let came (n : NoteTimer) : Bool := n.lastSeen == from_
  moveTimer came (.way i) q.timers ++
    (match q.draw with
      | some d => if q.timers.find? came = some d.timer then [d.timer] else []
      | none => [])

/-- A note last seen at a sensor reaches the next in time: at a destination of its pick its timing ends, at a sensor on the way it goes on
from there. Without a note timed from that sensor the report is ignored (R62). -/
def noteArrived (a : Arrival) (s : State) : State :=
  s.onPath (fun q =>
    { q with
      timers :=
        match a.reached with
        | .pocket t => stopTimer (fun n => n.owner == .dispense t && n.checked && n.lastSeen == a.lastSeen) q.timers
        | .rejectBin => stopTimer (fun n => n.checked && n.lastSeen == a.lastSeen) q.timers
        | .way i => q.wayTimers a.lastSeen i
        | _ => q.timers })

/-- NOTE_SENSOR_ARRIVAL (R62). -/
def execNoteSensorArrival (a : Arrival) (s : State) : Host.Outcome State Fault Refusal :=
  done (event (noteArrived a) s)

/-- An owner's operation is in flight and has not come to its end: one whose end waits in the end hold has (R48, R163). -/
def State.movesOn (s : State) : MoveOwner → Bool
  | .dispense t => s.dispenseInFlight t && !(s.dispense t).ending
  | .escrow =>
    match s.escrow.op with
    | some (.insert o) => o.ended.isNone
    | some (.give o) => o.ended.isNone
    | some (.commit o) => o.ended.isNone
    | none => false
  | .purge =>
    match s.path.purge with
    | some p => p.ended.isNone
    | none => false

/-- The transport moves notes for an owner's operation; a dispense that presents has its notes in the pocket (R62, R84). -/
def State.carriesFor (s : State) (o : MoveOwner) : Bool :=
  s.movesOn o &&
    (match o with
      | .dispense t =>
        (s.dispense t).state == .picking ||
          (match s.path.draw with
            | some d => d.cause.owner == o
            | none => false)
      | .escrow => true
      | .purge => true)

/-- The operation that a jam of an owner's note ends: the note's own, and where that is over the one the transport then works for, if any
(R62; notes/assumptions/89.md). A dispense that presents already is ended by the jam of a note of its own, checked and still on its way, a
DESIGN CHOICE (R84; notes/assumptions/89.md). -/
def State.jammedOp (s : State) (o : MoveOwner) : Option MoveOwner :=
  if s.movesOn o then some o else [.purge, .escrow, .dispense .a, .dispense .b].find? s.carriesFor

/-- A jam with no operation in flight to end: the note's own is over, and its port is the one named (R62; notes/assumptions/89.md). -/
def jamIdle (fault : ModuleFault) (s : State) : State :=
  (stopTransport (raise .s (.moduleFault fault) s)).onPath (fun q => { q with state := .jammed })

/-- The 2 s timer of a note expires: a jam (R62). -/
def noteJammed (lastSeen : Sensor) (s : State) : State :=
  match s.path.timers.find? (fun n => n.lastSeen == lastSeen) with
  | some n =>
    match s.jammedOp n.owner with
    | some o => jam o (.jam (s.movePort o) lastSeen) .jammed s
    | none => jamIdle (.jam (s.movePort n.owner) lastSeen) s
  | none => s

/-- NOTE_JAM (R62, R104, R106). -/
def execNoteJam (lastSeen : Sensor) (s : State) : Host.Outcome State Fault Refusal :=
  done (event (noteJammed lastSeen) s)

/-! ## Draws (R64 to R66, R83, R87) -/

/-- A drawn note is read: booked, unless the bin is full before it; a bin that it fills stops the draw (R64, R66). -/
def noteDrawn (report : Option Ix) (s : State) : State :=
  match s.path.draw with
  | none => s
  | some d =>
    if s.position.retractFull then stopDraw d s
    else
      let x := s.attribution d report
      let s := bookDrawn d x (s.takeFree).2
      if s.position.retractFull then stopDraw d s else s

/-- RETRACT_NOTE_COUNTED (R64, R66). -/
def execRetractNoteCounted (report : Option Ix) (s : State) : Host.Outcome State Fault Refusal :=
  done (event (noteDrawn report) s)

/-- A purge's source is empty: what is left becomes a shortage with its audit cause, and the purge goes on (R65). -/
def purgeSourceEmpty (d : Draw) (s : State) : State :=
  if 0 < d.uncounted.total then
    let s := addCause .reconcileDueJam (leaveShort d s)
    purgeNext (s.onPath (fun q =>
      { q with purge := match q.purge with | some p => some { p with short := true } | none => none }))
  else purgeNext s

/-- A retract has emptied the pocket: the notes left uncounted were taken, and the dispense ends RETRACTED (R87). -/
def retractEnded (t : Teller) (d : Draw) (s : State) : State :=
  endDispense t 4 d.uncounted ((s.dispense t).short.isNone && d.retracted.total == 0) none .none s

/-- A stop's source is empty: what is left becomes a shortage; after TRANSIT the pocket is drawn, after the pocket the
dispense ends (R83). -/
def stopSourceEmpty (t : Teller) (why : StopReason) (d : Draw) (s : State) : State :=
  let s := leaveShort d s
  match d.source with
  | .transit => startDraw (.pocket t) (.stop t why) (s.position.pockets.get t) s
  | .pocket _ => endDispense t why.outcome Quad.zero false none .none s
  | .drum => s

/-- The source of the draw is physically empty (R64). -/
def sourceEmpty (s : State) : State :=
  match s.path.draw with
  | none => s
  | some d =>
    let s := stopTimers d.cause.owner (s.onPath (fun q => { q with draw := none }))
    match d.cause with
    | .purge => purgeSourceEmpty d s
    | .retract t => retractEnded t d s
    | .stop t why => stopSourceEmpty t why d s

/-- DRAW_SOURCE_EMPTY (R64, R65, R83, R87). -/
def execDrawSourceEmpty (s : State) : Host.Outcome State Fault Refusal := done (event sourceEmpty s)

/-! ## JAM_CLEAR (R63, R131) -/

/-- The sources of a purge by request, the three that R65 lists. That the drum is none of them, also where a cold-start purge was stopped
before it had drawn the drum's notes (R116), is a DESIGN CHOICE (R65, R66; notes/assumptions/106.md). -/
def purgeSources : List DrawSource := [.transit, .pocket .a, .pocket .b]

/-- JAM_CLEAR with target MODULE (R63). Its purge draws TRANSIT and the pockets alone: drum notes that a stopped cold-start purge has left
(R116) stay on the drum and in no place of the position, a DESIGN CHOICE (R65, R66; notes/assumptions/106.md). -/
def clearModule (s : State) : Answer × State :=
  match s.path.state with
  | .jammed => accepted .none (startPurge false purgeSources s)
  | .ready => refuse .noOperation s
  | .purging => refuse .busy s

/-- JAM_CLEAR with target SLOT (R131). -/
def clearSlot (s : State) : Answer × State :=
  if s.depository.clearing.isSome then refuse .busy s
  else if s.depository.slot = .jammed then accepted .none (startClearRun .byRequest s)
  else refuse .noOperation s

/-- JAM_CLEAR by its target; a target that names none is refused RANGE (R202). -/
def jamClearOwner (f : Frame) (s : State) : Answer × State :=
  match byteField f.operands 0 with
  | 1 => clearModule s
  | 2 => clearSlot s
  | _ => refuse .range s

/-- JAM_CLEAR with target MODULE (R63, R65). -/
def execJamClearModule (f : Frame) (s : State) : Host.Outcome State Fault Refusal :=
  done (takeRequest .jamClear f (jamClearOwner f) s)

/-- JAM_CLEAR with target SLOT (R131). -/
def execJamClearSlot (f : Frame) (s : State) : Host.Outcome State Fault Refusal :=
  done (takeRequest .jamClear f (jamClearOwner f) s)

end Sys2Proof.Machine
end

