-- ==== Sys2Proof/Machine/PortCommands.lean ====
section
/-!
DEFINITION. The commands of the port interfaces and the clock (09): STATUS, CLEAR_FAULTS, APPROVE, CLOCK_SET, an unknown request, line
faults, OVERRUN, APPROVAL_EXPIRY, CLOCK_TICK and CLOCK_CALENDAR_END.
-/
namespace Sys2Proof.Machine

/-! ## STATUS (R183) -/

/-- A dispense record as STATUS shows it, with the position of its entry in the wait list in QUEUED (R69): the head counts as 1, a DESIGN
CHOICE (notes/assumptions/72.md). -/
def State.shownDispense (s : State) (t : Teller) : Teller × Dispense × Option Nat :=
  let d := s.dispense t
  (t, d, if d.state = .queued then (s.claim.waiting.findIdx? (fun e => e == .delayed t)).map (· + 1) else none)

/-- The seconds a timer of a length has left, a free value at most its length (notes/assumptions/7.md). -/
def leftOf (length free : Nat) : Nat := min length (Config.secondsLeft free)

/-- The ESCROW section: whole for port S and the record's owner port, else whether it is open and whose. -/
def State.escrowSection (s : State) (p : Port) : StatusSection :=
  let e := s.escrow
  if p.teller?.isNone ∨ (e.isOpen = true ∧ p.teller? = some e.owner) then
    .escrow e.isOpen e.owner e.purpose (drawerOf e.owner) e.declared e.verdict e.stack
  else .escrowOther e.isOpen e.owner

/-- The SLOT section, as R117 lists it; whether MOUTH reports an object is a free value. That the intake phase shown outside INTAKE is the
last intake's is a DESIGN CHOICE (notes/assumptions/83.md). -/
def State.slotSection (s : State) (free : Nat) : StatusSection :=
  let d := s.depository
  .slot d.slot d.phase d.supervisorOpen s.permitFailures d.envelope d.sequence d.bin s.settings.binCapacity
    d.pullbacks.length d.imprinterFault d.receiptOut (Config.mouthObject free)

/-- A section of STATUS at a port, or none where it is refused RANGE (R183). DESIGN CHOICES are that port M, which has no approval slot,
is shown an empty one (R188; notes/assumptions/87.md), and that port S is shown window A's dispense record before window B's
(notes/assumptions/63.md). -/
def State.statusSection (s : State) (p : Port) (x : Section) (free : Nat) : Option StatusSection :=
  let q := s.ports.get p
  match x with
  | .port =>
    some (.port q.frameFlag q.overrunFlag (q.approval.map (fun c => (c, leftOf Config.approvalTime free))))
  | .module =>
    some (.module s.claim.owner s.claim.waiting (s.claim.idle.map (fun n => leftOf n free)) s.path.state)
  | .dispense =>
    match p with
    | .a => some (.dispense [s.shownDispense .a])
    | .b => some (.dispense [s.shownDispense .b])
    | .s => some (.dispense [s.shownDispense .a, s.shownDispense .b])
    | .m => none
  | .escrow => if p = .m then none else some (s.escrowSection p)
  | .slot => some (s.slotSection free)
  | .alarm => if p.teller?.isSome then some (.alarmTeller s.alarm.restriction) else some (.alarm s.alarm.summary)
  | .journal => some (.journal s.journal.figures)

/-- STATUS at its owning block (R183); a section that names none is refused RANGE (R202). -/
def statusOwner (f : Frame) (s : State) : Answer × State :=
  let (free, s) := s.takeFree
  match (sectionOf (byteField f.operands 0)).bind (fun x => s.statusSection f.port x free) with
  | some x => ok (.status x s.clock.count s.clock.invalid s.position.causes) s
  | none => refuse .range s

/-- STATUS (R183). -/
def execStatus (f : Frame) (s : State) : Host.Outcome State Fault Refusal :=
  done (takeRequest .status f (statusOwner f) s)

/-! ## CLEAR_FAULTS, APPROVE (R181, R188) -/

/-- CLEAR_FAULTS at its port: both flags cleared, the reply carrying them as they stood (R181). -/
def clearFaultsOwner (f : Frame) (s : State) : Answer × State :=
  let q := s.ports.get f.port
  ok (.faults q.frameFlag q.overrunFlag)
    (s.onPort f.port (fun q => { q with frameFlag := false, overrunFlag := false }))

/-- CLEAR_FAULTS (R181). -/
def execClearFaults (f : Frame) (s : State) : Host.Outcome State Fault Refusal :=
  done (takeRequest .clearFaults f (clearFaultsOwner f) s)

/-- APPROVE at its owning block: the checks of R188, then the approval in the target's slot. -/
def approveOwner (ops : List Byte) (s : State) : Answer × State :=
  match portOf (byteField ops 0), classOf (byteField ops 1) with
  | some p, some c =>
    if p = .m ∨ (p = .s ∧ c ≠ .depositOverride) then refuse .range s
    else
      ok (.approved (s.ports.get p).approval) (s.onPort p (fun q => { q with approval := some c }))
  | _, _ => refuse .range s

/-- APPROVE (R188). -/
def execApprove (f : Frame) (s : State) : Host.Outcome State Fault Refusal :=
  done (takeRequest .approve f (approveOwner f.operands) s)

/-- An approval's 60 s timer expires: the slot is emptied (R189). -/
def approvalExpired (p : Port) (s : State) : State := s.onPort p (fun q => { q with approval := none })

/-- APPROVAL_EXPIRY (R189). -/
def execApprovalExpiry (p : Port) (s : State) : Host.Outcome State Fault Refusal := done (event (approvalExpired p) s)

/-! ## The clock (R190, R191) -/

/-- The date and time operands of CLOCK_SET name a second of the calendar (R191). -/
def dateValid (year month day hour minute second : Nat) : Bool :=
  2000 ≤ year && year ≤ 2099 && 1 ≤ month && month ≤ 12 && 1 ≤ day && day ≤ monthDays (leapYear year) month &&
    hour ≤ 23 && minute ≤ 59 && second ≤ 59

/-- A clock count in a SETTING detail: four bytes, and in the value before the CLOCK_INVALID flag in the fifth (R203). -/
def clockBytes (count : Word32) (invalid : Bool) : List Byte :=
  bytesOf 4 count.toNat ++ bytesOf 1 invalid.toNat ++ [0#8, 0#8, 0#8]

/-- The delay end of a dispense in DELAYING moves with the count (R191). -/
def moveDelay (shift : Word32) (t : Teller) (s : State) : State :=
  s.onDispense t (fun d => if d.state = .delaying then { d with delayEnd := d.delayEnd + shift } else d)

/-- An accepted CLOCK_SET: the four effects of R191, in order. -/
def acceptClock (count : Word32) (s : State) : Answer × State :=
  let before := s.clock
  let s := { s with clock := ⟨count, false⟩ }
  let s := moveDelay (count - before.count) .b (moveDelay (count - before.count) .a s)
  let s := s.onDepository (fun d => { d with pullbacks := [] })
  let (_, s) :=
    stage
      { kind := .setting, outcome := 3,
        detail := .setting (clockBytes before.count before.invalid) (clockBytes count false) }
      s
  ok (.clock before.count count) s

/-- CLOCK_SET at its owning block: the checks of R191. -/
def clockSetOwner (ops : List Byte) (s : State) : Answer × State :=
  let year := intField ops 0 2
  let month := byteField ops 2
  let day := byteField ops 3
  let hour := byteField ops 4
  let minute := byteField ops 5
  let second := byteField ops 6
  if dateValid year month day hour minute second then
    withRoom 1 1 s (acceptClock (BitVec.ofNat 32 (countOf year month day hour minute second)) s)
  else refuse .range s

/-- CLOCK_SET (R191). -/
def execClockSet (f : Frame) (s : State) : Host.Outcome State Fault Refusal :=
  done (takeRequest .clockSet f (clockSetOwner f.operands) s)

/-- The count rises by one, wrapping; on reaching 3,155,760,000 CLOCK_INVALID is set (R190). -/
def tick (s : State) : State :=
  let count := s.clock.count + 1
  { s with clock := ⟨count, s.clock.invalid || count.toNat == Config.calendarEnd⟩ }

/-- CLOCK_TICK (R190): the battery keeps the clock counting in every phase and without supply. -/
def execClockTick (s : State) : Host.Outcome State Fault Refusal := done (tick s)

/-- The tick at which the count rises past the calendar's last second (R190). -/
def calendarEnds (s : State) : State := if s.clock.count.toNat + 1 = Config.calendarEnd then tick s else s

/-- CLOCK_CALENDAR_END (R190). -/
def execClockCalendarEnd (s : State) : Host.Outcome State Fault Refusal := done (calendarEnds s)

/-! ## Frames (R176 to R179) -/

/-- A valid request frame whose code names no request is refused UNKNOWN (R179). -/
def execUnknownRequest (code : Byte) (f : Frame) (s : State) : Host.Outcome State Fault Refusal :=
  done (takeFrame code f (refuse .unknown) s)

/-- The frame at the port is discarded and its sticky FRAME flag set; the receiver hunts from the next byte (R177). -/
def setFrameFlag (p : Port) (s : State) : State :=
  s.onPort p (fun q => { q with frameFlag := true, receiver := .hunting })

/-- A frame is discarded with FRAME; one whose only fault is its kind is a valid frame, which port M's monitor hears (R177,
R140). -/
def frameDiscarded (p : Port) (why : FrameFault) (s : State) : State :=
  setFrameFlag p
    (match why with
      | .notRequest => hearFrame p s
      | .badLength => s
      | .noStopBit => s
      | .lineBreak => s
      | .crcMismatch => s)

/-- A port command that acts whenever the part has its supply. -/
def whenPowered (f : State → State) (s : State) : State := if s.powered then f s else s

/-- INVALID_FRAME (R177). -/
def execInvalidFrame (p : Port) (why : FrameFault) (s : State) : Host.Outcome State Fault Refusal :=
  done (whenPowered (frameDiscarded p why) s)

/-- FRAME_GAP_TIMEOUT: more than 10 ms within a frame (R177). -/
def execFrameGapTimeout (p : Port) (s : State) : Host.Outcome State Fault Refusal :=
  done (whenPowered (setFrameFlag p) s)

/-- A valid request frame finds the buffer full: discarded with OVERRUN (R178). -/
def overran (p : Port) (s : State) : State :=
  if (s.ports.get p).held.isSome then
    (hearFrame p s).onPort p (fun q => { q with overrunFlag := true })
  else s

/-- OVERRUN (R178). -/
def execOverrun (p : Port) (s : State) : Host.Outcome State Fault Refusal := done (whenPowered (overran p) s)

end Sys2Proof.Machine
end

