-- ==== Sys2Proof/Machine/SettingsCommands.lean ====
section
/-!
DEFINITION. SET (10.1): the settings by their numbers, their ranges, the checks of R194 and the in-use test of R195.
-/
namespace Sys2Proof.Machine

/-- The settings, in the order of the table of R193. -/
inductive Setting where
  | denomination (d : Ix)
  | modeIndex (k : Ix)
  | capacity (k : Ix)
  | low (k : Ix)
  | delayThreshold | delayTime | holdupExtension | holdupCap | remainderLimit | presentTimeout | idleTimeout | postingLimit
  | binCapacity | entryDelay
  deriving DecidableEq, Repr

/-- The setting a SET names by its setting and number bytes, or none (R194, 11.2). -/
def settingOf (id number : Nat) : Option Setting :=
  match id with
  | 1 => (ixOf number).map .denomination
  | 2 => (ixOf number).map .modeIndex
  | 3 => (ixOf number).map .capacity
  | 4 => (ixOf number).map .low
  | 5 => some .delayThreshold
  | 6 => some .delayTime
  | 7 => some .holdupExtension
  | 8 => some .holdupCap
  | 9 => some .remainderLimit
  | 10 => some .presentTimeout
  | 11 => some .idleTimeout
  | 12 => some .postingLimit
  | 13 => some .binCapacity
  | 14 => some .entryDelay
  | _ => none

/-- The setting identifier with the cassette or denomination number, as a record's extra field holds it (R196;
notes/assumptions/23.md). -/
def Setting.extra : Setting → Nat
  | .denomination d => 1 * 256 + d.number
  | .modeIndex k => 2 * 256 + k.number
  | .capacity k => 3 * 256 + k.number
  | .low k => 4 * 256 + k.number
  | .delayThreshold => 5 * 256
  | .delayTime => 6 * 256
  | .holdupExtension => 7 * 256
  | .holdupCap => 8 * 256
  | .remainderLimit => 9 * 256
  | .presentTimeout => 10 * 256
  | .idleTimeout => 11 * 256
  | .postingLimit => 12 * 256
  | .binCapacity => 13 * 256
  | .entryDelay => 14 * 256

/-- A setting whose value is an amount (R193). -/
def Setting.isAmount : Setting → Bool
  | .denomination _ => true
  | .delayThreshold => true
  | .holdupCap => true
  | .remainderLimit => true
  | .postingLimit => true
  | .modeIndex _ => false
  | .capacity _ => false
  | .low _ => false
  | .delayTime => false
  | .holdupExtension => false
  | .presentTimeout => false
  | .idleTimeout => false
  | .binCapacity => false
  | .entryDelay => false

/-- The cassette a setting belongs to. -/
def Setting.cassette? : Setting → Option Ix
  | .modeIndex k => some k
  | .capacity k => some k
  | .low k => some k
  | _ => none

/-- A value kept within a range. -/
def within (low high v : Nat) : Nat := max low (min high v)

/-- The least capacity that the present contents allow a cassette (R4, R193): its total, and one more while a committed note
is on its way to it. -/
def State.capacityFloor (s : State) (k : Ix) : Nat :=
  let total := (s.position.cassettes.get k).total
  match s.escrow.op with
  | some (.commit o) => if o.chosen = some k ∧ o.lost = false ∧ o.ended = none then total + 1 else total
  | _ => total

/-- The least envelope bin capacity that the present contents allow (R193). -/
def State.binFloor (s : State) : Nat := s.depository.bin.count + (if s.depository.envelope.isSome then 1 else 0)

/-- The number a SET applies to a setting that is one number (R193). -/
def State.appliedNumber (s : State) (x : Setting) (v : Nat) : Nat :=
  match x with
  | .denomination _ => if v = 0 then 0 else within 100 999999 v
  | .modeIndex _ => v
  | .capacity k => max (s.capacityFloor k) (within 100 2500 v)
  | .low _ => min 500 v
  | .delayThreshold => v
  | .delayTime => within 10 900 v
  | .holdupExtension => min 900 v
  | .holdupCap => min 999999 v
  | .remainderLimit => min 999 v
  | .presentTimeout => within 5 120 v
  | .idleTimeout => within 30 600 v
  | .postingLimit => v
  | .binCapacity => max s.binFloor (within 100 1500 v)
  | .entryDelay => within 5 120 v

/-- The number a setting holds (the mode and index of a cassette is none). -/
def State.settingNumber (s : State) (x : Setting) : Nat :=
  match x with
  | .denomination d => s.settings.denominations.get d
  | .modeIndex _ => 0
  | .capacity k => (s.position.cassettes.get k).capacity
  | .low k => (s.position.cassettes.get k).low
  | .delayThreshold => s.settings.delayThreshold
  | .delayTime => s.settings.delayTime
  | .holdupExtension => s.settings.holdupExtension
  | .holdupCap => s.settings.holdupCap
  | .remainderLimit => s.settings.remainderLimit
  | .presentTimeout => s.settings.presentTimeout
  | .idleTimeout => s.settings.idleTimeout
  | .postingLimit => s.settings.postingLimit
  | .binCapacity => s.settings.binCapacity
  | .entryDelay => s.settings.entryDelay

/-- One setting without a cassette written. -/
def onSettings (f : Settings → Settings) (s : State) : State := { s with settings := f s.settings }

/-- A new bin capacity acts: the near-full mark, its notice and the open permit (R118, R132). -/
def newBinCapacity (s : State) : State :=
  let near : Bool := s.settings.binCapacity ≤ s.depository.bin.count + Config.nearFullMargin
  let s :=
    if near then s else s.onDepository (fun d => { d with bin := { d.bin with nearFull := false } })
  judgePermit (judgeBin false s)

/-- A number written to a setting, with what follows at once (R193, R195). -/
def writeSetting (x : Setting) (v : Nat) (s : State) : State :=
  match x with
  | .denomination d => onSettings (fun r => { r with denominations := r.denominations.set d v }) s
  | .modeIndex _ => s
  | .capacity k => writeCassette k { s.position.cassettes.get k with capacity := v } s
  | .low k => writeCassette k { s.position.cassettes.get k with low := v } s
  | .delayThreshold => onSettings (fun r => { r with delayThreshold := v }) s
  | .delayTime => onSettings (fun r => { r with delayTime := v }) s
  | .holdupExtension => onSettings (fun r => { r with holdupExtension := v }) s
  | .holdupCap => onSettings (fun r => { r with holdupCap := v }) s
  | .remainderLimit => onSettings (fun r => { r with remainderLimit := v }) s
  | .presentTimeout => onSettings (fun r => { r with presentTimeout := v }) s
  | .idleTimeout => onSettings (fun r => { r with idleTimeout := v }) s
  | .postingLimit => onSettings (fun r => { r with postingLimit := v }) s
  | .binCapacity => newBinCapacity (onSettings (fun r => { r with binCapacity := v }) s)
  | .entryDelay => onSettings (fun r => { r with entryDelay := v }) s

/-- A number in its SET value layout (11.2). -/
def Setting.bytes (x : Setting) (v : Nat) : List Byte :=
  if x.isAmount then writeU4 v else [0#8, 0#8] ++ bytesOf 2 v

/-- A mode and index in their SET value layout: an absent index is zero (11.2). -/
def modeBytes (mode : CassetteMode) (index : Option Ix) : List Byte :=
  [BitVec.ofNat 8 (modeCode mode), BitVec.ofNat 8 (match index with | some d => d.number | none => 0), 0#8, 0#8]

/-- The SETTING record of an accepted SET; it does not move the last-applied sequence (R196). -/
def recordSetting (x : Setting) (before applied : List Byte) (s : State) : State :=
  (stage
    { kind := .setting, port := some .s, outcome := 1, extra := x.extra,
      detail := .setting (settingBytes before) (settingBytes applied) }
    s).2

/-- An accepted SET of a number: record, value, reply (R193, R196). -/
def acceptNumber (x : Setting) (operand : Nat) (s : State) : Answer × State :=
  let v := s.appliedNumber x operand
  let before := x.bytes (s.settingNumber x)
  let s := recordSetting x before (x.bytes v) s
  okOrClamped (v != operand) (.setting before (x.bytes v)) (writeSetting x v s)

/-- An accepted SET of a cassette's mode and index: its state stays (R195). -/
def acceptMode (k : Ix) (mode : CassetteMode) (index : Option Ix) (s : State) : Answer × State :=
  let c := s.position.cassettes.get k
  let before := modeBytes c.mode c.index
  let s := recordSetting (.modeIndex k) before (modeBytes mode index) s
  ok (.setting before (modeBytes mode index)) (writeCassetteAs k { c with mode := mode, index := index } s)

/-- The first place that holds a count of a denomination (R195). -/
def State.placeOf (s : State) (d : Ix) : Option Place :=
  match Ix.all.find? (fun k => (s.position.cassettes.get k).counts.get d != 0) with
  | some k => some (.cassette k)
  | none =>
    if (stackNotes s.escrow.stack).get d ≠ 0 then some .escrow
    else if s.position.transit.get d ≠ 0 then some .transit
    else if (s.position.pockets.get .a).get d ≠ 0 then some (.pocket .a)
    else if (s.position.pockets.get .b).get d ≠ 0 then some (.pocket .b)
    else if s.position.reject.get d ≠ 0 then some .reject
    else if s.position.retract.get d ≠ 0 then some .retract
    else if s.position.discrepancy.get d ≠ 0 then some .discrepancy
    else none

/-- SET of a denomination value: checks 4 to 6 (R194, R195). -/
def setDenomination (d : Ix) (v : Nat) (s : State) : Answer × State :=
  if s.anyOpInFlight then refuse .busy s
  else
    let (fine, s) := verifyCassettes s
    if !fine then refuse .audit s
    else
      match s.placeOf d with
      | some place => refuseWith .inUse (.inUse place) s
      | none => withRoom 1 1 s (acceptNumber (.denomination d) v s)

/-- The mode and index operand: none where RANGE (R194). That an index byte given with DEPOSIT and the last two value bytes are not read,
neither refused nor answered CLAMPED, is a DESIGN CHOICE (R193; notes/assumptions/109.md). -/
def modeOperand (ops : List Byte) : Option (CassetteMode × Option Ix) :=
  match modeOf (byteField ops 2) with
  | none => none
  | some .deposit => some (.deposit, none)
  | some mode => (ixOf (byteField ops 3)).map (fun d => (mode, some d))

/-- SET of a cassette's mode and index: checks 3 to 6 (R194, R195). -/
def setMode (k : Ix) (ops : List Byte) (s : State) : Answer × State :=
  match modeOperand ops with
  | none => refuse .range s
  | some (mode, index) =>
    if s.anyOpInFlight then refuse .busy s
    else
      let (fine, s) := verifyCassette k s
      if !fine then refuse .audit s
      else if 0 < (s.position.cassettes.get k).total then refuse .inUse s
      else withRoom 1 1 s (acceptMode k mode index s)

/-- SET of a setting of one number that is never in use; a cassette's record is verified as it is read (R9, R194). -/
def setNumber (x : Setting) (v : Nat) (s : State) : Answer × State :=
  match x.cassette? with
  | none => withRoom 1 1 s (acceptNumber x v s)
  | some k =>
    let (fine, s) := verifyCassette k s
    if !fine then refuse .audit s else withRoom 1 1 s (acceptNumber x v s)

/-- The number a SET gives: an amount, digit-checked, or the integer in the last two bytes (R194, 11.2). -/
def settingOperand (x : Setting) (ops : List Byte) : Except Nat Nat :=
  if x.isAmount then readU4 (field ops 2 4) else .ok (intField ops 4 2)

/-- SET at its owning block: the checks of R194. -/
def setOwnerBlock (ops : List Byte) (s : State) : Answer × State :=
  match settingOf (byteField ops 0) (byteField ops 1) with
  | none => refuse .range s
  | some x =>
    match settingOperand x ops with
    | .error p => refuseDigit 1 p s
    | .ok v =>
      match x with
      | .denomination d => setDenomination d v s
      | .modeIndex k => setMode k ops s
      | x => setNumber x v s

/-- SET (R193 to R196). -/
def execSetSetting (f : Frame) (s : State) : Host.Outcome State Fault Refusal :=
  done (takeRequest .setSetting f (setOwnerBlock f.operands) s)

end Sys2Proof.Machine
end

