-- ==== Sys2Proof/Machine/StartUps.lean ====
section
/-!
DEFINITION. The transmitters' ends, the journal's writes, and start-up: the reset causes, the phases CHECK, PURGE and READY (R166,
R167, R174, R175, R186, R197 to R200).
-/
namespace Sys2Proof.Machine

/-! ## What a reset does not keep (R197, 10.3) -/

/-- The claim at a reset and at the end of start-up: HOLD with notes in escrow, otherwise NONE (R56). -/
def settleOwner (s : State) : State := setOwner (if s.escrow.stack = [] then .none else .hold) s

/-- The dispense records are set to IDLE; a dispense that had changed a cassette count ends here with its generation step (R8,
R93; notes/assumptions/28.md). -/
def resetDispenses (s : State) : State :=
  let s := stepGeneration (s.dispense .a).changed s
  let s := stepGeneration (s.dispense .b).changed s
  { s with dispenses := ⟨Dispense.idle, Dispense.idle⟩ }

/-- What the envelope controller does not keep (R134). The mark behind TAKE ENVELOP, which R134 does not list, is cleared with the rest, a
DESIGN CHOICE (R121; notes/assumptions/77.md), and so is FIRST_PULL for the intake phase, which then has no meaning
(notes/assumptions/83.md). -/
def Depository.restarted (d : Depository) : Depository :=
  { d with
    phase := .firstPull, pullbacks := [], entry := .empty, imprinterFault := false, receiptOut := false, clearing := none,
    takeEnvelope := false, intakeTimer := false, reverseTimer := false, imprinterTimer := false, dropTimer := false,
    clearTimer := false, keypadTimer := false, receipts := [] }

/-- What a zone does not keep (R158). A zone found in ENTRY_TIMING keeps the port whose duress raise began it, a DESIGN CHOICE
(notes/assumptions/78.md). -/
def Zone.restarted (r : Zone) : Zone :=
  { r with reading := .normal, debounceTimer := none, inputActive := false, trouble := false, entryTimer := none }

/-- Every zone record changed by a function. -/
def AlarmUnit.mapZones (u : AlarmUnit) (f : Zone → Zone) : AlarmUnit :=
  allZones.foldl (fun u z => u.setZone z (f (u.zone z))) u

/-- What the alarm unit does not keep; the level, the set and the silent line follow from the zones (R158). -/
def AlarmUnit.restarted (u : AlarmUnit) : AlarmUnit :=
  let u := u.mapZones Zone.restarted
  { u with
    level := u.activeLevel, restriction := u.latchedEffects, silentLine := u.latchedEffects.has .silentLine,
    sounder := false, sounderTimer := none, monitorTimer := none, changed := false }

/-- What the journal does not keep on any reset: the end hold and the attempts at a record (R174). An OP_DONE that waits on a staged
record stays, since the warm reset writes the record out (notes/assumptions/29.md). -/
def Journal.restarted (j : Journal) : Journal := { j with endHold := [], attempts := 0 }

/-- The state that no block keeps set to its reset value, on every cause (R197). -/
def resetVolatile (s : State) : State :=
  let s := resetDispenses s
  let s :=
    { s with
      ports := ⟨PortState.reset, PortState.reset, PortState.reset, PortState.reset⟩
      claim := { s.claim with waiting := [] }
      path := NotePath.clear .purging
      depository := s.depository.restarted
      alarm := s.alarm.restarted
      journal := s.journal.restarted }
  settleOwner s

/-! ## Phase CHECK (R198) -/

/-- The records left in the staging queue are lost (R174), and with them the OP_DONEs that wait on them. -/
def loseStaging (s : State) : State :=
  s.onJournal (fun j => { j with staging := [], write := .idle, writing := false, attempts := 0, waitingDone := [] })

/-- The gap check (R175): the next sequence number is set, and where records that changed the position were lost a GAP record
stands for them. -/
def gapCheck (s : State) : State :=
  let last := s.position.lastApplied
  let durable := s.journal.durable
  let after (n : Nat) : Option Nat := if n < Config.lastSequence then some (n + 1) else none
  if last ≤ durable then s.onJournal (fun j => { j with next := after durable })
  else
    let s := s.onJournal (fun j => { j with next := after last })
    let (_, s) := stage { kind := .gap, counts := ⟨(last - durable : Nat), 0, 0, 0⟩, extra := last } s
    addCause .gap s

/-- An ENVELOPE record that carries a sequence number used (R128). -/
def Record.numbersEnvelope (r : Record) : Bool := r.kind == .envelope && r.outcome != 4

/-- The envelope sequence number of a cold start (R128). -/
def Journal.envelopeSequence (j : Journal) : Nat :=
  match j.retained.reverse.find? Record.numbersEnvelope with
  | some r => nextEnvelope r.extra
  | none => 1

/-- Zones found in ENTRY_TIMING have their timers started afresh (R158). -/
def restartEntryTimers (s : State) : State :=
  allZones.foldl
    (fun s z =>
      if (s.zone z).state = .entryTiming then onZone z (fun r => { r with entryTimer := some s.settings.entryDelay }) s
      else s)
    s

/-- The first reading of each wired loop is judged (R158). -/
def judgeLoops (s : State) : State :=
  wiredZones.foldl (fun s z => judgeReading (wired z) (s.pins.loops.get z) s) s

/-- A zone kept latched whose first input is NORMAL is restored (R158). -/
def restoreKept (kept : Fin 16 → Bool) (s : State) : State :=
  allZones.foldl (fun s z => if kept z && !(s.zone z).inputActive then restore z s else s) s

/-- A zone kept in PENDING_ACTIVE or ACKED_ACTIVE. -/
def State.keptActive (s : State) (z : Fin 16) : Bool :=
  (s.zone z).state == .pendingActive || (s.zone z).state == .ackedActive

/-- The alarm unit's start-up steps (R158). -/
def alarmStart (s : State) : State :=
  let kept := s.keptActive
  let s := restoreKept kept (judgeLoops (restartEntryTimers s))
  s.onAlarm (fun u => { u with monitorTimer := some Config.monitorTime })

/-- The cassette-present sensor of one slot is read (R198). -/
def readSensor (k : Ix) (s : State) : State :=
  if s.pins.cassettePresent.get k then bookInsertion k s
  else if (s.position.cassettes.get k).state = .absent then s
  else bookRemoval k s

/-- The cassette-present sensors are read (R198), and the cassettes found changed are booked in the order C1 to C4, a DESIGN CHOICE
(notes/assumptions/86.md). -/
def readSensors (s : State) : State := Ix.all.foldl (fun s k => readSensor k s) s

/-! ## Phase PURGE (R199) -/

/-- The escrow operation cut by a reset is ended: a feeding bundle without notes leaves the stack, one with notes is
TRUNCATED, and the verdict becomes NONE (R116); a commit that had delivered notes ends with its generation step (R8). -/
def cutEscrow (s : State) : State :=
  match s.escrow.op with
  | none => s
  | some op =>
    let commits : Bool := match op with | .commit _ => true | .insert _ => false | .give _ => false
    let s := stepGeneration (commits && 0 < s.escrow.tally.perCassette.total) s
    let feeding : Bool := match op with | .insert _ => true | .give _ => false | .commit _ => false
    s.onEscrow (fun e =>
      { e with
        op := none
        verdict := .none
        stack :=
          match e.stack with
          | [] => []
          | b :: beneath =>
            if !feeding then b :: beneath
            else if 0 < b.notes.total then { b with truncated := true } :: beneath
            else beneath })

/-- The slot's start-up run, where the slot is found with an envelope on its way (R134). -/
def startSlot (envelopeInPath : Bool) (s : State) : State :=
  match s.depository.slot with
  | .intake => startClearRun .atStartUp s
  | .imprint => startClearRun .atStartUp s
  | .drop => startClearRun .atStartUp s
  | .jammed => s
  | .open_ => if envelopeInPath then startClearRun .atStartUp s else s
  | .closed => if envelopeInPath then startClearRun .atStartUp s else s

/-- Phase PURGE begins: the escrow operation is ended, the module purged, the slot cleared (R199). The arguments are the
drum's and the envelope path's reports at a cold start (R116, R134). -/
def enterPurge (drumNotes envelopeInPath : Bool) (s : State) : State :=
  let s := { s with startUp := { s.startUp with phase := .purge } }
  startSlot envelopeInPath
    (startPurge true (purgeSources ++ (if drumNotes then [.drum] else [])) (cutEscrow s))

/-- CHECK from the gap check on, once the staging queue is settled, and the entry to PURGE (R198). -/
def continueCheck (drumNotes envelopeInPath : Bool) (s : State) : State :=
  let s := gapCheck s
  let s :=
    if s.startUp.kind = .cold then
      s.onDepository (fun d => { d with sequence := s.journal.envelopeSequence })
    else s
  enterPurge drumNotes envelopeInPath (readSensors (alarmStart s))

/-! ## The causes of a reset (R197) -/

/-- Every battery-backed block at its cold-start value (R198); the journal is kept. -/
def coldStart (s : State) : State :=
  raiseRestriction
    { s with
      clock := ⟨0, true⟩
      position := Position.cold s.pins.cassettePresent s.journal.durable
      settings := Settings.defaults
      escrow := Escrow.closed
      depository := Depository.cold 1
      alarm := AlarmUnit.cold
      claim := ⟨.none, [], none⟩ }

/-- Start-up begins with a reset kind: the volatile state, then CHECK. -/
def beginStartUp (kind : ResetKind) (s : State) : State := resetVolatile { s with startUp := ⟨.check, kind⟩ }

/-- SUPPLY_APPLIED (R197, R198): the memory check decides between POWER_UP and COLD; the staging queue is lost. -/
def supplyApplied (memoryGood drumNotes envelopeInPath : Bool) (s : State) : State :=
  if s.powered then s
  else if memoryGood then continueCheck false false (loseStaging (beginStartUp .powerUp s))
  else continueCheck drumNotes envelopeInPath (coldStart (loseStaging (beginStartUp .cold s)))

/-- SUPPLY_APPLIED (R197). -/
def execSupplyApplied (memoryGood drumNotes envelopeInPath : Bool) (s : State) : Host.Outcome State Fault Refusal :=
  done (supplyApplied memoryGood drumNotes envelopeInPath s)

/-- POWER_LOSS: all activity stops; battery-backed and nonvolatile state is kept (R197). What is not kept is set to its reset
value when the supply returns. -/
def execPowerLoss (s : State) : Host.Outcome State Fault Refusal :=
  done { s with startUp := { s.startUp with phase := .off } }

/-- A warm reset: a staging queue that holds records is written out first (R174, R198). -/
def warmReset (w : WarmSource) (s : State) : State :=
  let s := beginStartUp (.warm w) s
  if s.journal.staging = [] then continueCheck false false (loseStaging s)
  else s.onJournal (fun j => { j with write := .writing, writing := true })

/-- RESET_LINE (R197). -/
def execResetLine (s : State) : Host.Outcome State Fault Refusal :=
  done (if s.powered then warmReset .resetLine s else s)

/-! ## RESTART and the transmitters (R186, R197) -/

/-- RESTART at its owning block: OK, no record (R197). The warm reset begins when the reply has been sent. -/
def restartOwner (s : State) : Answer × State := ok .none s

/-- RESTART (R197). -/
def execRestart (f : Frame) (s : State) : Host.Outcome State Fault Refusal := done (takeRequest .restart f restartOwner s)

/-- The reply OK to a RESTART. -/
def Reply.restarts (r : Reply) : Bool := r.code == Request.restart.code && r.status == .ok

/-- Port S is sending the last part of the reply OK to a RESTART. -/
def State.restartSending (s : State) : Bool :=
  match s.ports.s.transmitter with
  | .reply r 0 => r.restarts
  | .reply _ (_ + 1) => false
  | .notice _ _ _ _ => false
  | .idle => false

/-- The last byte of a frame has been sent: the next part of a reply, or the transmitter idle with the held frame released
(R178, R186). -/
def frameSent (p : Port) (s : State) : State :=
  match (s.ports.get p).transmitter with
  | .idle => s
  | .notice _ _ _ _ => s.onPort p (fun q => { q with transmitter := .idle })
  | .reply r (n + 1) => s.onPort p (fun q => { q with transmitter := .reply r n })
  | .reply _ 0 => s.onPort p (fun q => { q with transmitter := .idle, held := none })

/-- FRAME_SENT (R186): the end of the reply to RESTART begins the warm reset (R197; notes/assumptions/30.md). -/
def execFrameSent (p : Port) (s : State) : Host.Outcome State Fault Refusal :=
  done
    (if s.powered then
      if p = .s ∧ s.restartSending then warmReset .restart s else frameSent p s
    else s)

/-- RESTART_RESET: the last byte of the RESTART reply has been sent (R197). -/
def execRestartReset (s : State) : Host.Outcome State Fault Refusal :=
  done (if s.powered ∧ s.restartSending then warmReset .restart s else s)

/-! ## The journal's writes (R166, R167, R174) -/

/-- OP_DONE is raised for the operations whose closing record has become durable (R92, R166). -/
def raiseDone (n : Nat) (s : State) : State :=
  let due := s.journal.waitingDone.filter (fun w => w.done.closing == n)
  let s := s.onJournal (fun j => { j with waitingDone := j.waitingDone.filter (fun w => w.done.closing != n) })
  due.foldl (fun s w => raise w.port (.opDone w.done) s) s

/-- A SYNC of a port whose number the durable mark has reached is answered (R168). -/
def answerSync (p : Port) (s : State) : State :=
  match s.awaited p with
  | some n => if n ≤ s.journal.durable then formReply p .ok none (.synced s.journal.durable n) s else s
  | none => s

/-- Every SYNC whose number has been reached is answered. -/
def answerSyncs (s : State) : State := answerSync .m (answerSync .s (answerSync .b (answerSync .a s)))

/-- The head of the staging queue is durable (R166): it is retained, the mark moves, the next write begins. -/
def retainHead (r : Record) (rest : List Record) (s : State) : State :=
  s.onJournal (fun j =>
    { j with
      staging := rest
      retained := j.retained ++ [r]
      durable := r.sequence
      attempts := 0
      write := if rest = [] then .idle else .writing
      writing := !rest.isEmpty })

/-- CHECK goes on once the staging queue of a warm reset is settled (R198). -/
def checkGoesOn (s : State) : State :=
  if s.startUp.phase = .check ∧ s.journal.staging = [] then continueCheck false false s else s

/-- A write is complete (R166). -/
def writeCompleted (s : State) : State :=
  if s.journal.writing then
    match s.journal.staging with
    | [] => s
    | r :: rest =>
      let s := answerSyncs (raiseDone r.sequence (retainHead r rest s))
      checkGoesOn (drainEndHold s.journal.endHold.length s)
  else s

/-- WRITE_COMPLETE (R166). -/
def execWriteComplete (s : State) : Host.Outcome State Fault Refusal := 
  done (if s.powered then writeCompleted s else s)

/-- The third attempt at a record has failed: STALLED, or in CHECK the staged records are lost (R167, R174). -/
def writeGivenUp (s : State) : State :=
  if s.startUp.phase = .check then checkGoesOn (loseStaging s)
  else
    let entering : Bool := s.journal.write != .stalled
    let s := s.onJournal (fun j => { j with write := .stalled, writing := false })
    if entering then raiseJournalHigh s else s

/-- A write has failed (R167). -/
def writeFailedOnce (s : State) : State :=
  if s.journal.writing then
    let n := s.journal.attempts + 1
    let s := s.onJournal (fun j => { j with attempts := min Config.writeAttempts n })
    if Config.writeAttempts ≤ n then writeGivenUp s else s
  else s

/-- WRITE_FAILED (R167). -/
def execWriteFailed (s : State) : Host.Outcome State Fault Refusal :=
  done (if s.powered then writeFailedOnce s else s)

/-- While STALLED, the write is repeated once every second (R167). -/
def retryWrite (s : State) : State :=
  if s.journal.write = .stalled ∧ s.journal.writing = false then s.onJournal (fun j => { j with writing := true }) else s

/-- STALLED_RETRY (R167). -/
def execStalledRetry (s : State) : Host.Outcome State Fault Refusal := done (if s.powered then retryWrite s else s)

/-! ## READY (R200) -/

/-- Phase PURGE has ended: the purge and the slot's run both (R199). -/
def State.purgeEnded (s : State) : Bool :=
  s.startUp.phase == .purge && s.path.purge.isNone && s.depository.clearing.isNone

/-- The claim at the end of start-up, with GRANT for HOLD (R200). -/
def readyClaim (s : State) : State :=
  let s := settleOwner s
  if s.claim.owner = .hold then raise .s (.grant .hold) s else s

/-- A PENDING_ACTIVE zone has SOUNDER (R158). -/
def State.soundDue (s : State) : Bool :=
  allZones.any (fun z => (s.zone z).state == .pendingActive && (s.zone z).config.effects.has .sounder)

/-- The alarm outputs at the end of start-up, with RESTRICTION and ALARM_CHANGE (R158, R200). -/
def readyAlarm (s : State) : State :=
  let s :=
    if s.soundDue then s.onAlarm (fun u => { u with sounder := true, sounderTimer := some Config.sounderTime }) else s
  let s := s.onAlarm (fun u => { u with silentLine := u.restriction.has .silentLine, changed := false })
  raiseAlarmChange (raiseRestriction s)

/-- The POWER_UP record and RESTARTED (R187, R200). -/
def recordPowerUp (s : State) : State :=
  let kind := s.startUp.kind
  let outcome : Nat := match kind with | .powerUp => 1 | .warm _ => 2 | .cold => 3
  let detail : Detail := match kind with | .warm w => .warm w | .powerUp => .none | .cold => .none
  let (n, s) :=
    eventRecord
      { kind := .powerUp, outcome := outcome, counts := ⟨if kind = .cold then 1 else 0, 0, 0, 0⟩, detail := detail } s
  raiseTo allPorts (.restarted kind (n.getD 0) s.position.causes s.claim.owner) s

/-- A window's pending duress raise is taken (R184). -/
def takeDuress (t : Teller) (s : State) : State :=
  if (s.ports.get t.port).duressPending then
    momentary 15 (some t.port) (s.onPort t.port (fun q => { q with duressPending := false }))
  else s

/-- Start-up finishes, in the order of R200. -/
def startUpReady (s : State) : State :=
  if s.purgeEnded then
    let s := recordPowerUp (readyAlarm (judgePermit (readyClaim s)))
    let s := { s with startUp := { s.startUp with phase := .ready } }
    takeDuress .b (takeDuress .a s)
  else s

/-- START_UP_READY (R200). -/
def execStartUpReady (s : State) : Host.Outcome State Fault Refusal := done (startUpReady s)

end Sys2Proof.Machine
end

