-- ==== Sys2Proof/Machine/Dispatch.lean ====
section
/-!
DEFINITION. One arm for each command of spec/opcode_table.json: its meaning.
-/
namespace Sys2Proof.Machine

def exec (i : Instr) (s : State) : Host.Outcome State Fault Refusal :=
  match i with
  | .dispense f => Sys2Proof.Machine.execDispense f s
  | .cancel f => Sys2Proof.Machine.execCancel f s
  | .claim f => Sys2Proof.Machine.execClaim f s
  | .release f => Sys2Proof.Machine.execRelease f s
  | .depositOpen f => Sys2Proof.Machine.execDepositOpen f s
  | .depositClose f => Sys2Proof.Machine.execDepositClose f s
  | .insertNotes f => Sys2Proof.Machine.execInsertNotes f s
  | .returnLast f => Sys2Proof.Machine.execReturnLast f s
  | .returnAll f => Sys2Proof.Machine.execReturnAll f s
  | .compareEscrow f => Sys2Proof.Machine.execCompareEscrow f s
  | .commit f => Sys2Proof.Machine.execCommit f s
  | .post f => Sys2Proof.Machine.execPost f s
  | .handover f => Sys2Proof.Machine.execHandover f s
  | .load f => Sys2Proof.Machine.execLoad f s
  | .unload f => Sys2Proof.Machine.execUnload f s
  | .unloadBin f => Sys2Proof.Machine.execUnloadBin f s
  | .reconcile f => Sys2Proof.Machine.execReconcile f s
  | .jamClearModule f => Sys2Proof.Machine.execJamClearModule f s
  | .jamClearSlot f => Sys2Proof.Machine.execJamClearSlot f s
  | .slotOpen f => Sys2Proof.Machine.execSlotOpen f s
  | .slotClose f => Sys2Proof.Machine.execSlotClose f s
  | .binEmptied f => Sys2Proof.Machine.execBinEmptied f s
  | .zoneSet f => Sys2Proof.Machine.execZoneSet f s
  | .arm f => Sys2Proof.Machine.execArm f s
  | .disarm f => Sys2Proof.Machine.execDisarm f s
  | .bypass f => Sys2Proof.Machine.execBypass f s
  | .alarmAck f => Sys2Proof.Machine.execAlarmAck f s
  | .alarmList f => Sys2Proof.Machine.execAlarmList f s
  | .silence f => Sys2Proof.Machine.execSilence f s
  | .journalRead f => Sys2Proof.Machine.execJournalRead f s
  | .journalScan f => Sys2Proof.Machine.execJournalScan f s
  | .trim f => Sys2Proof.Machine.execTrim f s
  | .sync f => Sys2Proof.Machine.execSync f s
  | .status f => Sys2Proof.Machine.execStatus f s
  | .positionRead f => Sys2Proof.Machine.execPositionRead f s
  | .clearFaults f => Sys2Proof.Machine.execClearFaults f s
  | .approve f => Sys2Proof.Machine.execApprove f s
  | .clockSet f => Sys2Proof.Machine.execClockSet f s
  | .setSetting f => Sys2Proof.Machine.execSetSetting f s
  | .restart f => Sys2Proof.Machine.execRestart f s
  | .unknownRequest code f => Sys2Proof.Machine.execUnknownRequest code f s
  | .invalidFrame p why => Sys2Proof.Machine.execInvalidFrame p why s
  | .frameGapTimeout p => Sys2Proof.Machine.execFrameGapTimeout p s
  | .overrun p => Sys2Proof.Machine.execOverrun p s
  | .frameSent p => Sys2Proof.Machine.execFrameSent p s
  | .duressRaise t => Sys2Proof.Machine.execDuressRaise t s
  | .claimIdleExpiry => Sys2Proof.Machine.execClaimIdleExpiry s
  | .delayEnd t => Sys2Proof.Machine.execDelayEnd t s
  | .presentTimerExpiry t => Sys2Proof.Machine.execPresentTimerExpiry t s
  | .pocketEmpty t => Sys2Proof.Machine.execPocketEmpty t s
  | .pickEvent m => Sys2Proof.Machine.execPickEvent m s
  | .noteCheck r => Sys2Proof.Machine.execNoteCheck r s
  | .noteSensorArrival a => Sys2Proof.Machine.execNoteSensorArrival a s
  | .noteJam lastSeen => Sys2Proof.Machine.execNoteJam lastSeen s
  | .retractNoteCounted d => Sys2Proof.Machine.execRetractNoteCounted d s
  | .drawSourceEmpty => Sys2Proof.Machine.execDrawSourceEmpty s
  | .cassetteRemoval k => Sys2Proof.Machine.execCassetteRemoval k s
  | .cassetteInsertion k => Sys2Proof.Machine.execCassetteInsertion k s
  | .feedTake => Sys2Proof.Machine.execFeedTake s
  | .feedMiss => Sys2Proof.Machine.execFeedMiss s
  | .insertVerdict v => Sys2Proof.Machine.execInsertVerdict v s
  | .drumEntry => Sys2Proof.Machine.execDrumEntry s
  | .compartmentEntry => Sys2Proof.Machine.execCompartmentEntry s
  | .returnPocketEntry => Sys2Proof.Machine.execReturnPocketEntry s
  | .intakeEmpty t => Sys2Proof.Machine.execIntakeEmpty t s
  | .drumExit => Sys2Proof.Machine.execDrumExit s
  | .drumEmpty => Sys2Proof.Machine.execDrumEmpty s
  | .cassetteEntry k => Sys2Proof.Machine.execCassetteEntry k s
  | .gripOn => Sys2Proof.Machine.execGripOn s
  | .gripOff => Sys2Proof.Machine.execGripOff s
  | .imprintReport => Sys2Proof.Machine.execImprintReport s
  | .intakeTimerExpiry => Sys2Proof.Machine.execIntakeTimerExpiry s
  | .reverseTimerExpiry => Sys2Proof.Machine.execReverseTimerExpiry s
  | .imprinterReport r => Sys2Proof.Machine.execImprinterReport r s
  | .imprinterTimeout => Sys2Proof.Machine.execImprinterTimeout s
  | .dropReport => Sys2Proof.Machine.execDropReport s
  | .dropTimerExpiry => Sys2Proof.Machine.execDropTimerExpiry s
  | .clearRunExpiry => Sys2Proof.Machine.execClearRunExpiry s
  | .mouthClear => Sys2Proof.Machine.execMouthClear s
  | .keyDigit d => Sys2Proof.Machine.execKeyDigit d s
  | .keyEnter => Sys2Proof.Machine.execKeyEnter s
  | .keyClear => Sys2Proof.Machine.execKeyClear s
  | .keypadTimerExpiry => Sys2Proof.Machine.execKeypadTimerExpiry s
  | .receiptPrinterReport r => Sys2Proof.Machine.execReceiptPrinterReport r s
  | .paperLoaded => Sys2Proof.Machine.execPaperLoaded s
  | .loopReading z r => Sys2Proof.Machine.execLoopReading z r s
  | .debouncedReadingChange z => Sys2Proof.Machine.execDebouncedReadingChange z s
  | .entryTimerExpiry z => Sys2Proof.Machine.execEntryTimerExpiry z s
  | .monitorTimerExpiry => Sys2Proof.Machine.execMonitorTimerExpiry s
  | .sounderTimerExpiry => Sys2Proof.Machine.execSounderTimerExpiry s
  | .approvalExpiry p => Sys2Proof.Machine.execApprovalExpiry p s
  | .syncTimeout p => Sys2Proof.Machine.execSyncTimeout p s
  | .writeComplete => Sys2Proof.Machine.execWriteComplete s
  | .writeFailed => Sys2Proof.Machine.execWriteFailed s
  | .stalledRetry => Sys2Proof.Machine.execStalledRetry s
  | .clockTick => Sys2Proof.Machine.execClockTick s
  | .clockCalendarEnd => Sys2Proof.Machine.execClockCalendarEnd s
  | .supplyApplied memoryGood drumNotes envelopeInPath => Sys2Proof.Machine.execSupplyApplied memoryGood drumNotes envelopeInPath s
  | .powerLoss => Sys2Proof.Machine.execPowerLoss s
  | .resetLine => Sys2Proof.Machine.execResetLine s
  | .restartReset => Sys2Proof.Machine.execRestartReset s
  | .startUpReady => Sys2Proof.Machine.execStartUpReady s

end Sys2Proof.Machine
end

