-- ==== Sys2Proof/Machine/Lines.lean ====
section
/-!
DEFINITION. The receivers of the four port lines (R176, R177): what each byte, line fault or gap does to a receiver, and the command
that then waits in the queue. What happens on a line is no command of the part (notes/assumptions/42.md).
-/
namespace Sys2Proof.Machine

/-- What happens on a port's line (R176, R177). -/
inductive LineEvent where
  /-- A byte with its stop bit. -/
  | byte (b : Byte)
  /-- A byte with a missing stop bit. -/
  | noStopBit
  /-- A break. -/
  | lineBreak
  /-- The 10 ms gap timer expires. -/
  | gap
  deriving DecidableEq, Repr

/-- A byte at a receiver: 0A5h begins a frame while it hunts and every other byte is ignored; in a frame the byte belongs to the frame,
and the receiver hunts again once the frame is complete or discarded (R176, R177). -/
def Receiver.take (p : Port) (r : Receiver) (b : Byte) : Receiver × Option Instr :=
  match r with
  | .hunting => (if b = 0xA5#8 then .inFrame [] else .hunting, none)
  | .inFrame got =>
    match frameResult p (got ++ [b]) with
    | some c => (.hunting, some c)
    | none => (.inFrame (got ++ [b]), none)

/-- A fault of the line at a receiver: it discards the frame it falls in, and is ignored while the receiver hunts (R176, R177). -/
def Receiver.discard (r : Receiver) (c : Instr) : Receiver × Option Instr :=
  match r with
  | .hunting => (.hunting, none)
  | .inFrame _ => (.hunting, some c)

/-- What an event of the line makes of a receiver, and the command it gives (R176, R177). -/
def Receiver.hear (p : Port) (r : Receiver) (e : LineEvent) : Receiver × Option Instr :=
  match e with
  | .byte b => r.take p b
  | .noStopBit => r.discard (.invalidFrame p .noStopBit)
  | .lineBreak => r.discard (.invalidFrame p .lineBreak)
  | .gap => r.discard (.frameGapTimeout p)

/-- An event on a port's line while the part has its supply: the port's receiver takes it, and the command it completes joins the
queue (R176, R177). -/
def State.onLine (s : State) (p : Port) (e : LineEvent) : State :=
  if s.powered then
    let x := (s.ports.get p).receiver.hear p e
    let s := s.onPort p (fun q => { q with receiver := x.1 })
    { s with pending := s.pending ++ x.2.toList }
  else s

/-- Bytes that come in one after the other on a port's line. -/
def State.onBytes (s : State) (p : Port) (bytes : List Byte) : State :=
  bytes.foldl (fun s b => s.onLine p (.byte b)) s

end Sys2Proof.Machine
end

