-- ==== Sys2Proof/Safety.lean ====
section
/-!
DEFINITION. The words in which claims about the part are stated: what a step leaves as it was, a request that reaches its block, the
reply a port has formed, the law of conservation, the derived alarm figures, the order of the journal.
-/
namespace Sys2Proof.Machine

/-! ## What a step leaves as it was -/

/-- The blocks of the state. -/
inductive Block where
  | startUp | clock | pins | position | settings | claim | path | dispenses | escrow | depository | alarm | journal | ports
  | queue
  deriving DecidableEq, Repr

/-- A block is as it was. What the end of every step rewrites is left out: the idle timer (R53), the display line (R121), the mark of a
due ALARM_CHANGE (R154), and at the ports the reply and the notices on their way. -/
def Kept (b : Block) (s t : State) : Prop :=
  match b with
  | .startUp => t.startUp = s.startUp
  | .clock => t.clock = s.clock
  | .pins => t.pins = s.pins
  | .position => t.position = s.position
  | .settings => t.settings = s.settings
  | .claim => t.claim.owner = s.claim.owner ∧ t.claim.waiting = s.claim.waiting
  | .path => t.path = s.path
  | .dispenses => t.dispenses = s.dispenses
  | .escrow => t.escrow = s.escrow
  | .depository => { t.depository with display := s.depository.display } = s.depository
  | .alarm => { t.alarm with changed := s.alarm.changed } = s.alarm
  | .journal => t.journal = s.journal
  | .ports =>
    ∀ p : Port,
      (t.ports.get p).frameFlag = (s.ports.get p).frameFlag ∧ (t.ports.get p).overrunFlag = (s.ports.get p).overrunFlag ∧
        (t.ports.get p).approval = (s.ports.get p).approval ∧
        (t.ports.get p).duressPending = (s.ports.get p).duressPending
  | .queue => t.pending = s.pending

/-- Every block but those named is as it was. -/
def KeptBut (changed : List Block) (s t : State) : Prop := ∀ b : Block, b ∉ changed → Kept b s t

/-- Nothing waits to be taken up at the end of the step: no deferred grant is due (R77), and no retract waits for a module that
is not PURGING (R86). -/
def Quiet (s : State) : Prop :=
  ∀ t : Teller,
    ¬((s.dispense t).state = .queued ∧ (s.dispense t).deferred = true ∧ s.opInFlight t.other.port = false) ∧
      (s.retractWaits t = true → s.path.state = .purging)

/-! ## Requests and replies -/

/-- A request frame reaches its owning block: the part is READY, the port's buffer is empty, the port checks of R179 pass; on port M
the monitor timer was just restarted, so that the frame itself changes no zone (R140). A frame of port M that finds the timer or zone
14's input otherwise does what it does to the state as the frame leaves them, MonitorHeard, which is such a state: so says
Obligations.TimersAndRaisesMoveZones. -/
def Taken (r : Request) (f : Frame) (s : State) : Prop :=
  s.startUp.phase = .ready ∧ (s.ports.get f.port).held = none ∧ Request.permitted r f.port = true ∧
    Request.lengthOk r f.operands.length = true ∧ Quiet s ∧
    (f.port = .m → s.alarm.monitorTimer = some Config.monitorTime ∧ (s.zone 14).inputActive = false)

/-- The reply a port has formed and not yet finished sending (R180). -/
def State.answered (s : State) (p : Port) : Option Reply :=
  match (s.ports.get p).held with
  | some ⟨_, _, _, .waiting r⟩ => some r
  | some ⟨_, _, _, .sending⟩ =>
    match (s.ports.get p).transmitter with
    | .reply r _ => some r
    | .notice _ _ _ _ => none
    | .idle => none
  | some ⟨_, _, _, .awaiting _⟩ => none
  | none => none

/-- The port's reply to a request, with the faults-pending bit as the flags stood (R180, R201). -/
def Answers (r : Request) (f : Frame) (status : Status) (reason : Option Reason) (results : Results) (s t : State) : Prop :=
  t.answered f.port = some ⟨f.tag, r.code, status, reason, (s.ports.get f.port).faultsPending, results⟩

/-- The journal has room for n records and reservations, so many of them staged at once, and the next number is given
(R162). -/
abbrev RoomFor (n atOnce : Nat) (s : State) : Prop := s.journal.roomCheck n atOnce = none

/-- A record has entered the staging queue, and nothing but the queue, the next number, the write state and the high mark has
changed (R160, R166). -/
def Staged (r : Record) (s t : State) : Prop :=
  s.journal.next = some r.sequence ∧ r.time = s.clock.count ∧ r.marks.clockInvalid = s.clock.invalid ∧
    t.journal.staging = s.journal.staging ++ [r] ∧ t.journal.retained = s.journal.retained ∧
    t.journal.durable = s.journal.durable ∧ t.journal.trimPoint = s.journal.trimPoint ∧
    t.journal.lost = s.journal.lost ∧
    t.journal.next = (if r.sequence < Config.lastSequence then some (r.sequence + 1) else none)

/-! ## How a command completes -/

/-- The command completes: exec answers a next state in which every block but those named is as it was, and of which the rest of the
statement speaks. -/
def Does (c : Instr) (changed : List Block) (s : State) (effect : State → Prop) : Prop :=
  ∃ t : State, exec c s = .next t ∧ KeptBut changed s t ∧ effect t

/-- The request completes: exec answers a next state in which the port's reply is the one given, every block but those named is as it
was, and of which the rest of the statement speaks. -/
def Replies (c : Instr) (r : Request) (f : Frame) (status : Status) (results : Results) (changed : List Block) (s : State)
    (effect : State → Prop) : Prop :=
  ∃ t : State, exec c s = .next t ∧ Answers r f status none results s t ∧ KeptBut changed s t ∧ effect t

/-- The request is refused: exec answers a next state in which the port's reply is REFUSED with the reason and its figures, and
nothing else has changed. -/
def Refuses (c : Instr) (r : Request) (f : Frame) (why : Reason) (results : Results) (s : State) : Prop :=
  ∃ t : State, exec c s = .next t ∧ Answers r f .refused (some why) results s t ∧ KeptBut [] s t

/-- The approval of the request's port is consumed where it is of the request's class, and at the ports nothing else has
changed (R189). -/
def ApprovalUsed (r : Request) (f : Frame) (s t : State) : Prop :=
  ∀ q : Port,
    (t.ports.get q).frameFlag = (s.ports.get q).frameFlag ∧ (t.ports.get q).overrunFlag = (s.ports.get q).overrunFlag ∧
      (t.ports.get q).duressPending = (s.ports.get q).duressPending ∧
      (t.ports.get q).approval =
        if q = f.port ∧ (Request.consumes r).isSome ∧ (s.ports.get q).approval = Request.consumes r then none
        else (s.ports.get q).approval

/-- The request found an approval of its class at its port (R189). -/
def Approved (r : Request) (f : Frame) (s : State) : Bool :=
  (Request.consumes r).isSome && (s.ports.get f.port).approval == Request.consumes r

/-- No notice of a kind has been raised to a port: those pending were pending already, with the same content and merge count, and
one on the line was pending or on the line. -/
def NotTold (p : Port) (kind : NoticeKind) (s t : State) : Prop :=
  (∀ x : Pending, (t.ports.get p).notices.get kind = some x → (s.ports.get p).notices.get kind = some x) ∧
    ∀ (n : Notice) (number : Byte) (faults : Bool) (merged : Nat),
      (t.ports.get p).transmitter = .notice n number faults merged → n.kind = kind →
        (s.ports.get p).notices.get kind = some ⟨n, merged⟩ ∨
          (s.ports.get p).transmitter = .notice n number faults merged

/-- A notice has been raised to a port: it stands in the pending set or is on the line (R185, R186). -/
def Told (p : Port) (n : Notice) (t : State) : Prop :=
  (∃ merged : Nat, (t.ports.get p).notices.get n.kind = some ⟨n, merged⟩) ∨
    ∃ (number : Byte) (faults : Bool) (merged : Nat), (t.ports.get p).transmitter = .notice n number faults merged

/-- The claim's owner and wait list are as given. -/
def ClaimIs (o : Owner) (waiting : List WaitEntry) (t : State) : Prop := t.claim.owner = o ∧ t.claim.waiting = waiting

/-- The envelope controller is as given, the display apart: it follows from the rest (R121). -/
def DepositoryIs (d : Depository) (t : State) : Prop := { t.depository with display := d.display } = d

/-- The alarm unit is as given, the mark of a due ALARM_CHANGE apart. -/
def AlarmIs (u : AlarmUnit) (t : State) : Prop := { t.alarm with changed := u.changed } = u

/-- An end record can be staged at once: nothing waits in the end hold, a staging entry is free, and the next number is n
(R163). -/
abbrev EndRoom (n : Nat) (s : State) : Prop :=
  s.journal.endHold = [] ∧ 0 < s.journal.stagingFree ∧ s.journal.next = some n

/-- Nothing of the other window waits for this one: neither a deferred grant nor a retract (R77, R86). -/
abbrev OtherAtRest (t : Teller) (s : State) : Prop :=
  ¬((s.dispense t.other).state = .queued ∧ (s.dispense t.other).deferred = true) ∧
    (s.dispense t.other).state ≠ .retracting

/-! ## Dispensing -/

/-- Everything R71 asks of a DISPENSE of window w with the amount and operands given holds, its mix is m, and its start record takes the
number n. -/
abbrev DispensePasses (w : Teller) (o : DispenseOperands) (amount : Nat) (m : MixResult) (n : Nat) (s : State) : Prop :=
  (s.dispense w).state = .idle ∧ s.opInFlight w.port = false ∧ s.ownershipCheck w.port = none ∧ s.path.state = .ready ∧
    s.auditRequired = false ∧ s.restricted .dispenseHalt = false ∧ s.restricted .moduleLock = false ∧
    o.amount = .ok amount ∧ amount ≠ 0 ∧ o.generation.getD s.position.generation = s.position.generation ∧
    requestMix w amount o.cap o.preference o.target s = (.payable m, s) ∧ s.position.binsFull = false ∧
    s.position.marginsExceeded = false ∧ RoomFor 2 1 s ∧ s.journal.next = some n

/-- The start of an accepted dispense: DISPENSE_START, its reservation, the last-applied sequence (R72, R13). -/
def DispenseStarted (w : Teller) (m : MixResult) (n : Nat) (s t : State) : Prop :=
  t.position = { s.position with lastApplied := n } ∧
    t.journal.reservations =
      s.journal.reservations ++ [{ port := w.port, kind := .dispense, startSequence := n, jammed := false }] ∧
    t.journal.endHold = s.journal.endHold ∧ t.journal.waitingDone = s.journal.waitingDone ∧
    ∃ r : Record,
      Staged r s t ∧ r.kind = .dispenseStart ∧ r.port = some w.port ∧ r.outcome = 1 ∧ r.counts = m.mix.toInt ∧
        r.amount = m.payable

/-- An operation ends JAMMED without a record: the first reservation of its port and kind that is not marked yet is marked, with what it
keeps for OP_DONE, and nothing else of the journal changes (R62, R65). -/
def ReservationMarked (p : Port) (k : OpKind) (keeps : Reservation → Reservation) (s t : State) : Prop :=
  t.journal = { s.journal with reservations := t.journal.reservations } ∧
    ∀ (before after : List Reservation) (r : Reservation), s.journal.reservations = before ++ r :: after →
      r.port = p → r.kind = k → r.jammed = false →
      (∀ x ∈ before, x.port ≠ p ∨ x.kind ≠ k ∨ x.jammed = true) →
      t.journal.reservations = before ++ keeps { r with jammed := true } :: after

/-- The notes timed once an owner's operation moves none: all but that owner's, of which those checked are still timed (R59, R62). -/
def NotePath.timersBut (q : NotePath) (o : MoveOwner) : List NoteTimer :=
  q.timers.filter (fun n => n.owner ≠ o ∨ n.checked = true)

/-- An owner's operation is in flight and has not come to its end; one whose end waits in the end hold has (R48, R163;
notes/assumptions/89.md). -/
def GoesOn (o : MoveOwner) (s : State) : Prop :=
  match o with
  | .dispense w =>
    ((s.dispense w).state = .picking ∨ (s.dispense w).state = .presenting ∨ (s.dispense w).state = .retracting) ∧
      (s.dispense w).ending = false
  | .escrow =>
    (∃ o : InsertOp, s.escrow.op = some (.insert o) ∧ o.ended = none) ∨
      (∃ o : ReturnOp, s.escrow.op = some (.give o) ∧ o.ended = none) ∨
      ∃ o : CommitOp, s.escrow.op = some (.commit o) ∧ o.ended = none
  | .purge => ∃ p : Purge, s.path.purge = some p ∧ p.ended = none

/-- The transport moves notes for an owner's operation: a dispense picks or draws, and does not only present (R62). -/
def Carries (o : MoveOwner) (s : State) : Prop :=
  GoesOn o s ∧
    ∀ w : Teller, o = .dispense w →
      (s.dispense w).state = .picking ∨ ∃ d : Draw, s.path.draw = some d ∧ d.cause.owner = .dispense w

/-- A window's dispense ends JAMMED: the record IDLE, its reservation marked, and the generation step of a dispense that changed a
cassette's count; the position is otherwise the one given (R8, R62). The marks and the unpaid amount that the reservation keeps are the
model's reading (notes/assumptions/67.md). -/
def DispenseJammed (w : Teller) (p : Position) (s t : State) : Prop :=
  t.dispenses = s.dispenses.set w Dispense.idle ∧
    t.position = { p with generation := if (s.dispense w).changed then p.generation + 1 else p.generation } ∧
    ReservationMarked w.port .dispense
      (fun r =>
        { r with
          marks := { capped := (s.dispense w).capped, short := (s.dispense w).short.isSome }
          unpaid := (s.dispense w).unpaid })
      s t

/-- A retract that meets a JAMMED module ends the dispense JAMMED without a draw: its notes stay where they are (R62, R86). -/
def RetractJammed (w : Teller) (s t : State) : Prop :=
  DispenseJammed w s.position s t ∧
    t.path = { s.path with timers := s.path.timersBut (.dispense w) }

/-- The end of a window's dispense: the record IDLE, its notes' timers stopped but for those of checked notes, DISPENSE_END with the
outcome, counts, amount and detail given in the reserved slot, OP_DONE waiting on it with the reason and figures given, the last-applied
sequence, and the generation step of a dispense that changed a cassette's count. `booked` is the remainder booked, `unbooked` the amount
not applied, which both carry with the mark; the fields of the detail that R91 does not list hold zero (R8, R13, R35, R62, R87, R91, R92,
R159). The position is the one given but for the last-applied
sequence and the generation. -/
def DispenseClosed (w : Teller) (outcome : Nat) (taken : Quad Nat) (n : Nat) (p : Position) (reason : Option Reason)
    (carried : Results) (booked unbooked : Nat) (s t : State) : Prop :=
  t.dispenses = s.dispenses.set w Dispense.idle ∧
    t.path = { s.path with timers := s.path.timersBut (.dispense w) } ∧
    t.position =
      { p with
        lastApplied := n
        generation := if (s.dispense w).changed then p.generation + 1 else p.generation } ∧
    t.journal.reservations =
      removeFirst (fun r => r.port == w.port && r.kind == .dispense && !r.jammed) s.journal.reservations ∧
    (∃ r : Record,
      Staged r s t ∧ r.kind = .dispenseEnd ∧ r.port = some w.port ∧ r.outcome = outcome ∧ r.counts = taken.toInt ∧
        r.amount = recordAmount (s.value taken) ∧ r.extra = (s.dispense w).startSequence ∧
        r.marks.capped = (s.dispense w).capped ∧ r.marks.short = (s.dispense w).short.isSome ∧
        r.marks.unbooked = decide (0 < unbooked) ∧
        ∃ x : DispenseDetail,
          r.detail = .dispense x ∧ x.amount = (s.dispense w).amount ∧ x.payable = (s.dispense w).payable ∧
            x.remainder = (s.dispense w).remainder ∧ x.unpaid = (s.dispense w).unpaid ∧ x.unbooked = unbooked ∧
            x.cap = 0 ∧ x.preference = [] ∧
            x.account = (if booked = 0 then none else some (remainderAccount w (s.dispense w).target)) ∧
            x.cause = (match (s.dispense w).short with | none => 0 | some .earlyEmpty => 1 | some .rejectLimit => 2)) ∧
    ∃ d : OpDone,
      t.journal.waitingDone = s.journal.waitingDone ++ [⟨w.port, d⟩] ∧ d.kind = .dispense ∧ d.closing = n ∧
        d.outcome = outcome ∧ d.reason = reason ∧ d.carried = carried ∧ d.startSequence = (s.dispense w).startSequence ∧
        d.counts = taken ∧ d.presented = (s.dispense w).presented ∧
        d.retracted = (if outcome = 4 then Quad.zip (· - ·) (s.dispense w).presented taken else Quad.zero) ∧
        d.value = s.value taken ∧ d.remainder = booked ∧ d.unpaid = (s.dispense w).unpaid ∧ d.unbooked = unbooked ∧
        d.marks.capped = (s.dispense w).capped ∧ d.marks.short = (s.dispense w).short.isSome ∧
        d.marks.unbooked = decide (0 < unbooked)

/-- The end of a window's dispense with nothing to book to an account, which no failed grant check gives (R91, R92). -/
abbrev DispenseEnded (w : Teller) (outcome : Nat) (taken : Quad Nat) (n : Nat) (p : Position) (s t : State) : Prop :=
  DispenseClosed w outcome taken n p none .none 0 0 s t

/-- The dispenses of the windows listed end HALTED, one after the other, with nothing paid, and of the dispenses, the note path, the
position and the journal nothing else changes (R55, R91). -/
def DispensesHalted : List Teller → State → State → Prop
  | [], s, t => t.dispenses = s.dispenses ∧ t.path = s.path ∧ t.position = s.position ∧ t.journal = s.journal
  | u :: us, s, t => ∃ (x : State) (n : Nat), DispenseEnded u 7 Quad.zero n s.position s x ∧ DispensesHalted us x t

/-! ## Audit -/

/-- A check word that failed has been found, the position being p where it would have been q: INTEGRITY is an audit cause, an empty
integrity fault record takes the time, the first cause is told to ports A, B and S, and nothing else of the position differs
(R9, R10). -/
def WordFailed (q p : Position) (s t : State) : Prop :=
  p = { q with causes := { q.causes with integrity := true }, integrityFault := p.integrityFault } ∧
    (∀ x, q.integrityFault = some x → p.integrityFault = some x) ∧
    (q.integrityFault = none → ∃ w, p.integrityFault = some ⟨w, s.clock.count⟩) ∧
    (q.causes.any = false → ∀ y : Port, y ≠ .m → Told y (.restriction s.alarm.restriction p.causes) t)

/-- A check word that failed has been found, and nothing else of the position has changed (R9, R10). -/
def IntegrityFound (s t : State) : Prop := WordFailed s.position t.position s t

/-- The position is q, or what a failing check word makes of it (R9). -/
def AuditFollows (failed : Prop) (q p : Position) (s t : State) : Prop :=
  (¬failed → p = q) ∧ (failed → WordFailed q p s t)

/-! ## Bookings at an end (R35) -/

/-- A part of an end booking can be applied to an account's balance: it is 0.00, or the check word matches and the result is in range
(R9, R35; that 0.00 reads no account is the model's reading, notes/assumptions/37.md). -/
def balanceFits (a : Account) (x : Int) : Bool := x == 0 || (a.intact && balanceInRange (a.balance + x))

/-- The same of an account's coin due. -/
def coinDueFits (a : Account) (x : Nat) : Bool := x == 0 || (a.intact && decide (a.coinDue + x ≤ Config.coinDueMax))

/-- The position once notes of a window's pocket have been taken: the pocket, the TAKEN flow, and of the drawer's balance and the coin
due of the account that owes the remainder each part that can be applied (R35, R44, R85, R87, R90). -/
def takenPosition (w : Teller) (taken : Quad Nat) (remainder : Nat) (s : State) : Position :=
  let p :=
    { s.position with
      pockets := s.position.pockets.set w (Quad.zip (· - ·) (s.position.pockets.get w) taken)
      flows := { s.position.flows with taken := Quad.add s.position.flows.taken taken } }
  let drawer := p.account (drawerOf w)
  let p :=
    if balanceFits drawer (s.value taken) then
      p.setAccount (drawerOf w) { drawer with balance := drawer.balance + s.value taken }
    else p
  let owed := p.account (remainderAccount w (s.dispense w).target)
  if coinDueFits owed remainder then
    p.setAccount (remainderAccount w (s.dispense w).target) { owed with coinDue := owed.coinDue + remainder }
  else p

/-- The pocket holds the notes taken. -/
abbrev PocketHolds (w : Teller) (taken : Quad Nat) (s : State) : Prop :=
  ∀ k : Ix, taken.get k ≤ (s.position.pockets.get w).get k

/-- The end of a dispense of whose notes some were taken and whose remainder is due, the state being x as its operation left it: each
part of the booking that can be applied is, and the sum of the others is UNBOOKED; an account whose word fails gives its audit cause
(R9, R35, R87, R91). -/
def TakenAndEnded (w : Teller) (outcome : Nat) (taken : Quad Nat) (remainder n : Nat) (x t : State) : Prop :=
  let drawer := x.position.account (drawerOf w)
  let owed := x.position.account (remainderAccount w (x.dispense w).target)
  let coin := if coinDueFits owed remainder then remainder else 0
  ∃ p : Position,
    DispenseClosed w outcome taken n p none .none coin
        ((if balanceFits drawer (x.value taken) then 0 else x.value taken) + (remainder - coin)) x t ∧
      AuditFollows
        ((x.value taken ≠ 0 ∧ drawer.intact = false) ∨ (remainder ≠ 0 ∧ owed.intact = false))
        (takenPosition w taken remainder x) p x t

/-! ## Check words -/

/-- Every cassette record matches its check word (R9). -/
abbrev WordsMatch (s : State) : Prop := ∀ k : Ix, (s.position.cassettes.get k).intact = true

/-! ## Picking and the grant (03, 04) -/

/-- A pick is commanded, with window w's record as given, and nothing else has changed (R79). -/
def PickCommanded (w : Teller) (d : Dispense) (k c : Ix) (x t : State) : Prop :=
  t.position = x.position ∧ t.journal = x.journal ∧ t.dispenses = x.dispenses.set w d ∧
    t.path = { x.path with pick := some ⟨w, k, c, .commanded⟩ }

/-- Picking has stopped for a reason and the draw back of TRANSIT has begun, the record being d but for the reason (R62, R83). -/
def StopBegun (w : Teller) (why : StopReason) (d : Dispense) (x t : State) : Prop :=
  t.position = x.position ∧ t.journal = x.journal ∧ t.dispenses = x.dispenses.set w { d with stop := some why } ∧
    t.path =
      { x.path with
        draw := some ⟨.transit, .stop w why, x.position.transit, Quad.zero⟩
        timers := x.path.timers ++ [⟨.dispense w, .transit, false⟩] }

/-- The pocket is presented, the record being d until then: the presented counts, the unpaid amount of a short dispense, the shutter, the
present timer, and PRESENT to the port (R81, R84). -/
def Presented (w : Teller) (d : Dispense) (x t : State) : Prop :=
  let presented := x.byDenomination d.delivered
  let value := x.value presented
  t.position = x.position ∧ t.journal = x.journal ∧ t.path = x.path ∧
    t.dispenses =
      x.dispenses.set w
        { d with
          state := .presenting
          presented := presented
          unpaid := if d.short.isSome then d.amount - value else d.unpaid
          shutterOpen := true
          presentTimer := some x.settings.presentTimeout } ∧
    Told w.port (.present d.startSequence presented value d.short.isSome x.settings.presentTimeout) t

/-- Picking has stopped short: the pocket is presented, or with nothing in it the dispense ends SHORT_PAID and the whole amount is
unpaid (R81, R82). -/
def StoppedShort (w : Teller) (why : ShortCause) (d : Dispense) (x t : State) : Prop :=
  let short : Dispense := { d with short := some why, unpaid := d.amount }
  if 0 < d.delivered.total then Presented w short x t
  else
    ∀ n : Nat, EndRoom n x → OtherAtRest w x →
      DispenseEnded w 3 Quad.zero n x.position { x with dispenses := x.dispenses.set w short } t

/-- The dispense controller acts on the report after a pick, the state being x as the report left it: a stop already fixed begins, a mix
delivered in full is presented, ten diverted notes stop it short, and otherwise the next pick of the mix is commanded. A cassette without
notes is re-mixed over, and where the re-mix is not payable picking stops short, with the AUDIT stop where a check word fails; MODULE_LOCK
stops it (R43, R58, R61, R79 to R84). A full RETRACT BIN at a stop is left to DrawnNoteIsBooked. -/
def PickingGoesOn (w : Teller) (x t : State) : Prop :=
  let d := x.dispense w
  let room := x.position.retract.total < Config.retractNotes
  match d.stop, d.nextCassette with
  | some why, _ => room → StopBegun w why d x t
  | none, none => Presented w d x t
  | none, some k =>
    if 10 ≤ d.diverted then StoppedShort w .rejectLimit d x t
    else
      match x.commandPick k with
      | .started c => PickCommanded w d k c x t
      | .locked => room → StopBegun w .locked d x t
      | .earlyEmpty =>
        (∀ m : MixResult, reMix w x = (.payable m, x) →
          let r : Dispense := { d with mix := Quad.add d.delivered m.mix, remainder := m.remainder }
          (∀ k' c : Ix, r.nextCassette = some k' → x.commandPick k' = .started c → PickCommanded w r k' c x t) ∧
            ∀ k' : Ix, r.nextCassette = some k' → x.commandPick k' = .locked → room → StopBegun w .locked r x t) ∧
        (∀ (why : Reason) (carried : Results), why ≠ .audit → reMix w x = (.failed why carried, x) →
          StoppedShort w .earlyEmpty d x t) ∧
        ∀ (carried : Results) (y : State), reMix w x = (.failed .audit carried, y) → room →
          IntegrityFound x t ∧ StopBegun w .audit d { x with position := t.position } t

/-- The number of the outcome that a failed grant check gives (R78, R90, 11.4). -/
def grantOutcome : Reason → Nat
  | .halted => 7
  | .audit => 8
  | .notPayable => 9
  | .inexact => 10
  | .range => 11
  | _ => 0

/-- The grant of window w's dispense, in the state s: deferred while an operation of the other window is in flight; otherwise its grant
checks are made in order, one that fails ends the dispense with its reason, and where all pass the record takes the mix and picking
begins (R77 to R79). -/
def GrantGoesOn (w : Teller) (s t : State) : Prop :=
  let d := s.dispense w
  let ends (outcome : Nat) (why : Reason) (carried : Results) (p : Position) : Prop :=
    ∀ n : Nat, EndRoom n s → DispenseClosed w outcome Quad.zero n p (some why) carried 0 0 s t
  if s.opInFlight w.other.port = true then
    t.dispenses = s.dispenses.set w { d with state := .queued, deferred := true } ∧ t.position = s.position ∧
      t.path = s.path ∧ t.journal = s.journal
  else
    match s.path.state with
    | .jammed => ends 14 .jammed .none s.position
    | .purging => ends 13 .busy .none s.position
    | .ready =>
      if s.auditRequired = true then ends 8 .audit .none s.position
      else if s.restricted .dispenseHalt = true ∨ s.restricted .moduleLock = true then ends 7 .halted .none s.position
      else
        (∀ (why : Reason) (carried : Results) (y : State),
          requestMix w d.amount d.cap d.preference d.target s = (.failed why carried, y) →
            ends (grantOutcome why) why carried y.position) ∧
        ∀ m : MixResult, requestMix w d.amount d.cap d.preference d.target s = (.payable m, s) →
          if s.position.binsFull = true then ends 12 .binFull .none s.position
          else
            d.preference.Perm Ix.all → d.delivered = Quad.zero →
            ∃ k c : Ix,
              d.preference.find? (fun j => decide (0 < m.mix.get j)) = some k ∧
                (s.position.cassettes.get k).index = some c ∧
                PickCommanded w
                  { d with
                    state := .picking, deferred := false, payable := m.payable, unpaid := m.unpaid
                    capped := decide (m.payable < d.amount), mix := m.mix, remainder := m.remainder
                    limit := s.settings.remainderLimit }
                  k c s t

/-! ## Draws (R62, R64) -/

/-- The timers once a drawn note has reached the validator: the first of the draw's notes on the way is timed no more; with none on the
way it was the one from the source, from where the next note is then timed (R62; the note a timer stands for is the model's choice,
notes/assumptions/61.md). -/
def DrawTimed (d : Draw) (before after : List NoteTimer) : Prop :=
  let onWay (n : NoteTimer) : Prop := n.owner = d.cause.owner ∧ n.checked = false ∧ ∃ i, n.lastSeen = .way i
  let fresh : NoteTimer := ⟨d.cause.owner, d.source.sensor, false⟩
  (∀ (l r : List NoteTimer) (n : NoteTimer), before = l ++ n :: r → onWay n → (∀ x ∈ l, ¬onWay x) → after = l ++ r) ∧
    ((∀ x ∈ before, ¬onWay x) →
      (∀ l r : List NoteTimer, before = l ++ fresh :: r → fresh ∉ l → after = l ++ r ++ [fresh]) ∧
        (fresh ∉ before → after = before ++ [fresh]))

/-! ## Records -/

/-- One record has been staged, with the number n, and in the journal nothing else has changed but its write state and high
mark. -/
def Recorded (n : Nat) (holds : Record → Prop) (s t : State) : Prop :=
  ∃ r : Record,
    r.sequence = n ∧ Staged r s t ∧ t.journal.reservations = s.journal.reservations ∧
      t.journal.endHold = s.journal.endHold ∧ t.journal.waitingDone = s.journal.waitingDone ∧ holds r

/-- What a refusal for want of room carries (R162). -/
def Journal.roomFigures (j : Journal) : Results := .room j.room j.reservations.length j.stagingFree

/-! ## The escrow -/

/-- Why a request of a module operation's owner is refused before its own checks: an operation of its own in flight, the ownership check
(R48, R96). -/
def State.ownRefusal (s : State) (p : Port) : Option Reason :=
  if s.opInFlight p then some .busy
  else if s.claim.owner.ownedBy p = false then some .notClaimed
  else if s.otherOpInFlight p then some .busy
  else none

/-- The record is open to the port: the owner port of an OPEN record, or port S under HOLD (R96). -/
def OpenTo (p : Port) (s : State) : Bool :=
  s.escrow.isOpen &&
    (match p with
      | .a => s.escrow.owner == .a
      | .b => s.escrow.owner == .b
      | .s => s.claim.owner == .hold
      | .m => s.claim.owner == .hold)

/-- Why a request on an open record is refused before its own checks (R96). -/
def State.openRefusal (s : State) (p : Port) : Option Reason :=
  match s.ownRefusal p with
  | some why => some why
  | none => if OpenTo p s then none else some .notOpen

/-- Why a request that moves notes is refused for the module's state (R57). -/
def State.stateRefusal (s : State) : Option Reason :=
  match s.path.state with
  | .ready => none
  | .jammed => some .jammed
  | .purging => some .busy

/-- What ends the feed once the note in hand has reached its destination, if anything does (R102, R103; the order is the model's,
notes/assumptions/17.md). -/
def feedEnds (o : InsertOp) (locked : Bool) (bundle escrow : Nat) : Option FeedCause :=
  if o.locked then some .lock
  else if Config.bundleNotes ≤ bundle then some .bundleLimit
  else if Config.escrowNotes ≤ escrow then some .escrowLimit
  else if o.intakeEmpty then some .intakeEmpty
  else if locked then some .lock
  else none

/-- The number of a feed cause in records and OP_DONE: its place in the list of R102, the model's choice (notes/assumptions/74.md). -/
def feedCauseNumber : FeedCause → Nat
  | .intakeEmpty => 1
  | .bundleLimit => 2
  | .escrowLimit => 3
  | .feedFailure => 4
  | .lock => 5

/-- An INSERT's end: its feeding bundle b is pushed with TRUNCATED as R102 says, or dropped where it holds no note; the INSERT record in
the reserved slot with its deposit detail, which holds the fit and the unfit counts apart, the suspect and the returned count, the bundle's
position, or 0 where it was dropped, and the feed cause; and OP_DONE waiting on it with the same figures and, by the model's choice, the
stack as it then stands (R95, R102, R105; notes/assumptions/74.md, 88.md). The fields of the detail that R105 does not list hold zero
(R159). -/
def InsertEnded (o : InsertOp) (b : Bundle) (beneath : List Bundle) (why : FeedCause) (n : Nat) (s t : State) : Prop :=
  let truncated : Bool :=
    match why with
    | .intakeEmpty => false
    | .bundleLimit => !o.intakeEmpty
    | .escrowLimit => !o.intakeEmpty
    | .feedFailure => true
    | .lock => true
  let outcome := if 0 < b.notes.total then 1 else 2
  t.escrow =
      { s.escrow with
        stack := if 0 < b.notes.total then { b with truncated := truncated } :: beneath else beneath
        verdict := if 0 < b.notes.total then .none else s.escrow.verdict
        op := none } ∧
    t.path = { s.path with timers := s.path.timersBut .escrow } ∧
    t.position = { s.position with lastApplied := n } ∧
    t.journal.reservations =
      removeFirst (fun r => r.port == o.port.port && r.kind == .insert && !r.jammed) s.journal.reservations ∧
    (∃ r : Record,
      Staged r s t ∧ r.kind = .insert ∧ r.port = some o.port.port ∧ r.outcome = outcome ∧
        r.counts = b.notes.toInt ∧ r.amount = recordAmount (s.value b.notes) ∧ r.marks.truncated = truncated ∧
        r.marks.suspectReturned = b.suspectReturned ∧
        r.detail =
          .deposit
            { fit := b.fit, unfit := b.unfit, suspect := b.suspect, returned := b.returned
              bundles := if 0 < b.notes.total then beneath.length + 1 else 0
              first := 0, purpose := none, account := none, cause := feedCauseNumber why, unbooked := 0
              ownerPort := none }) ∧
    ∃ d : OpDone,
      t.journal.waitingDone = s.journal.waitingDone ++ [⟨o.port.port, d⟩] ∧ d.kind = .insert ∧ d.closing = n ∧
        d.outcome = outcome ∧ d.counts = b.notes ∧ d.value = s.value b.notes ∧ d.cause = feedCauseNumber why ∧
        d.marks.truncated = truncated ∧ d.marks.suspectReturned = b.suspectReturned ∧
        d.remaining = (if 0 < b.notes.total then { b with truncated := truncated } :: beneath else beneath)

/-- A return's end without a jam: its RETURN record with the notes given back, the bundles that left the stack and their suspect, returned
and flag fields, and under HOLD the owner port; and OP_DONE waiting on it with the notes given back, their value, the flags and, by the
model's choice, the stack as it then stands (R107, R109; notes/assumptions/88.md). The fields of the detail that R109 does not list hold
zero (R159). -/
def ReturnEnded (o : ReturnOp) (outcome n : Nat) (s t : State) : Prop :=
  t.escrow = { s.escrow with op := none } ∧
    t.path = { s.path with timers := s.path.timersBut .escrow } ∧
    t.position = { s.position with lastApplied := n } ∧
    t.journal.reservations =
      removeFirst (fun r => r.port == o.port && r.kind == .return_ && !r.jammed) s.journal.reservations ∧
    (∃ r : Record,
      Staged r s t ∧ r.kind = .return_ ∧ r.port = some o.port ∧ r.outcome = outcome ∧ r.counts = o.given.toInt ∧
        r.amount = recordAmount (s.value o.given) ∧ r.marks.truncated = o.fields.truncated ∧
        r.marks.suspectReturned = o.fields.suspectReturned ∧
        r.detail =
          .deposit
            { fit := Quad.zero, unfit := Quad.zero, suspect := o.fields.suspect, returned := o.fields.returned
              bundles := o.bundlesOut, first := o.first, purpose := none, account := none, cause := 0, unbooked := 0
              ownerPort := if o.underHold then some o.window.port else none }) ∧
    ∃ d : OpDone,
      t.journal.waitingDone = s.journal.waitingDone ++ [⟨o.port, d⟩] ∧ d.kind = .return_ ∧ d.closing = n ∧
        d.outcome = outcome ∧ d.counts = o.given ∧ d.value = s.value o.given ∧ d.cause = 0 ∧
        d.marks.truncated = o.fields.truncated ∧ d.marks.suspectReturned = o.fields.suspectReturned ∧
        d.remaining = s.escrow.stack

/-- The drawer debit of a commit, on a position: applied where it can be, for purpose CUSTOMER none (R35, R114). -/
def debitedPosition (tally : CommitTally) (value : Nat) (p : Position) : Position :=
  let a := drawerOf tally.owner
  if tally.purpose = .drawer ∧ balanceFits (p.account a) (-(value : Int)) = true then
    p.setAccount a { p.account a with balance := (p.account a).balance - value }
  else p

/-- The amount of a commit's drawer debit that cannot be applied (R35, R114). -/
def debitMissed (tally : CommitTally) (value : Nat) (p : Position) : Nat :=
  if tally.purpose = .drawer ∧ balanceFits (p.account (drawerOf tally.owner)) (-(value : Int)) = false then value else 0

/-- The drawer debit of a commit reads an account whose check word fails (R9, R114). -/
def DebitWordFails (tally : CommitTally) (value : Nat) (p : Position) : Prop :=
  tally.purpose = .drawer ∧ value ≠ 0 ∧ (p.account (drawerOf tally.owner)).intact = false

/-- The number of what a commit's end was caused by, in its record and OP_DONE: 0 where it ends COMMITTED, otherwise its place in the
list of R113, the model's choice (notes/assumptions/74.md). -/
def commitCauseNumber : Option CommitCause → Nat
  | none => 0
  | some .noDestination => 1
  | some .lock => 2
  | some .audit => 3

/-- A commit's end without a jam, COMMITTED, or PARTIAL with the cause given: its drawer debit, applied or UNBOOKED, the COMMIT record with
the notes delivered, per cassette and per denomination fit and unfit apart, the purpose, the account debited and the cause, the generation
step where a cassette received any, the verdict NONE, no declared amount once everything is committed, and OP_DONE waiting on the record
with what was delivered, its value, the cause and what remains in the stack (R8, R35, R113, R114, R116). The fields of the detail that
R114 does not list hold zero (R159). -/
def CommitEnded (o : CommitOp) (tally : CommitTally) (cause : Option CommitCause) (n : Nat) (s t : State) : Prop :=
  let value : Nat := s.value (Quad.add tally.fit tally.unfit)
  let outcome := if cause = none then 1 else 2
  let unbooked := debitMissed tally value s.position
  t.escrow =
      { s.escrow with
        verdict := .none, declared := if cause = none then none else s.escrow.declared, op := none
        tally := CommitTally.zero } ∧
    t.path = { s.path with timers := s.path.timersBut .escrow } ∧
    (∃ p : Position,
      AuditFollows (DebitWordFails tally value s.position) (debitedPosition tally value s.position) p s t ∧
        t.position =
          { p with
            lastApplied := n
            generation :=
              if 0 < tally.perCassette.total then s.position.generation + 1 else s.position.generation }) ∧
    t.journal.reservations =
      removeFirst (fun r => r.port == o.port && r.kind == .commit && !r.jammed) s.journal.reservations ∧
    (∃ r : Record,
      Staged r s t ∧ r.kind = .commit ∧ r.port = some o.port ∧ r.outcome = outcome ∧
        r.counts = tally.perCassette.toInt ∧ r.amount = recordAmount value ∧
        r.marks.unbooked = decide (0 < unbooked) ∧
        r.detail =
          .deposit
            { fit := tally.fit, unfit := tally.unfit, suspect := 0, returned := 0, bundles := 0, first := 0
              purpose := some tally.purpose
              account := if tally.purpose = .drawer ∧ value ≠ 0 ∧ unbooked = 0 then some (drawerOf tally.owner) else none
              cause := commitCauseNumber cause, unbooked := unbooked, ownerPort := none }) ∧
    ∃ d : OpDone,
      t.journal.waitingDone = s.journal.waitingDone ++ [⟨o.port, d⟩] ∧ d.kind = .commit ∧ d.closing = n ∧
        d.outcome = outcome ∧ d.counts = tally.perCassette ∧ d.value = value ∧ d.unbooked = unbooked ∧
        d.marks.unbooked = decide (0 < unbooked) ∧ d.cause = commitCauseNumber cause ∧ d.remaining = s.escrow.stack

/-- A commit's tally with one note more (R112). -/
def CommitTally.plus (c : CommitTally) (k d : Ix) (fit : Bool) : CommitTally :=
  { c with
    perCassette := Quad.plus c.perCassette k 1
    fit := if fit then Quad.plus c.fit d 1 else c.fit
    unfit := if fit then c.unfit else Quad.plus c.unfit d 1 }

/-! ## The end of a purge -/

/-- A purge that closes operations finds room for its record as an end record does, one that closes none as an event record does
(R65, R163). -/
def PurgeRoom (p : Purge) (n : Nat) (s : State) : Prop :=
  let closed := s.journal.reservations.filter (fun r => p.startUp || r.jammed)
  if closed = [] then s.journal.eventRoom = true ∧ s.journal.next = some n else EndRoom n s

/-- A purge's end: the PURGE record with the notes booked and the lowest start sequence it closes, the drawer debit of a commit it closes,
the reservations it closes removed, and OP_DONE JAMMED waiting for each of them that had ended JAMMED, with what its reservation and the
debit keep for it; the module is READY or JAMMED. The position is the one given but for the debit, applied or UNBOOKED, and the
last-applied sequence (R13, R35, R65, R92, R114, R199; notes/assumptions/67.md, 69.md, 70.md). -/
def PurgeEnded (p : Purge) (outcome : Nat) (state : ModuleState) (n : Nat) (before : Position) (s t : State) : Prop :=
  let closed := s.journal.reservations.filter (fun r => p.startUp || r.jammed)
  let debits := closed.any (fun r => r.kind == .commit)
  let tally := s.escrow.tally
  let value := s.value (Quad.add tally.fit tally.unfit)
  let unbooked : Nat := if debits then debitMissed tally value before else 0
  t.path =
      { s.path with
        state := state, draw := none, purge := none
        timers := s.path.timersBut .purge } ∧
    (∃ q : Position,
      AuditFollows (debits = true ∧ DebitWordFails tally value before)
          (if debits then debitedPosition tally value before else before) q s t ∧
        t.position = { q with lastApplied := n }) ∧
    t.escrow = (if debits then { s.escrow with tally := CommitTally.zero } else s.escrow) ∧
    t.journal.reservations = s.journal.reservations.filter (fun r => !(p.startUp || r.jammed)) ∧
    (∃ r : Record,
      Staged r s t ∧ r.kind = .purge ∧ r.port = (if p.startUp then none else some .s) ∧ r.outcome = outcome ∧
        r.counts = p.booked.toInt ∧ r.amount = recordAmount (s.value p.booked) ∧
        r.marks.unbooked = decide (0 < unbooked) ∧
        (∀ x ∈ closed, x.kind = .dispense → r.extra ≤ x.startSequence) ∧
        ((∃ x ∈ closed, x.kind = .dispense ∧ r.extra = x.startSequence) ∨
          (r.extra = 0 ∧ ∀ x ∈ closed, x.kind ≠ .dispense))) ∧
    ∃ raised : List WaitingDone,
      t.journal.waitingDone = s.journal.waitingDone ++ raised ∧
        List.Forall₂
          (fun (x : Reservation) (w : WaitingDone) =>
            w.port = x.port ∧ w.done.kind = x.kind ∧ w.done.closing = n ∧ w.done.startSequence = x.startSequence ∧
              w.done.outcome = (if x.kind = .dispense then 14 else 3) ∧
              w.done.unbooked = (if x.kind = .commit then unbooked else 0) ∧
              (x.kind ≠ .commit → w.done.marks = x.marks ∧ w.done.unpaid = x.unpaid) ∧
              (x.kind = .insert ∨ x.kind = .return_ → w.done.remaining = s.escrow.stack) ∧
              (x.kind = .commit →
                w.done.counts = tally.perCassette ∧ w.done.value = value ∧ w.done.remaining = s.escrow.stack ∧
                  w.done.marks.unbooked = decide (0 < unbooked)))
          (closed.filter (fun r => r.jammed)) raised

/-! ## The alarm unit -/

/-- An event record is written with the next number, or lost and counted where there is no room (R163). -/
def EventWritten (holds : Record → Prop) (s t : State) : Prop :=
  (s.journal.eventRoom = true → ∀ n : Nat, s.journal.next = some n → Recorded n holds s t) ∧
    (s.journal.eventRoom = false → t.journal = { s.journal with lost := min 65535 (s.journal.lost + 1) })

/-- What a taken activation makes of a zone record (R143), with the arm state, the entry delay and the clock as they stand, and the
teller port of a duress raise, which an entry timing keeps for its ALARM record (R141, R157). -/
def Zone.activated (armed : Bool) (delay : Nat) (now : Word32) (port : Option Port) (r : Zone) : Zone :=
  match r.state with
  | .quiet =>
    if r.config.type = .intrusionDelayed ∧ armed = true then
      { r with state := .entryTiming, entryTimer := some delay, marked := port }
    else { r with state := .pendingActive, entryTimer := none, marked := none, lastActivation := now }
  | .pendingRestored => { r with state := .pendingActive }
  | .entryTiming | .pendingActive | .ackedActive => r

/-- What a restore makes of a zone record (R144). -/
def Zone.restored (r : Zone) : Zone :=
  match r.state with
  | .pendingActive => { r with state := .pendingRestored }
  | .ackedActive => { r with state := .quiet }
  | .entryTiming | .quiet | .pendingRestored => r

/-- The unit with every zone record given. -/
def AlarmUnit.withZones (u : AlarmUnit) (f : Fin 16 → Zone) : AlarmUnit := { u with zones := Vector.ofFn f }

/-- What follows from new zone records v of a unit: the level, the set and the silent line as the zones give them; the sounder, which
an entry to PENDING_ACTIVE with SOUNDER starts and which stops when SOUNDER leaves the set (R151, R153, R155, R156). -/
def AlarmUnit.follows (u : AlarmUnit) (sounds : Bool) (v : AlarmUnit) : AlarmUnit :=
  let stops := Effects.has u.restriction .sounder && !Effects.has v.latchedEffects .sounder
  { v with
    level := v.activeLevel
    restriction := v.latchedEffects
    silentLine := Effects.has v.latchedEffects .silentLine
    sounder := (u.sounder || sounds) && !stops
    sounderTimer := if stops then none else if sounds then some 300 else u.sounderTimer }

/-- The envelope controller once the open permit has been judged (R118). -/
def Depository.judged (d : Depository) (permit : Bool) : Depository :=
  match d.slot with
  | .closed => { d with slot := if permit then .open_ else .closed }
  | .open_ => if permit then d else { d with slot := .closed, entry := .empty, keypadTimer := false }
  | .intake | .imprint | .drop | .jammed => d

/-- What a new restriction set is followed by, MODULE_LOCK apart: RESTRICTION to ports A, B and S, and the permit judged where SLOT_CLOSE
has entered or left it (R118, R153). -/
def SetReported (after : Effects) (s t : State) : Prop :=
  (after ≠ s.alarm.restriction → ∀ p : Port, p ≠ .m → Told p (.restriction after s.position.causes) t) ∧
    DepositoryIs
      (if Effects.has after .slotClose ≠ s.restricted .slotClose then
        s.depository.judged
          (decide (s.depository.bin.count < s.settings.binCapacity) && !Effects.has after .slotClose &&
            s.depository.supervisorOpen)
      else s.depository)
      t

/-- MODULE_LOCK does not enter the restriction set, or its entry finds nothing to stop: start-up has not ended, or no teller owns the
module, nobody waits for it and no feed or return is in flight (R55, R103, R109, R158). What the entry does otherwise, whatever command
brings it, is said by Obligations.ModuleLockTakesClaim. -/
def LockStopsNothing (after : Effects) (s : State) : Prop :=
  Effects.has after .moduleLock = true → s.restricted .moduleLock = false →
    s.startUp.phase ≠ .ready ∨
      (s.claim.waiting = [] ∧ s.claim.owner ≠ .portA ∧ s.claim.owner ≠ .portB ∧
        (s.escrow.op = none ∨ ∃ o : CommitOp, s.escrow.op = some (.commit o)))

/-- Zone z's record has become r, and everything that follows has followed. `entered`: it entered PENDING_ACTIVE on the way, and `fresh`
says that it did so from QUIET or ENTRY_TIMING: then there is an ALARM record, with the entry mark given, and the delayed dispenses are
extended where the zone caps or halts dispensing (R75, R143 to R145, R151 to R157). -/
def ZoneMoved (z : Fin 16) (r : Zone) (entered fresh entry : Bool) (port : Option Port) (s t : State) : Prop :=
  let u := s.alarm.follows (entered && Effects.has r.config.effects .sounder) (s.alarm.setZone z r)
  let caps := Effects.has r.config.effects .dispenseCap || Effects.has r.config.effects .dispenseHalt
  AlarmIs u t ∧
    (if fresh then
      EventWritten
        (fun x =>
          x.kind = .alarm ∧ x.port = port ∧ x.outcome = 1 ∧ x.marks.entry = entry ∧
            x.counts = ⟨r.config.level, u.level, 0, 0⟩ ∧ x.amount = 0 ∧ x.extra = z.val)
        s t
    else t.journal = s.journal) ∧
    (∀ w : Teller,
      t.dispense w =
        if fresh = true ∧ caps = true ∧ (s.dispense w).state = .delaying ∧ (s.dispense w).extended = false ∧
            (s.dispense w).ending = false then
          { s.dispense w with
            delayEnd := (s.dispense w).delayEnd + BitVec.ofNat 32 s.settings.holdupExtension, extended := true }
        else s.dispense w) ∧
    SetReported u.restriction s t ∧
    (r.state ≠ (s.zone z).state ∨ r.trouble ≠ (s.zone z).trouble → Told .m t.alarmNotice t)

/-- The commands that are a valid frame at port M's interface, whatever their request and whatever the reply: a request of a known or an
unknown code, a frame whose only fault is its kind, and one that finds the buffer full (R140, R177, R178). -/
def HeardAtM (c : Instr) (s : State) : Prop :=
  (∃ (r : Request) (f : Frame), f.port = .m ∧ c = r.instr f) ∨
    (∃ (code : Byte) (f : Frame), f.port = .m ∧ c = .unknownRequest code f) ∨
    c = .invalidFrame .m .notRequest ∨ (c = .overrun .m ∧ s.ports.m.held.isSome = true)

/-- Port M's interface has heard a valid frame in the state s, and x is what that makes of it: the monitor timer runs for 60 s again, zone
14's input is NORMAL, which restores the zone where it was ACTIVE, and what follows from the zone has followed (R118, R140, R144, R151,
R153, R155, R156). Where start-up has not yet started the timer, x is s (R158). -/
def MonitorHeard (s x : State) : Prop :=
  let r := s.zone 14
  let back : Zone := if r.inputActive then { r with inputActive := false }.restored else r
  let u := s.alarm.follows false (s.alarm.setZone 14 back)
  if s.alarm.monitorTimer = none ∧ r.inputActive = false then x = s
  else
    AlarmIs { u with monitorTimer := some 60 } x ∧ SetReported u.restriction s x ∧ KeptBut [.alarm, .depository] s x ∧
      x.claim = s.claim ∧ x.freeCount = s.freeCount ∧
      ∀ p : Port, { x.ports.get p with notices := (s.ports.get p).notices } = s.ports.get p

/-- A zone changes as ZoneMoved says, and nothing else does. -/
def MovesZone (c : Instr) (z : Fin 16) (r : Zone) (entered fresh entry : Bool) (port : Option Port) (s : State) : Prop :=
  LockStopsNothing (s.alarm.setZone z r).latchedEffects s →
    Does c [.alarm, .journal, .dispenses, .depository] s (ZoneMoved z r entered fresh entry port s)

/-- The active level, the restriction set and the silent line are what the zone states give (R151, R153, R155). -/
def AlarmDerived (s : State) : Prop :=
  s.alarm.level = s.alarm.activeLevel ∧ s.alarm.restriction = s.alarm.latchedEffects ∧
    s.alarm.silentLine = Effects.has s.alarm.latchedEffects .silentLine

/-! ## The ports -/

/-- At port p the sticky flags, the approval and the duress pending mark are as given; at the other ports they are as they were. -/
def PortIs (p : Port) (frame overrun : Bool) (approval : Option ApprovalClass) (duress : Bool) (s t : State) : Prop :=
  ∀ q : Port,
    (t.ports.get q).frameFlag = (if q = p then frame else (s.ports.get q).frameFlag) ∧
      (t.ports.get q).overrunFlag = (if q = p then overrun else (s.ports.get q).overrunFlag) ∧
      (t.ports.get q).approval = (if q = p then approval else (s.ports.get q).approval) ∧
      (t.ports.get q).duressPending = (if q = p then duress else (s.ports.get q).duressPending)

/-- The requests that wait for a record have been answered where `answered` says so of their port and number, and at the ports nothing
else has changed: the answer to a teller's duress-marked request leaves the duress pending mark before READY (R184). -/
def PortsAnswered (answered : Port → Nat → Prop) (s t : State) : Prop :=
  ∀ p : Port,
    (t.ports.get p).frameFlag = (s.ports.get p).frameFlag ∧ (t.ports.get p).overrunFlag = (s.ports.get p).overrunFlag ∧
      (t.ports.get p).approval = (s.ports.get p).approval ∧
      ((t.ports.get p).duressPending = true ↔
        (s.ports.get p).duressPending = true ∨
          (s.startUp.phase ≠ .ready ∧ p.teller?.isSome = true ∧
            ∃ (code tag : Byte) (n : Nat),
              (s.ports.get p).held = some ⟨code, tag, true, .awaiting n⟩ ∧ answered p n))

/-- A marked request of a teller's port leaves one duress raise to be taken (R141, R184). -/
def DuressReported (f : Frame) (s t : State) : Prop :=
  ∀ q : Port,
    (t.ports.get q).duressDue =
      (s.ports.get q).duressDue + (if q = f.port ∧ f.duress = true ∧ q.teller?.isSome then 1 else 0)

/-- A frame heard at the port changes no zone: at port M the monitor timer has just been restarted (R140). What a frame does that finds it
otherwise, Obligations.TimersAndRaisesMoveZones says. -/
def State.heard (s : State) (p : Port) : Prop :=
  p = .m → s.alarm.monitorTimer = some Config.monitorTime ∧ (s.zone 14).inputActive = false

/-- The first pending notice of a port, in the send order, is x (R186). -/
def FirstNotice (n : NoticeSet) (k : NoticeKind) (x : Pending) : Prop :=
  n.get k = some x ∧ ∃ earlier later : List NoticeKind, sendOrder = earlier ++ k :: later ∧ ∀ y ∈ earlier, n.get y = none

/-! ## Start-up -/

/-- A zone record as a reset leaves it: the configuration, the bypass mark, the state and the last activation time are kept, the reading
and the input NORMAL, no trouble mark, the timers stopped (R158). That a zone in ENTRY_TIMING keeps the port whose duress raise began it is
the model's choice (notes/assumptions/78.md). -/
def Zone.atReset (r : Zone) : Zone :=
  { r with reading := .normal, debounceTimer := none, inputActive := false, trouble := false, entryTimer := none }

/-- The envelope controller as a reset leaves it: the slot state, the supervisor mark, the envelope in transport, the sequence number and
the bin record are kept (R134). That the mark behind TAKE ENVELOP is cleared and the intake phase shows FIRST_PULL is the model's choice
(notes/assumptions/77.md, 83.md). -/
def Depository.atReset (d : Depository) : Depository :=
  { d with
    phase := .firstPull, pullbacks := [], entry := .empty, imprinterFault := false, receiptOut := false, clearing := none
    takeEnvelope := false, intakeTimer := false, reverseTimer := false, imprinterTimer := false, dropTimer := false
    clearTimer := false, keypadTimer := false, receipts := [] }

/-- The envelope controller with the start-up clear run begun (R134). -/
def Depository.clearRun (d : Depository) : Depository :=
  { d with slot := .drop, clearing := some .atStartUp, clearTimer := true, dropTimer := false }

/-- The escrow record once the claim has been set: an OPEN one without notes is closed (R53, R56). -/
def Escrow.atReset (e : Escrow) : Escrow := { e with isOpen := e.isOpen && decide (e.stack ≠ []) }

/-- The escrow record once start-up has ended the operation it found: owner, purpose and declared amount are kept, and with no operation
in flight the verdict too; otherwise it is NONE, and an INSERT's feeding bundle leaves the stack where it holds no notes and is TRUNCATED
where it does (R116). -/
def Escrow.cut (e : Escrow) : Escrow :=
  { e with
    isOpen := e.isOpen && decide (e.stack ≠ [])
    op := none
    verdict := if e.op.isSome then .none else e.verdict
    stack :=
      match e.op, e.stack with
      | some (.insert _), b :: beneath => if 0 < b.notes.total then { b with truncated := true } :: beneath else beneath
      | _, bundles => bundles }

/-- Start-up finds cassette k's slot empty though its record says otherwise (R26). -/
def State.foundGone (s : State) (k : Ix) : Bool :=
  !s.pins.cassettePresent.get k && (s.position.cassettes.get k).state != .absent

/-- The notes of the cassettes that meet a test. -/
def State.notesOf (s : State) (test : Ix → Bool) : Quad Nat :=
  Ix.all.foldl (fun q k => if test k then Quad.add q (s.position.cassettes.get k).counts else q) Quad.zero

/-- What start-up makes of the position it finds, whose durable mark is given. All of it is kept but for start-up's own steps. The gap
check may add GAP (R175). A cassette found present whose record says ABSENT is inserted; one found gone is removed, to UNLOADED where it was
RELEASED, otherwise to DISCREPANCY with UNAUTHORISED_REMOVAL; a record read for this whose check word fails adds INTEGRITY (R9, R20, R22,
R23, R26). The generation steps once for each removal, and for an operation cut by the reset that had changed a cassette's count (R8; that
these steps are taken at the reset is the model's reading, notes/assumptions/28.md, and that the reads verify the words,
notes/assumptions/22.md). -/
def PositionStarted (durable : Nat) (s t : State) : Prop :=
  let gone := s.foundGone
  let free (k : Ix) : Bool := gone k && (s.position.cassettes.get k).state == .released
  let torn (k : Ix) : Bool := gone k && (s.position.cassettes.get k).state != .released
  let failed (k : Ix) : Bool := !(s.position.cassettes.get k).intact && (s.pins.cassettePresent.get k || gone k)
  let commits : Bool :=
    match s.escrow.op with
    | some (.commit _) => decide (0 < s.escrow.tally.perCassette.total)
    | _ => false
  let steps : Nat := (s.dispense .a).changed.toNat + (s.dispense .b).changed.toNat + commits.toNat + (Ix.all.filter gone).length
  let p := s.position
  t.position =
      { p with
        cassettes :=
          Quad.of (fun k =>
            let c := p.cassettes.get k
            if gone k then { c with counts := Quad.zero, state := .absent, pickFailed := false, intact := true }
            else if s.pins.cassettePresent.get k = true ∧ c.state = .absent then
              { c with counts := Quad.zero, state := .uncounted, pickFailed := false, intact := true }
            else c)
        discrepancy := Quad.zip (· + ·) p.discrepancy (s.notesOf torn).toInt
        flows := { p.flows with unloaded := Quad.add p.flows.unloaded (s.notesOf free) }
        generation := p.generation + BitVec.ofNat 32 steps
        causes :=
          { p.causes with
            gap := p.causes.gap || decide (durable < p.lastApplied)
            unauthorisedRemoval := p.causes.unauthorisedRemoval || Ix.all.any torn
            integrity := p.causes.integrity || Ix.all.any failed }
        integrityFault := t.position.integrityFault
        lastApplied := t.position.lastApplied } ∧
    (∀ x, p.integrityFault = some x → t.position.integrityFault = some x) ∧
    (p.integrityFault = none → Ix.all.any failed = false → t.position.integrityFault = none) ∧
    (p.integrityFault = none → Ix.all.any failed = true → ∃ w, t.position.integrityFault = some ⟨w, s.clock.count⟩) ∧
    ((∀ k : Ix, gone k = false) → t.position.lastApplied = p.lastApplied)

/-- A zone after the start-up steps of R158, from its record r as the reset leaves it. A zone found in ENTRY_TIMING has its entry timer
started for the full entry delay; a wired zone's loop is judged by R139, and an input so ACTIVE activates an eligible zone; a zone kept in
PENDING_ACTIVE or ACKED_ACTIVE whose input is NORMAL is restored; and zone 3 is raised momentarily where a cassette is found gone that was
not RELEASED (R22, R142). -/
def State.zoneStarted (s : State) (z : Fin 16) : Zone :=
  let r := (s.zone z).atReset
  let activated (x : Zone) : Zone :=
    if s.alarm.eligible z then x.activated s.alarm.armed s.settings.entryDelay s.clock.count none else x
  let timed : Zone := if r.state = .entryTiming then { r with entryTimer := some s.settings.entryDelay } else r
  let judged : Zone :=
    if wires : z.val < 14 then
      let reading := s.pins.loops.get ⟨z.val, wires⟩
      let read : Zone := { timed with reading := reading }
      let cuts : Prop := (reading = .open_ ∨ reading = .short) ∧ (r.config.type = .tamper ∨ r.config.type = .attack)
      if reading = .normal then read
      else if reading = .active ∨ cuts then activated { read with inputActive := true }
      else { read with trouble := r.config.enabled }
    else timed
  let restored : Zone :=
    if (r.state = .pendingActive ∨ r.state = .ackedActive) ∧ judged.inputActive = false then judged.restored else judged
  let removed := Ix.all.any (fun k => s.foundGone k && (s.position.cassettes.get k).state != .released)
  if z = 3 ∧ removed = true ∧ restored.inputActive = false then (activated restored).restored else restored

/-- What a reset that finds battery-backed state good leaves before CHECK goes on: the settings, the clock, the position, but for the
generation steps of dispenses that had changed a cassette's count, the escrow record, the envelope controller's record and the zones are
kept as R8, R26, R116, R134, R158, R190 and R196 say. -/
def KeptAtReset (s t : State) : Prop :=
  t.settings = s.settings ∧ t.clock = s.clock ∧ t.pins = s.pins ∧
    t.position =
      { s.position with
        generation :=
          s.position.generation + BitVec.ofNat 32 ((s.dispense .a).changed.toNat + (s.dispense .b).changed.toNat) } ∧
    t.escrow = s.escrow.atReset ∧ DepositoryIs s.depository.atReset t ∧
    AlarmIs
      { s.alarm.withZones (fun z => (s.zone z).atReset) with
        level := s.alarm.activeLevel, restriction := s.alarm.latchedEffects
        silentLine := Effects.has s.alarm.latchedEffects .silentLine
        sounder := false, sounderTimer := none, monitorTimer := none }
      t

/-- What a reset that finds battery-backed state good has made of it once start-up has come to phase PURGE, the durable mark at the gap
check being as given: the settings and the clock are kept, and the position, the escrow record, the zones and the envelope controller are
what start-up's own steps make of what was kept. A slot found in INTAKE, IMPRINT or DROP is cleared, JAMMED stays; OPEN and CLOSED stay
unless a start-up step takes SLOT_CLOSE into the set or out of it, where the model judges the permit (R8, R26, R116, R134, R158, R190,
R196; notes/assumptions/59.md; a slot found OPEN under SLOT_CLOSE, which R118 excludes, is left out). -/
def BatteryKept (durable : Nat) (s t : State) : Prop :=
  let d := s.depository.atReset
  let closes : Bool := Effects.has t.alarm.restriction .slotClose
  t.settings = s.settings ∧ t.clock = s.clock ∧ t.pins = s.pins ∧ PositionStarted durable s t ∧ t.escrow = s.escrow.cut ∧
    t.alarm.armed = s.alarm.armed ∧ (∀ z : Fin 16, t.zone z = s.zoneStarted z) ∧ AlarmDerived t ∧
    ((d.slot = .open_ → Effects.has s.alarm.latchedEffects .slotClose = false) →
      DepositoryIs
        (match d.slot with
          | .intake | .imprint | .drop => d.clearRun
          | .jammed => d
          | .open_ | .closed =>
            if closes = Effects.has s.alarm.latchedEffects .slotClose then d
            else d.judged (decide (d.bin.count < s.settings.binCapacity) && !closes && d.supervisorOpen))
        t)

/-- Start-up has come to phase PURGE with the reset kind given, over the journal j: the volatile state is at its reset values, the claim
is set by the escrow, the purge draws TRANSIT first, then the pockets, and at a cold start that finds drum notes the drum, and the
journal's durable part, reservations and OP_DONEs yet to be raised are kept. Where records that changed the
position were lost, the first record written is the GAP record for them; otherwise it takes the number after the durable mark (R56, R65,
R116, R174, R175, R192, R197 to R199). -/
def StartUpBegun (kind : ResetKind) (drum : Bool) (j : Journal) (position : Position) (stack : List Bundle) (t : State) :
    Prop :=
  t.startUp = ⟨.purge, kind⟩ ∧ t.dispenses = ⟨Dispense.idle, Dispense.idle⟩ ∧
    ClaimIs (if stack = [] then .none else .hold) [] t ∧ t.escrow.op = none ∧
    (∀ p : Port,
      (t.ports.get p).held = none ∧ (t.ports.get p).transmitter = .idle ∧ (t.ports.get p).approval = none ∧
        (t.ports.get p).frameFlag = false ∧ (t.ports.get p).overrunFlag = false ∧
        (t.ports.get p).duressPending = false) ∧
    t.path =
      { state := .purging, pick := none, draw := some ⟨.transit, .purge, position.transit, Quad.zero⟩
        purge :=
          some
            { startUp := true, rest := [.pocket .a, .pocket .b] ++ (if drum then [.drum] else []), booked := Quad.zero
              short := false, ended := none }
        timers := [⟨.purge, .transit, false⟩] } ∧
    t.journal.reservations = j.reservations ∧ t.journal.retained = j.retained ∧ t.journal.durable = j.durable ∧
    t.journal.trimPoint = j.trimPoint ∧
    t.journal.waitingDone = j.waitingDone ∧ t.alarm.monitorTimer = some 60 ∧
    (position.lastApplied ≤ j.durable → ∀ r, t.journal.staging.head? = some r → r.sequence = j.durable + 1) ∧
    (j.durable < position.lastApplied → position.lastApplied < 4294967295 →
      t.position.causes.gap = true ∧
        ∃ r : Record,
          t.journal.staging.head? = some r ∧ r.sequence = position.lastApplied + 1 ∧ r.kind = .gap ∧ r.port = none ∧
            r.counts = ⟨(position.lastApplied : Int) - j.durable, 0, 0, 0⟩ ∧ r.extra = position.lastApplied ∧ r.amount = 0)

/-- What a failed memory check makes of the battery-backed state: the clock, the settings, the position, the escrow record, the zones and
the envelope controller take their cold-start values, before the start-up steps of R158 and, where an envelope is reported in the path, the
start-up clear run. The cassettes are UNCOUNTED or ABSENT as their sensors say, and the envelope sequence number follows the last ENVELOPE
record retained that used one (R4, R26, R116, R128, R134, R136, R158, R190, R193, R198). -/
def ColdStarted (envelopeInPath : Bool) (s t : State) : Prop :=
  let numbers (r : Record) : Prop := r.kind = .envelope ∧ r.outcome ≠ 4
  let cold : State :=
    { s with
      settings := Settings.defaults, clock := ⟨0, true⟩
      position := Position.cold s.pins.cassettePresent s.journal.durable
      alarm := { s.alarm with zones := coldZones, armed := false } }
  t.settings = Settings.defaults ∧ t.clock = ⟨0, true⟩ ∧ t.pins = s.pins ∧
    t.position =
      { cassettes :=
          Quad.of (fun k =>
            { mode := if k = .i4 then .deposit else .recycle, index := if k = .i4 then none else some k
              counts := Quad.zero, capacity := 2500, low := 50
              state := if s.pins.cassettePresent.get k then .uncounted else .absent, pickFailed := false, intact := true })
        transit := Quad.zero, pockets := ⟨Quad.zero, Quad.zero⟩, reject := Quad.zero, retract := Quad.zero
        discrepancy := Quad.all 0, suspect := 0, suspectIn := 0, suspectOut := 0, flows := Flows.zero
        drawerA := ⟨0, 0, true⟩, drawerB := ⟨0, 0, true⟩, branchCash := ⟨0, 0, true⟩, generation := 0
        causes :=
          { coldStart := true, gap := false, integrity := false, unauthorisedRemoval := false, reconcileDueJam := false }
        integrityFault := none, lastApplied := s.journal.durable } ∧
    t.escrow = Escrow.closed ∧ t.alarm.armed = false ∧ (∀ z : Fin 16, t.zone z = cold.zoneStarted z) ∧ AlarmDerived t ∧
    (∃ sequence : Nat,
      ((∀ r ∈ s.journal.retained, ¬numbers r) → sequence = 1) ∧
        (∀ (before after : List Record) (r : Record), s.journal.retained = before ++ r :: after → numbers r →
          (∀ x ∈ after, ¬numbers x) → sequence = if 9999999 ≤ r.extra then 1 else r.extra + 1) ∧
        DepositoryIs
          (let d : Depository :=
            { slot := .closed, supervisorOpen := false, phase := .firstPull, envelope := none, sequence := sequence
              bin := ⟨0, 0, 0, 0, 0, false⟩, pullbacks := [], entry := .empty, imprinterFault := false
              receiptOut := false, clearing := none, takeEnvelope := false, intakeTimer := false, reverseTimer := false
              imprinterTimer := false, dropTimer := false, clearTimer := false, keypadTimer := false, receipts := []
              display := t.depository.display }
          if envelopeInPath then d.clearRun else d)
          t)

/-! ## The laws of the part -/

/-- The notes of one denomination the part holds: the cassettes, ESCROW, TRANSIT, the pockets and the two bins, with the
discrepancy (R3). -/
def State.held (s : State) (d : Ix) : Int :=
  (s.position.cassettes.c1.counts.get d : Int) + s.position.cassettes.c2.counts.get d +
    s.position.cassettes.c3.counts.get d + s.position.cassettes.c4.counts.get d +
    (stackNotes s.escrow.stack).get d + s.position.transit.get d + s.position.pockets.a.get d +
    s.position.pockets.b.get d + s.position.reject.get d + s.position.retract.get d + s.position.discrepancy.get d

/-- The notes of one denomination the flows say it holds (R3). -/
def State.flowed (s : State) (d : Ix) : Int :=
  (s.position.flows.opening.get d : Int) + s.position.flows.loaded.get d + s.position.flows.accepted.get d -
    s.position.flows.taken.get d - s.position.flows.returned.get d - s.position.flows.unloaded.get d

/-- The law of conservation: per denomination, what the part holds is what the flows say (R3); and a cassette that is not there, or not
yet counted, is booked with no notes. -/
def Conserved (s : State) : Prop :=
  (∀ d : Ix, s.held d = s.flowed d) ∧
    ∀ k : Ix,
      (s.position.cassettes.get k).state = .absent ∨ (s.position.cassettes.get k).state = .uncounted →
        (s.position.cassettes.get k).counts = Quad.zero

/-- What the end of every step leaves, while the part has its supply: the display shows the line of R121, the claim idle timer runs
exactly where R53 says so, every ALARM_CHANGE due has been raised (R154), and an idle transmitter has nothing to send (R186). -/
def AtRest (s : State) : Prop :=
  s.powered = true →
    s.depository.display = s.depository.line ∧ s.claim.idle.isSome = s.idleRuns ∧ s.alarm.changed = false ∧
      ∀ p : Port, (s.ports.get p).transmitter = .idle →
        (∀ r : Reply, s.answered p ≠ some r) ∧
          (s.noticesFlow p = true → ∀ k : NoticeKind, (s.ports.get p).notices.get k = none)

/-- Each record's number is the next one after the record before it, a GAP record standing for every number it names
(R160, R175). -/
def consecutive : List Record → Prop
  | [] => True
  | [_] => True
  | r :: x :: rest =>
    x.sequence = r.sequence + 1 + (if x.kind = .gap then x.counts.c1.toNat else 0) ∧ consecutive (x :: rest)

/-- The number of the last record given a number that is not lost: the last one staged, or the durable mark. -/
def Journal.lastNumber (j : Journal) : Nat :=
  match j.staging.getLast? with
  | some r => r.sequence
  | none => j.durable

/-- The journal is in order: the records follow one another by R160 and R175, the retained ones end at the durable mark, and the
next number is the one after the last, where there is one left. -/
def InOrder (j : Journal) : Prop :=
  consecutive (j.retained ++ j.staging) ∧ (∀ r ∈ j.retained, j.trimPoint < r.sequence ∧ r.sequence ≤ j.durable) ∧
    (∀ r ∈ j.staging, j.durable < r.sequence) ∧ (∀ r, j.retained.getLast? = some r → r.sequence = j.durable) ∧
    (∀ r, j.staging.head? = some r →
      r.sequence = j.durable + 1 + (if r.kind = .gap then r.counts.c1.toNat else 0)) ∧
    j.trimPoint ≤ j.durable ∧ (j.next = none ∨ j.next = some (j.lastNumber + 1))

end Sys2Proof.Machine
end

