-- ==== Sys2Proof/WellFormed.lean ====
section
/-!
DEFINITION. Which terms of Instr stand for a command of their row. A meaning is given to every term; the ill-formed ones
stand for no command of the table (notes/assumptions/9.md).
-/
namespace Sys2Proof

/-- A request frame's body is at most 64 bytes, three of them kind, tag and code (R177, 11.1). -/
def Frame.wellFormed (f : Frame) : Bool := f.operands.length ≤ 61

/-- The rows that share a request code are told apart by the target or place operand (R63, R131, R19, R21); an unknown
request carries a code that names no request (R179); a duress mark is read at ports A and B only (R184); an arrival has a
row of its own at some sensors (R101, R106, R112); port M has no approval slot (R188). -/
def Instr.wellFormed : Instr → Bool
  | .dispense f => f.wellFormed
  | .cancel f => f.wellFormed
  | .claim f => f.wellFormed
  | .release f => f.wellFormed
  | .depositOpen f => f.wellFormed
  | .depositClose f => f.wellFormed
  | .insertNotes f => f.wellFormed
  | .returnLast f => f.wellFormed
  | .returnAll f => f.wellFormed
  | .compareEscrow f => f.wellFormed
  | .commit f => f.wellFormed
  | .post f => f.wellFormed
  | .handover f => f.wellFormed
  | .load f => f.wellFormed
  | .unload f => f.wellFormed && !namesBin f.operands
  | .unloadBin f => f.wellFormed && namesBin f.operands
  | .reconcile f => f.wellFormed
  | .jamClearModule f => f.wellFormed && !namesSlot f.operands
  | .jamClearSlot f => f.wellFormed && namesSlot f.operands
  | .slotOpen f => f.wellFormed
  | .slotClose f => f.wellFormed
  | .binEmptied f => f.wellFormed
  | .zoneSet f => f.wellFormed
  | .arm f => f.wellFormed
  | .disarm f => f.wellFormed
  | .bypass f => f.wellFormed
  | .alarmAck f => f.wellFormed
  | .alarmList f => f.wellFormed
  | .silence f => f.wellFormed
  | .journalRead f => f.wellFormed
  | .journalScan f => f.wellFormed
  | .trim f => f.wellFormed
  | .sync f => f.wellFormed
  | .status f => f.wellFormed
  | .positionRead f => f.wellFormed
  | .clearFaults f => f.wellFormed
  | .approve f => f.wellFormed
  | .clockSet f => f.wellFormed
  | .setSetting f => f.wellFormed
  | .restart f => f.wellFormed
  | .unknownRequest code f => f.wellFormed && (Request.ofCode code).isNone
  | .invalidFrame _ _ => true
  | .frameGapTimeout _ => true
  | .overrun _ => true
  | .frameSent _ => true
  | .duressRaise _ => true
  | .claimIdleExpiry => true
  | .delayEnd _ => true
  | .presentTimerExpiry _ => true
  | .pocketEmpty _ => true
  | .pickEvent _ => true
  | .noteCheck _ => true
  | .noteSensorArrival a => a.reached.arrivalRow
  | .noteJam _ => true
  | .retractNoteCounted _ => true
  | .drawSourceEmpty => true
  | .cassetteRemoval _ => true
  | .cassetteInsertion _ => true
  | .feedTake => true
  | .feedMiss => true
  | .insertVerdict _ => true
  | .drumEntry => true
  | .compartmentEntry => true
  | .returnPocketEntry => true
  | .intakeEmpty _ => true
  | .drumExit => true
  | .drumEmpty => true
  | .cassetteEntry _ => true
  | .gripOn => true
  | .gripOff => true
  | .imprintReport => true
  | .intakeTimerExpiry => true
  | .reverseTimerExpiry => true
  | .imprinterReport _ => true
  | .imprinterTimeout => true
  | .dropReport => true
  | .dropTimerExpiry => true
  | .clearRunExpiry => true
  | .mouthClear => true
  | .keyDigit _ => true
  | .keyEnter => true
  | .keyClear => true
  | .keypadTimerExpiry => true
  | .receiptPrinterReport _ => true
  | .paperLoaded => true
  | .loopReading _ _ => true
  | .debouncedReadingChange _ => true
  | .entryTimerExpiry _ => true
  | .monitorTimerExpiry => true
  | .sounderTimerExpiry => true
  | .approvalExpiry p => p != .m
  | .syncTimeout _ => true
  | .writeComplete => true
  | .writeFailed => true
  | .stalledRetry => true
  | .clockTick => true
  | .clockCalendarEnd => true
  | .supplyApplied _ _ _ => true
  | .powerLoss => true
  | .resetLine => true
  | .restartReset => true
  | .startUpReady => true

end Sys2Proof
end

