-- ==== Sys2Proof/Certificates/Slice0/Obligations.lean ====
section
/-!
DEFINITION. The statements for the provers. Each docstring names the rules a statement follows; where a clause rests on a choice of the
model, the log entry is named.
-/
open Sys2Proof Sys2Proof.Machine

/-! ## The queue, reset, the whole machine -/

/-- The block's own: a step runs the command at the front of the queue on the state with the rest of the queue; with an empty queue the
part idles (the model's choice, notes/assumptions/1.md). -/
def Obligations.StepRunsFrontCommand : Prop :=
  (∀ (c : Instr) (rest : List Instr) (s : State),
    step { s with pending := c :: rest } = exec c { s with pending := rest }) ∧
    ∀ s : State, s.pending = [] → step s = .next s

/-- The whole part: every command answers a next state and leaves the queue of the commands waiting; the settings of 10.1, those of a
cassette (its mode, index, capacity and low threshold) among them, change by SET and a cold start alone (R193, R196), the clock by a tick,
CLOCK_SET and a cold start alone (R190, R191, R198). -/
def Obligations.OnlyTheirCommandsChangeThem : Prop :=
  ∀ (c : Instr) (s : State),
    ∃ t : State, exec c s = .next t ∧ t.pending = s.pending ∧ s.freeCount ≤ t.freeCount ∧
      (t.settings ≠ s.settings → (∃ f, c = .setSetting f) ∨ ∃ drum path, c = .supplyApplied false drum path) ∧
      (∀ k : Ix,
        let was := s.position.cassettes.get k
        let is := t.position.cassettes.get k
        is.mode ≠ was.mode ∨ is.index ≠ was.index ∨ is.capacity ≠ was.capacity ∨ is.low ≠ was.low →
          (∃ f, c = .setSetting f) ∨ ∃ drum path, c = .supplyApplied false drum path) ∧
      (t.clock ≠ s.clock →
        c = .clockTick ∨ c = .clockCalendarEnd ∨ (∃ f, c = .clockSet f) ∨ ∃ drum path, c = .supplyApplied false drum path)

/-- Reset leaves the cold-start values the spec gives: the defaults of R193, the zones of R136, the position of R26 with its
flows, accounts and causes, the envelope controller of R134, the clock of R190, the claim of R56, the closed escrow of R116, the arm state
and the sounder of R158, the journal's empty reservation list and lost-event count of R174. The model's own mark of a promised staging
entry is clear (notes/assumptions/19.md). That the state called reset is the one after
the first cold start, in phase READY, is the model's choice (notes/assumptions/2.md), and so are the pins that start-up found, on which
the clauses on the zones, their level and set, and the cassettes rest: every loop NORMAL, the cassettes present
(notes/assumptions/5.md). -/
def Obligations.ResetValues : Prop :=
  State.reset.startUp.phase = .ready ∧ State.reset.clock = ⟨0, true⟩ ∧ State.reset.settings = Settings.defaults ∧
    State.reset.settings.delayThreshold = 200000 ∧ State.reset.settings.idleTimeout = 90 ∧
    State.reset.position.flows = Flows.zero ∧ State.reset.position.discrepancy = Quad.all 0 ∧
    State.reset.position.generation = 0 ∧ State.reset.position.causes = ⟨false, false, true, false, false⟩ ∧
    State.reset.position.integrityFault = none ∧
    (∀ k : Ix,
      (State.reset.position.cassettes.get k).counts = Quad.zero ∧
        (State.reset.position.cassettes.get k).capacity = 2500 ∧ (State.reset.position.cassettes.get k).low = 50) ∧
    (∀ a : AccountId, State.reset.position.account a = ⟨0, 0, true⟩) ∧ State.reset.escrow = Escrow.closed ∧
    State.reset.claim = ⟨.none, [], none⟩ ∧ State.reset.path.state = .ready ∧ State.reset.depository = Depository.cold 1 ∧
    State.reset.alarm.zones = coldZones ∧ State.reset.alarm.armed = false ∧ State.reset.alarm.level = 0 ∧
    State.reset.alarm.restriction = 0 ∧ State.reset.alarm.sounder = false ∧ State.reset.journal.reservations = [] ∧
    State.reset.journal.lost = 0 ∧ State.reset.journal.promised = false

/-! ## Laws kept by every step -/

/-- The first law: every step keeps the balance of each denomination (R3). -/
def Obligations.StepKeepsConservation : Prop := ∀ s t : State, Conserved s → step s = .next t → Conserved t

/-- The laws hold at reset: the balance of each denomination, what the zone states give, the order of the journal, and what the end of
every step leaves (R3, R26, R53, R121, R151, R153 to R155, R160, R166, R175, R186). That State.reset is the end of a first cold start is
the model's choice (notes/assumptions/2.md). -/
def Obligations.ResetMeetsTheLaws : Prop :=
  Conserved State.reset ∧ AlarmDerived State.reset ∧ InOrder State.reset.journal ∧ AtRest State.reset

/-- The eleventh law and its companions: after every step the active level, the restriction set and the silent line are what
the zone states give (R151, R153, R155). -/
def Obligations.StepKeepsAlarmDerived : Prop := ∀ s t : State, AlarmDerived s → step s = .next t → AlarmDerived t

/-- The eighth law: after every step each record follows the one before it by one number, a GAP record standing for the
numbers it names, and the records retained are those at or below the durable mark (R160, R166, R175). -/
def Obligations.StepKeepsJournalOrder : Prop := ∀ s t : State, InOrder s.journal → step s = .next t → InOrder t.journal

/-! ## Frames, amounts, the mix -/

/-- A well-formed request's bytes on the line are read back as that request: a hunting receiver ignores every byte before the start byte,
and the request joins the queue at its last check byte, the receiver hunting again. A gap, a missing stop bit or a break discards the frame
it falls in, with its command, and is ignored while the receiver hunts (R176, R177, R179, 11.1, 11.2; that a line's bytes are no commands
of the queue is the model's choice, notes/assumptions/42.md). -/
def Obligations.FrameReadsBack : Prop :=
  (∀ (i : Instr) (code : Byte) (f : Frame), i.request? = some (code, f) → i.wellFormed = true →
    commandOfFrame f.port (requestBytes code f) = some i ∧
      ∀ (junk : List Byte) (s : State), s.powered = true → (s.ports.get f.port).receiver = .hunting →
        (∀ b ∈ junk, b ≠ 0xA5#8) →
        s.onBytes f.port (junk ++ requestBytes code f) = { s with pending := s.pending ++ [i] }) ∧
  ∀ (p : Port) (s : State), s.powered = true →
    let heard (e : LineEvent) (c : Instr) : Prop :=
      ((s.ports.get p).receiver = .hunting → s.onLine p e = s) ∧
        ∀ got : List Byte, (s.ports.get p).receiver = .inFrame got →
          s.onLine p e =
            { s with
              ports := s.ports.set p { s.ports.get p with receiver := .hunting }, pending := s.pending ++ [c] }
    heard .gap (.frameGapTimeout p) ∧ heard .noStopBit (.invalidFrame p .noStopBit) ∧
      heard .lineBreak (.invalidFrame p .lineBreak)

/-- One flipped bit in a request's body or in its check value is never read as a valid request frame
(R177). -/
def Obligations.FlippedBitIsNoRequest : Prop :=
  ∀ (i : Instr) (code : Byte) (f : Frame) (n : Nat) (bit : Fin 8), i.request? = some (code, f) → i.wellFormed = true →
    2 ≤ n → n < (requestBytes code f).length →
    commandOfFrame f.port ((requestBytes code f).modify n (fun b => b ^^^ (1#8 <<< bit.val))) =
      some (.invalidFrame f.port .crcMismatch)

/-- Every amount the formats can hold is read back as it was written (R27, R28). -/
def Obligations.AmountsReadBack : Prop :=
  (∀ v : Nat, v ≤ Config.unsignedMax → (writeU4 v).length = 4 ∧ readU4 (writeU4 v) = .ok v) ∧
    ∀ v : Int, balanceInRange v = true → (writeS5 v).length = 5 ∧ readS5 (writeS5 v) = .ok v

/-- The preference order: the valid numbers at their first appearance, then the cassettes not named in ascending number; it
always holds each cassette once (R40). -/
def Obligations.PreferenceOrderHoldsEachOnce : Prop :=
  ∀ named : List (Option Ix),
    (preferenceOrder named).Perm Ix.all ∧
      ∃ firsts : List Ix,
        firsts.Nodup ∧ (∀ k, k ∈ firsts ↔ some k ∈ named) ∧
          (∀ (i j : Nat) (k l : Ix), firsts[i]? = some k → firsts[j]? = some l → i < j →
            named.idxOf (some k) < named.idxOf (some l)) ∧
          preferenceOrder named = firsts ++ Ix.all.filter (fun k => decide (k ∉ firsts))

/-- The mix of R41 over the cassettes as they stand: a candidate of least remainder, and among those the greatest in preference
order; with the note count, the value and the remainder the unit returns, V + R = T, and V within the unsigned format for a cap
of at most 100 and values of at most 9,999.99. -/
def Obligations.MixIsBestCandidate : Prop :=
  ∀ (s : State) (order : List Ix) (delivered : Quad Nat) (cap target unpaid : Nat), order.Perm Ix.all →
    let m := s.mix order delivered cap target unpaid
    Candidate s.cassetteValues (s.availability delivered) cap target m.mix ∧
      (∀ u : Quad Nat, Candidate s.cassetteValues (s.availability delivered) cap target u →
        valueOf s.cassetteValues u ≤ m.value ∧
          (valueOf s.cassetteValues u = m.value → u = m.mix ∨ greaterIn m.mix u order)) ∧
      m.notes = m.mix.total ∧ m.value = valueOf s.cassetteValues m.mix ∧ m.value + m.remainder = target ∧
      m.payable = target ∧ m.unpaid = unpaid ∧
      (cap ≤ Config.pocketNotes → (∀ d, s.settings.denominations.get d ≤ 999999) → m.value ≤ Config.unsignedMax)

/-- ZERO_FILL: exactly W decimal digits with leading zeros, or W asterisks where the value needs more; every envelope sequence
number fits at W = 7 (R45). MONEY, for every amount the part takes: a text whose digits are the amount's, counted from the right two cents
digits, the point and then the integer part with a comma before each further group of three, as long as the integer part alone makes it,
with no leading zero; right-aligned in the field behind spaces where it is no longer than W, and otherwise W asterisks (R46, R47). The
display echoes a declared amount at W = 8, and the imprint line, which a receipt repeats, ends in it at W = 10 (R47). -/
def Obligations.EditingRendersFigures : Prop :=
  (∀ w v : Nat, (renderZeroFill w v).length = w) ∧
    (∀ w v : Nat, v < 10 ^ w →
      decimal ((renderZeroFill w v).map (fun c => c.toNat - 48)) = v ∧
        ∀ c ∈ renderZeroFill w v, 48 ≤ c.toNat ∧ c.toNat ≤ 57) ∧
    (∀ w v : Nat, 10 ^ w ≤ v → renderZeroFill w v = List.replicate w '*') ∧
    (∀ v : Nat, v ≤ Config.envelopeLast → v < 10 ^ 7) ∧
    (∀ cents : Nat, cents ≤ Config.unsignedMax →
      ∃ text : List Char,
        (∀ w : Nat,
          renderMoney w cents =
            if text.length ≤ w then List.replicate (w - text.length) ' ' ++ text else List.replicate w '*') ∧
        text.length =
          (if cents ≤ 999 then 4 else if cents ≤ 9999 then 5 else if cents ≤ 99999 then 6 else if cents ≤ 999999 then 8
            else if cents ≤ 9999999 then 9 else 10) ∧
        decimal ((text.filter (fun c => c != ',' && c != '.')).map (fun c => c.toNat - 48)) = cents ∧
        ∀ (i : Nat) (c : Char), text.reverse[i]? = some c →
          if i = 2 then c = '.' else if i % 4 = 2 then c = ',' else 48 ≤ c.toNat ∧ c.toNat ≤ 57) ∧
    (∀ (d : Depository) (cents : Nat), d.slot.takesKeys = true → d.entry = .held cents →
      d.line = d.message ++ renderMoney 8 cents) ∧
    ∀ (c : Clock) (sequence cents : Nat),
      (imprintLine c sequence (some cents)).drop 28 = renderMoney 10 cents ∧
        (cents ≤ Config.unsignedMax → (imprintLine c sequence (some cents)).length = 38)

/-! ## The module claim (03) -/

/-- CLAIM answers by the first line of the table of R49 that applies, every reply with the owner as it stood: HALTED under MODULE_LOCK,
BUSY with a dispense in DELAYING or QUEUED, GRANTED to the owner, GRANTED where the owner is NONE (the record of an empty escrow
of another port closes, R97), DUPLICATE, and WAITING with an entry at its place in the wait list (R50). -/
def Obligations.ClaimFollowsItsTable : Prop :=
  ∀ (f : Frame) (s : State), Taken .claim f s →
    let was := s.claim.owner
    if s.restricted .moduleLock then Refuses (.claim f) .claim f .halted (.owner was) s
    else if s.waitsForModule f.port then Refuses (.claim f) .claim f .busy (.owner was) s
    else if was.ownedBy f.port then Replies (.claim f) .claim f .granted (.owner was) [] s (fun _ => True)
    else if was = .none then
      Replies (.claim f) .claim f .granted (.owner was) [.claim, .escrow] s (fun t =>
        ClaimIs (ownerOf f.port) s.claim.waiting t ∧
          t.escrow =
            { s.escrow with
              isOpen :=
                if s.escrow.stack = [] ∧ f.port ≠ s.escrow.owner.port then false else s.escrow.isOpen })
    else if s.isWaiting f.port then Refuses (.claim f) .claim f .duplicate (.owner was) s
    else
      Replies (.claim f) .claim f .waiting (.owner was) [.claim] s (fun t =>
        ∃ before after : List WaitEntry,
          s.claim.waiting = before ++ after ∧ ClaimIs was (before ++ .claim f.port :: after) t ∧
            (∀ e ∈ after.head?, WaitEntry.rank (.claim f.port) < e.rank) ∧
            (∀ e ∈ before, e.rank ≤ WaitEntry.rank (.claim f.port)))

/-- RELEASE: a port that does not own the module is refused BUSY with a dispense waiting, withdraws its CLAIM entry, or is refused
NOT_CLAIMED; the owner is refused BUSY and ESCROW_NOT_EMPTY, and otherwise gives the module up: with nobody waiting the owner becomes NONE,
with a CLAIM entry at the head of the list that port becomes owner and is sent GRANT, and with a DELAYED entry there its port becomes owner
and its dispense is granted (R51, R52, R77, R78). An owner whose dispense waits with its grant checks deferred is busy (the model's
reading, notes/assumptions/16.md). The claim idle timer expires: with an empty escrow the port loses the claim, is told IDLE, and the claim
is handed on in the same way; a teller with notes in escrow loses it to HOLD, both sides are told, and port S's CLAIM entry leaves the list
(R54). -/
def Obligations.ReleaseAndIdleExpiryHandOn : Prop :=
  (∀ (f : Frame) (s : State), Taken .release f s →
    if s.claim.owner.ownedBy f.port = false then
      if s.waitsForModule f.port then Refuses (.release f) .release f .busy .none s
      else if .claim f.port ∈ s.claim.waiting then
        Replies (.release f) .release f .ok .withdrawn [.claim] s (fun t =>
          ClaimIs s.claim.owner (s.claim.waiting.filter (fun e => e ≠ .claim f.port)) t)
      else Refuses (.release f) .release f .notClaimed .none s
    else if s.opInFlight f.port ∨ s.waitsForModule f.port then Refuses (.release f) .release f .busy .none s
    else if s.escrow.stack ≠ [] then Refuses (.release f) .release f .escrowNotEmpty .none s
    else
      (s.claim.waiting = [] →
        Replies (.release f) .release f .ok (.owner .none) [.claim, .escrow] s (fun t =>
          ClaimIs .none [] t ∧ t.escrow = { s.escrow with isOpen := false })) ∧
      (∀ (p : Port) (rest : List WaitEntry), s.claim.waiting = .claim p :: rest →
        Replies (.release f) .release f .ok (.owner (ownerOf p)) [.claim, .escrow] s (fun t =>
          ClaimIs (ownerOf p) rest t ∧ t.escrow = { s.escrow with isOpen := false } ∧ Told p (.grant (ownerOf p)) t)) ∧
      (∀ (w : Teller) (rest : List WaitEntry), s.claim.waiting = .delayed w :: rest → (s.dispense w).state = .queued →
        Replies (.release f) .release f .ok (.owner (ownerOf w.port))
          [.claim, .escrow, .dispenses, .path, .position, .journal] s (fun t =>
            ClaimIs (ownerOf w.port) rest t ∧ t.escrow = { s.escrow with isOpen := false } ∧ GrantGoesOn w s t))) ∧
  ∀ (s : State) (p : Port), s.running = true → Quiet s → s.claim.idle.isSome → s.claim.owner.port? = some p →
    (s.escrow.stack = [] → s.claim.waiting = [] →
      Does .claimIdleExpiry [.claim, .escrow] s (fun t =>
        ClaimIs .none [] t ∧ t.escrow = { s.escrow with isOpen := false } ∧ Told p (.claimEnded .idle) t)) ∧
    (∀ (q : Port) (rest : List WaitEntry), s.escrow.stack = [] → s.claim.waiting = .claim q :: rest →
      Does .claimIdleExpiry [.claim, .escrow] s (fun t =>
        ClaimIs (ownerOf q) rest t ∧ t.escrow = { s.escrow with isOpen := false } ∧ Told p (.claimEnded .idle) t ∧
          Told q (.grant (ownerOf q)) t)) ∧
    (∀ (w : Teller) (rest : List WaitEntry), s.escrow.stack = [] → s.claim.waiting = .delayed w :: rest →
      (s.dispense w).state = .queued →
      Does .claimIdleExpiry [.claim, .escrow, .dispenses, .path, .position, .journal] s (fun t =>
        ClaimIs (ownerOf w.port) rest t ∧ t.escrow = { s.escrow with isOpen := false } ∧ Told p (.claimEnded .idle) t ∧
          GrantGoesOn w s t)) ∧
    (s.escrow.stack ≠ [] → p.teller?.isSome →
      Does .claimIdleExpiry [.claim] s (fun t =>
        ClaimIs .hold (s.claim.waiting.filter (fun e => e ≠ .claim .s)) t ∧ Told p (.claimEnded .hold) t ∧
          Told .s (.grant .hold) t))

/-! ## Dispensing (04) -/

/-- DISPENSE is refused by the first check of R71 that fails, in their order, and then nothing changes but the approval it consumed
(R71, R189). A check word that fails where STALE would carry the counts, or where the mix reads them, refuses AUDIT with its fault
recorded (R9, R36; that STALE's counts are verified is the model's choice, notes/assumptions/22.md). -/
def Obligations.DispenseChecksInOrder : Prop :=
  ∀ (w : Teller) (f : Frame) (s : State), f.port = w.port → Taken .dispense f s →
    let o := dispenseOperands f.operands
    let refused (why : Reason) (results : Results) : Prop :=
      ∃ t : State, exec (.dispense f) s = .next t ∧ Answers .dispense f .refused (some why) results s t ∧
        KeptBut [.ports] s t ∧ ApprovalUsed .dispense f s t
    let faulted : Prop :=
      ∃ t : State, exec (.dispense f) s = .next t ∧ Answers .dispense f .refused (some .audit) .none s t ∧
        KeptBut [.ports, .position] s t ∧ ApprovalUsed .dispense f s t ∧ IntegrityFound s t
    if (s.dispense w).state ≠ .idle ∨ s.opInFlight f.port = true then refused .busy .none
    else if s.claim.owner.ownedBy f.port = false then refused .notClaimed .none
    else if s.otherOpInFlight f.port = true then refused .busy .none
    else if s.path.state = .jammed then refused .jammed .none
    else if s.path.state = .purging then refused .busy .none
    else if s.auditRequired = true then refused .audit .none
    else if s.restricted .dispenseHalt = true ∨ s.restricted .moduleLock = true then refused .halted .none
    else
      match o.amount with
      | .error position => refused .badDigit (.badDigit 1 position)
      | .ok amount =>
        if amount = 0 then refused .zeroAmount .none
        else if o.generation.getD s.position.generation ≠ s.position.generation then
          (WordsMatch s → refused .stale (.stale s.position.generation (s.position.cassettes.map (fun c => c.counts)))) ∧
            (¬WordsMatch s → faulted)
        else
          (∀ (carried : Results) (y : State),
            requestMix w amount o.cap o.preference o.target s = (.failed .audit carried, y) → faulted) ∧
          (∀ (why : Reason) (carried : Results),
            requestMix w amount o.cap o.preference o.target s = (.failed why carried, s) → why ≠ .audit →
              refused why carried) ∧
          ∀ m : MixResult, requestMix w amount o.cap o.preference o.target s = (.payable m, s) →
            if s.position.binsFull = true then refused .binFull .none
            else if s.delayApplies amount (Approved .dispense f s) = true ∧ s.escrow.stack ≠ [] then
              refused .escrowNotEmpty .none
            else if s.position.marginsExceeded = true then refused .range .none
            else
              ∀ why : Reason, s.journal.roomCheck 2 1 = some why →
                refused why (.room s.journal.room s.journal.reservations.length s.journal.stagingFree)

/-- A DISPENSE that passes every check is ACCEPTED: its start record and reservation are made and its record is filled. Without a delay
picking begins with the first cassette of the preference order that the mix takes notes from (R72, R73, R79). With the delay applying it is
DELAYING to its delay end and the claim is lent: with nobody waiting the owner becomes NONE, with a CLAIM entry at the head of the list
that port becomes owner and is sent GRANT, and with the other window's DELAYED entry there that window becomes owner and its dispense is
granted, on the state x that the acceptance has left (R51, R72 to R74, R77, R78). That the start record's outcome is 1 is the model's
choice (notes/assumptions/97.md). -/
def Obligations.DispenseIsAccepted : Prop :=
  (∀ (w : Teller) (f : Frame) (s : State) (amount n : Nat) (m : MixResult), f.port = w.port → Taken .dispense f s →
    let o := dispenseOperands f.operands
    let consumed := Approved .dispense f s
    DispensePasses w o amount m n s → s.delayApplies amount consumed = false →
    Replies (.dispense f) .dispense f .accepted
      (.dispenseAccepted
        { startSequence := n, cap := o.cap, preference := o.preference, mix := m,
          account := remainderAccount w o.target, waiverConsumed := consumed,
          waiverApplied := consumed && !s.restricted .dispenseCap, delay := 0 })
      [.position, .dispenses, .path, .journal, .ports] s (fun t =>
        ApprovalUsed .dispense f s t ∧ DispenseStarted w m n s t ∧
          t.dispenses = s.dispenses.set w { acceptedRecord s o amount m n with state := .picking } ∧
          ∃ k d : Ix,
            o.preference.find? (fun j => decide (0 < m.mix.get j)) = some k ∧
              (s.position.cassettes.get k).index = some d ∧
              t.path = { s.path with pick := some ⟨w, k, d, .commanded⟩ })) ∧
  ∀ (w : Teller) (f : Frame) (s : State) (amount n : Nat) (m : MixResult), f.port = w.port → Taken .dispense f s →
    let o := dispenseOperands f.operands
    let consumed := Approved .dispense f s
    DispensePasses w o amount m n s → s.delayApplies amount consumed = true → s.escrow.stack = [] →
    let accepts := Replies (.dispense f) .dispense f .accepted
      (.dispenseAccepted
        { startSequence := n, cap := o.cap, preference := o.preference, mix := m,
          account := remainderAccount w o.target, waiverConsumed := consumed,
          waiverApplied := consumed && !s.restricted .dispenseCap, delay := s.settings.delayTime })
    let delays (t : State) : Prop :=
      DispenseStarted w m n s t ∧
        t.dispenses =
          s.dispenses.set w
            { acceptedRecord s o amount m n with
              state := .delaying, delayEnd := s.clock.count + BitVec.ofNat 32 s.settings.delayTime }
    (s.claim.waiting = [] →
      accepts [.position, .dispenses, .claim, .escrow, .journal, .ports] s (fun t =>
        ApprovalUsed .dispense f s t ∧ delays t ∧ ClaimIs .none [] t ∧ t.escrow = { s.escrow with isOpen := false })) ∧
    (∀ (p : Port) (rest : List WaitEntry), s.claim.waiting = .claim p :: rest →
      accepts [.position, .dispenses, .claim, .escrow, .journal, .ports] s (fun t =>
        ApprovalUsed .dispense f s t ∧ delays t ∧ ClaimIs (ownerOf p) rest t ∧
          t.escrow = { s.escrow with isOpen := false } ∧ Told p (.grant (ownerOf p)) t)) ∧
    ∀ rest : List WaitEntry, s.claim.waiting = .delayed w.other :: rest → (s.dispense w.other).state = .queued →
      accepts [.position, .dispenses, .claim, .escrow, .path, .journal, .ports] s (fun t =>
        ApprovalUsed .dispense f s t ∧ ClaimIs (ownerOf w.other.port) rest t ∧
          t.escrow = { s.escrow with isOpen := false } ∧
          ∃ x : State, delays x ∧ KeptBut [.position, .dispenses, .journal, .ports] s x ∧ GrantGoesOn w.other x t)

/-- CANCEL acts by the state of the port's dispense: refused NO_OPERATION in IDLE; in DELAYING and QUEUED the dispense ends CANCELLED with
nothing paid, its entry leaving the wait list; in PICKING with a pick in hand it is to stop after that pick, unless a stop is fixed
already, and with none the draw back begins; a draw back under way and a retract go on; in PRESENTING the retract begins, and while the
module is JAMMED the dispense ends JAMMED without a draw (R62, R86, R88, R89). The model's choices: a stop already fixed keeps its
reason, and a dispense that is ending already is left alone (notes/assumptions/15.md); what the reservation of a jammed dispense keeps
(notes/assumptions/67.md). -/
def Obligations.CancelActsByState : Prop :=
  ∀ (w : Teller) (f : Frame) (s : State), f.port = w.port → Taken .cancel f s →
    let d := s.dispense w
    if d.ending = true then Replies (.cancel f) .cancel f .ok .none [] s (fun _ => True)
    else
      match d.state with
      | .idle => Refuses (.cancel f) .cancel f .noOperation .none s
      | .delaying =>
        ∀ n : Nat, EndRoom n s →
          Replies (.cancel f) .cancel f .ok .none [.dispenses, .path, .position, .journal] s
            (DispenseEnded w 5 Quad.zero n s.position s)
      | .queued =>
        ∀ n : Nat, EndRoom n s →
          Replies (.cancel f) .cancel f .ok .none [.dispenses, .path, .position, .journal, .claim] s (fun t =>
            DispenseEnded w 5 Quad.zero n s.position s t ∧
              ClaimIs s.claim.owner
                (if d.deferred then s.claim.waiting else s.claim.waiting.filter (fun e => e ≠ .delayed w)) t)
      | .picking =>
        let why : StopReason := d.stop.getD .cancelled
        if s.stopDraws w then
          Replies (.cancel f) .cancel f .ok .none [] s (fun _ => True)
        else if s.path.pick.isSome then
          Replies (.cancel f) .cancel f .accepted .none [.dispenses] s (fun t =>
            t.dispenses = s.dispenses.set w { d with stop := some why })
        else
          s.position.retract.total < Config.retractNotes ∨ s.position.transit.total = 0 →
            Replies (.cancel f) .cancel f .accepted .none [.dispenses, .path] s (StopBegun w why d s)
      | .presenting =>
        (s.path.state = .ready → s.path.draw = none →
          s.position.retract.total < Config.retractNotes ∨ d.presented.total = 0 →
          Replies (.cancel f) .cancel f .accepted .none [.dispenses, .path] s (fun t =>
            t.dispenses = s.dispenses.set w { d with state := .retracting, shutterOpen := false, presentTimer := none } ∧
              t.path =
                { s.path with
                  draw := some ⟨.pocket w, .retract w, d.presented, Quad.zero⟩
                  timers := s.path.timers ++ [⟨.dispense w, .pocket w, false⟩] })) ∧
        (s.path.state = .jammed → s.path.draw = none → OtherAtRest w s →
          Replies (.cancel f) .cancel f .accepted .none [.dispenses, .path, .position, .journal] s (RetractJammed w s)) ∧
        (s.path.state = .purging →
          Replies (.cancel f) .cancel f .accepted .none [.dispenses] s (fun t =>
            t.dispenses =
              s.dispenses.set w { d with state := .retracting, shutterOpen := false, presentTimer := none }))
      | .retracting => Replies (.cancel f) .cancel f .ok .none [] s (fun _ => True)

/-- The delay of a dispense ends: HALTED under DISPENSE_HALT or MODULE_LOCK; with the module owned it is QUEUED with a DELAYED entry behind
those before it and ahead of every CLAIM entry; with the owner NONE its port becomes owner, an empty escrow record of the other window
closes, and its grant is made, deferred while the other window's operation is in flight, failing with its reason, or going on to picking
(R50, R51, R76 to R79, R97). -/
def Obligations.DelayEndGoesOn : Prop :=
  ∀ (w : Teller) (s : State), s.running = true → Quiet s →
    let d := s.dispense w
    d.state = .delaying → d.ending = false → d.deferred = false → delayReached s.clock.count d.delayEnd = true →
    if s.restricted .dispenseHalt = true ∨ s.restricted .moduleLock = true then
      ∀ n : Nat, EndRoom n s →
        Does (.delayEnd w) [.dispenses, .path, .position, .journal] s (DispenseEnded w 7 Quad.zero n s.position s)
    else if s.claim.owner ≠ .none then
      Does (.delayEnd w) [.dispenses, .claim] s (fun t =>
        t.dispenses = s.dispenses.set w { d with state := .queued } ∧
          ∃ before after : List WaitEntry,
            s.claim.waiting = before ++ after ∧ ClaimIs s.claim.owner (before ++ .delayed w :: after) t ∧
              (∀ e ∈ after.head?, e.rank ≠ 0) ∧ ∀ e ∈ before, e.rank = 0)
    else
      Does (.delayEnd w) [.dispenses, .claim, .escrow, .path, .position, .journal] s (fun t =>
        ClaimIs (ownerOf w.port) s.claim.waiting t ∧
          t.escrow =
            { s.escrow with
              isOpen := if s.escrow.stack = [] ∧ w ≠ s.escrow.owner then false else s.escrow.isOpen } ∧
          GrantGoesOn w s t)

/-- The end of a present. The present timer expires: the shutter closes and the pocket is drawn back into the RETRACT BIN, at once in
READY, after the purge in PURGING; in JAMMED the dispense ends JAMMED without a draw, its reservation marked (R62, R86; what the
reservation keeps is the model's reading, notes/assumptions/67.md). The customer empties the pocket: the presented notes go to the TAKEN
flow and their value to the drawer, the remainder to the account that owes it unless the dispense was short, and the dispense ends PAID,
CAPPED or SHORT_PAID. A part whose result would leave its range, or whose account fails its check word, is not applied, and the record and
OP_DONE carry UNBOOKED with the sum of what is not (R9, R35, R44, R85, R90, R91); that nothing to book reads no account is the model's
reading (notes/assumptions/37.md). -/
def Obligations.PresentEndsTakenOrRetracted : Prop :=
  (∀ (w : Teller) (s : State), s.running = true → Quiet s → s.presents w = true →
    let d := s.dispense w
    (s.path.state = .ready → s.path.draw = none →
      s.position.retract.total < Config.retractNotes ∨ d.presented.total = 0 →
      Does (.presentTimerExpiry w) [.dispenses, .path] s (fun t =>
        t.dispenses = s.dispenses.set w { d with state := .retracting, shutterOpen := false, presentTimer := none } ∧
          t.path =
            { s.path with
              draw := some ⟨.pocket w, .retract w, d.presented, Quad.zero⟩
              timers := s.path.timers ++ [⟨.dispense w, .pocket w, false⟩] })) ∧
    (s.path.state = .jammed → s.path.draw = none → OtherAtRest w s →
      Does (.presentTimerExpiry w) [.dispenses, .path, .position, .journal] s (RetractJammed w s)) ∧
    (s.path.state = .purging →
      Does (.presentTimerExpiry w) [.dispenses] s (fun t =>
        t.dispenses = s.dispenses.set w { d with state := .retracting, shutterOpen := false, presentTimer := none }))) ∧
  ∀ (w : Teller) (s : State) (n : Nat), s.running = true → Quiet s → OtherAtRest w s → s.presents w = true →
    EndRoom n s →
    let d := s.dispense w
    let remainder := if d.short.isSome then 0 else d.remainder
    PocketHolds w d.presented s →
    Does (.pocketEmpty w) [.dispenses, .path, .position, .journal] s
      (TakenAndEnded w (if d.short.isSome then 3 else if d.capped then 2 else 1) d.presented remainder n s)

/-! ## The note path (03) -/

/-- A pick of one or two notes: they leave the cassette for TRANSIT, those beyond its count as surplus, its state is derived anew with
CASSETTE_LOW where it enters LOW or EMPTY, its run of empty picks is forgotten, and the notes are on their way to the path sensor
(R5, R58, R60, R62). Where the cassette's check word fails at the booking, the integrity fault is found and picking is to stop with AUDIT
after this pick (R9, R83); that a stop fixed before keeps its reason is the model's choice (notes/assumptions/15.md). -/
def Obligations.PickMovesNotesToTransit : Prop :=
  ∀ (w : Teller) (k d : Ix) (m : Multiplicity) (s : State), s.running = true → Quiet s →
    s.path.pick = some ⟨w, k, d, .commanded⟩ → m ≠ .m0 →
    let c := s.position.cassettes.get k
    let after := { { c with counts := Quad.minus c.counts d m.notes }.rederive with intact := true }
    let position :=
      { s.position with
        cassettes := s.position.cassettes.set k after
        transit := Quad.plus s.position.transit d m.notes
        discrepancy :=
          s.position.discrepancy.set d (s.position.discrepancy.get d - ((m.notes - c.counts.get d : Nat) : Int)) }
    Does (.pickEvent m) [.position, .dispenses, .path] s (fun t =>
      AuditFollows (c.intact = false) position t.position s t ∧
        t.dispenses =
          s.dispenses.set w
            { s.dispense w with
              changed := true, misses := (s.dispense w).misses.set k 0
              stop :=
                if c.intact = false ∧ (s.dispense w).stop = none then some .audit else (s.dispense w).stop } ∧
        t.path =
          { s.path with
            pick := some ⟨w, k, d, .checking m m.notes⟩
            timers := s.path.timers ++ List.replicate m.notes ⟨.dispense w, .picker k, false⟩ } ∧
        (after.mode ≠ .deposit → after.state ≠ c.state → after.state = .low ∨ after.state = .empty →
          Told .s (.cassetteLow k after.state after.total) t))

/-- A pick that gives no note: below three in a row it is counted; the third takes what the record still shows of the denomination as a
shortage and makes the cassette FAULT with its flag set, which port S is told; one from a cassette removed or released is not counted.
The dispense then goes on from the state so reached: the next pick, a re-mix, a short or stopped dispense (R43, R60, R61, R79 to R83).
That an empty pick from a cassette gone meanwhile is not counted is the model's reading (notes/assumptions/39.md). -/
def Obligations.EmptyPicksFailCassette : Prop :=
  ∀ (w : Teller) (k d : Ix) (s : State), s.running = true → Quiet s →
    s.path.pick = some ⟨w, k, d, .commanded⟩ →
    let n := (s.dispense w).misses.get k + 1
    let missed : Dispense := { s.dispense w with misses := (s.dispense w).misses.set k n }
    let c := s.position.cassettes.get k
    let lost : Prop := c.state = .absent ∨ c.state = .released
    let idle : State := { s with path := { s.path with pick := none } }
    let changed : List Block := [.position, .dispenses, .path, .journal]
    (lost → Does (.pickEvent .m0) changed s (PickingGoesOn w idle)) ∧
    (¬lost → n ≠ 3 →
      Does (.pickEvent .m0) changed s (PickingGoesOn w { idle with dispenses := s.dispenses.set w missed })) ∧
    (¬lost → n = 3 → c.intact = true →
      Does (.pickEvent .m0) changed s (fun t =>
        PickingGoesOn w
            { idle with
              dispenses := s.dispenses.set w { missed with changed := true }
              position :=
                { s.position with
                  cassettes :=
                    s.position.cassettes.set k
                      { c with counts := c.counts.set d 0, state := .fault, pickFailed := true }
                  discrepancy := s.position.discrepancy.set d (s.position.discrepancy.get d + c.counts.get d) } }
            t ∧
          (s.position.retract.total < Config.retractNotes → Told .s (.moduleFault (.pickFailure k)) t)))

/-- A note at the path sensor: checked GOOD and alone it goes to the pocket and counts as delivered, otherwise to the REJECT BIN and
counts as diverted (R59). After the pick's last note the dispense goes on from the state so reached: a stop already fixed begins the draw
back, a mix delivered in full is presented, the reject limit stops it short, and otherwise the next pick is commanded, over a re-mix where
its cassette has no notes (R43, R79 to R84). The first of the dispense's notes that has had no check is timed from the path sensor on,
wherever it was last seen (R62; which timer stands for a note is the model's reading, notes/assumptions/61.md). -/
def Obligations.NoteCheckRoutesNote : Prop :=
  ∀ (w : Teller) (k d : Ix) (m : Multiplicity) (left : Nat) (r : NoteCheck) (s : State), s.running = true → Quiet s →
    s.path.pick = some ⟨w, k, d, .checking m left⟩ → 0 < s.position.transit.get d →
    let good : Bool := m == .m1 && r == .good
    let after : Dispense :=
      if good then { s.dispense w with delivered := Quad.plus (s.dispense w).delivered k 1 }
      else { s.dispense w with diverted := (s.dispense w).diverted + 1 }
    let position : Position :=
      if good then
        { s.position with
          transit := Quad.minus s.position.transit d 1
          pockets := s.position.pockets.set w (Quad.plus (s.position.pockets.get w) d 1) }
      else
        { s.position with
          transit := Quad.minus s.position.transit d 1, reject := Quad.plus s.position.reject d 1 }
    let timed (timers : List NoteTimer) : Prop :=
      (∀ (before after : List NoteTimer) (n : NoteTimer), s.path.timers = before ++ n :: after →
        n.owner = .dispense w → n.checked = false → (∀ x ∈ before, x.owner ≠ .dispense w ∨ x.checked = true) →
        timers = before ++ { n with lastSeen := .path, checked := true } :: after) ∧
      ((∀ x ∈ s.path.timers, x.owner ≠ .dispense w ∨ x.checked = true) → timers = s.path.timers)
    (1 < left →
      Does (.noteCheck r) [.position, .dispenses, .path] s (fun t =>
        t.position = position ∧ t.dispenses = s.dispenses.set w after ∧
          timed t.path.timers ∧
          t.path = { s.path with pick := some ⟨w, k, d, .checking m (left - 1)⟩, timers := t.path.timers })) ∧
    (left ≤ 1 →
      Does (.noteCheck r) [.position, .dispenses, .path, .journal] s (fun t =>
        ∃ timers, timed timers ∧
          PickingGoesOn w
            { s with
              position := position, dispenses := s.dispenses.set w after
              path := { s.path with pick := none, timers := timers } }
            t))

/-- The timing of a moving note. A checked note that reaches its pocket or the REJECT BIN in time is timed no more, the first that was last
seen where the report says; one that reaches a sensor on the way is timed from there, and where it was a draw's note leaving its source the
next note is timed from the source; an arrival from a sensor with no note timed from it, as one taken after the expiry, is ignored. One
that is not seen in time is a jam: the transport stops, the module becomes JAMMED, the operation that moved the note ends JAMMED with its
reservation marked, its counts stay where the last booking left them, and port S is told the operation's port and the sensor (R62, R104,
R106). A note whose dispense is over is still timed, and its jam ends the operation the transport then works for, if any, and one whose
dispense presents already ends that (notes/assumptions/89.md). The model's readings: which timer stands for a note
(notes/assumptions/61.md, 79.md), that an expiry without a timer from that sensor does nothing (notes/assumptions/8.md), the generation
step of a commit at its jam (notes/assumptions/28.md), and what a marked reservation keeps for OP_DONE (notes/assumptions/67.md, 69.md). A
purge ends JAMMED with its record, the drawer debit of a commit it closes applied or UNBOOKED (R65, R114). -/
def Obligations.NotesAreTimed : Prop :=
  (∀ s : State, s.running = true → Quiet s →
    (∀ (w : Teller) (before after : List NoteTimer) (x : Sensor), s.path.timers = before ++ ⟨.dispense w, x, true⟩ :: after →
      (∀ n ∈ before, n.owner ≠ .dispense w ∨ n.lastSeen ≠ x ∨ n.checked = false) →
      Does (.noteSensorArrival ⟨x, .pocket w⟩) [.path] s (fun t =>
        t.path = { s.path with timers := before ++ after })) ∧
    (∀ (before after : List NoteTimer) (o : MoveOwner) (x : Sensor), s.path.timers = before ++ ⟨o, x, true⟩ :: after →
      (∀ n ∈ before, n.lastSeen ≠ x ∨ n.checked = false) →
      Does (.noteSensorArrival ⟨x, .rejectBin⟩) [.path] s (fun t => t.path = { s.path with timers := before ++ after })) ∧
    (∀ x y : Sensor, (∀ n ∈ s.path.timers, n.lastSeen ≠ x) → Does (.noteSensorArrival ⟨x, y⟩) [] s (fun _ => True)) ∧
    ∀ (before after : List NoteTimer) (n : NoteTimer) (i : Fin 12), s.path.timers = before ++ n :: after →
      (∀ x ∈ before, x.lastSeen ≠ n.lastSeen) →
      Does (.noteSensorArrival ⟨n.lastSeen, .way i⟩) [.path] s (fun t =>
        ((∀ d : Draw, s.path.draw = some d → n ≠ ⟨d.cause.owner, d.source.sensor, false⟩) →
          t.path = { s.path with timers := before ++ { n with lastSeen := .way i } :: after }) ∧
        ∀ d : Draw, s.path.draw = some d → n = ⟨d.cause.owner, d.source.sensor, false⟩ →
          t.path = { s.path with timers := before ++ { n with lastSeen := .way i } :: after ++ [n] })) ∧
  ∀ (x : Sensor) (s : State), s.running = true → Quiet s →
    ((∀ n ∈ s.path.timers, n.lastSeen ≠ x) → Does (.noteJam x) [] s (fun _ => True)) ∧
    ∀ n : NoteTimer, s.path.timers.find? (fun n => n.lastSeen == x) = some n →
      let jammed : NotePath :=
        { s.path with state := .jammed, pick := none, draw := none, timers := [] }
      let marked (p : Port) (k : OpKind) (t : State) : Prop :=
        ReservationMarked p k (fun r => { r with marks := {}, unpaid := 0 }) s t
      let ends (o : MoveOwner) : Prop :=
       match o with
       | .dispense w =>
        OtherAtRest w s →
        Does (.noteJam x) [.path, .dispenses, .position, .journal] s (fun t =>
          t.path = jammed ∧ DispenseJammed w s.position s t ∧ Told .s (.moduleFault (.jam (some w.port) x)) t)
       | .escrow =>
        OtherAtRest .a s → OtherAtRest .b s →
        match s.escrow.op with
        | none => True
        | some (.insert o) =>
          Does (.noteJam x) [.path, .escrow, .journal] s (fun t =>
            t.path = jammed ∧ marked o.port.port .insert t ∧
              (∀ (b : Bundle) (beneath : List Bundle), s.escrow.stack = b :: beneath →
                t.escrow =
                  { s.escrow with
                    stack := if 0 < b.notes.total then { b with truncated := true } :: beneath else beneath
                    verdict := if 0 < b.notes.total then .none else s.escrow.verdict
                    op := none }) ∧
              Told .s (.moduleFault (.jam (some o.port.port) x)) t)
        | some (.give o) =>
          Does (.noteJam x) [.path, .escrow, .journal] s (fun t =>
            t.path = jammed ∧ marked o.port .return_ t ∧
              t.escrow = { s.escrow with op := none, verdict := .none } ∧
              Told .s (.moduleFault (.jam (some o.port) x)) t)
        | some (.commit o) =>
          Does (.noteJam x) [.path, .escrow, .position, .journal] s (fun t =>
            t.path = jammed ∧ marked o.port .commit t ∧
              t.escrow = { s.escrow with op := none, verdict := if o.reduced then .none else s.escrow.verdict } ∧
              t.position =
                { s.position with
                  generation :=
                    if 0 < s.escrow.tally.perCassette.total then s.position.generation + 1
                    else s.position.generation } ∧
              Told .s (.moduleFault (.jam (some o.port) x)) t)
       | .purge =>
        ∀ (p : Purge) (k : Nat), s.path.purge = some p → PurgeRoom p k s → OtherAtRest .a s → OtherAtRest .b s →
          Does (.noteJam x) [.path, .position, .escrow, .journal] s (fun t =>
            PurgeEnded p 3 .jammed k s.position { s with path := { s.path with pick := none, timers := [] } } t ∧
              Told .s (.moduleFault (.jam (if p.startUp then none else some .s) x)) t)
      (GoesOn n.owner s → ends n.owner) ∧
      (∀ o : MoveOwner, ¬GoesOn n.owner s → Carries o s → (∀ y, Carries y s → y = o) → ends o) ∧
      ∀ w : Teller, n.owner = .dispense w → ¬GoesOn n.owner s → (∀ y, ¬Carries y s) → OtherAtRest .a s → OtherAtRest .b s →
        Does (.noteJam x) [.path] s (fun t =>
          t.path = jammed ∧ Told .s (.moduleFault (.jam (some w.port) x)) t)

/-- A drawn note is booked into the RETRACT BIN: from its source while uncounted notes of its denomination remain, otherwise as a
surplus; an UNREADABLE one under the denomination of smallest value with uncounted notes, else the defined one of smallest value. Its
timing ends and the next note's begins. Where the bin then holds 200 notes the draw stops: the module is JAMMED, port S is told
RETRACT_BIN_FULL, a dispense ends JAMMED with its reservation marked, a purge BIN_FULL with its record, the drawer debit of a commit it
closes applied or UNBOOKED (R35, R62, R64 to R66, R114). The model's readings: a note read while the bin is full already is not booked and
stops the draw (notes/assumptions/13.md), the timers (notes/assumptions/61.md), that a report of a denomination which is not defined
is booked under it (notes/assumptions/102.md), what the marked reservation and the OP_DONE of a closed
operation carry (notes/assumptions/67.md, 69.md), and that the sensor RETRACT_BIN_FULL names is that of the draw's source
(notes/assumptions/93.md). -/
def Obligations.DrawnNoteIsBooked : Prop :=
  ∀ (report : Option Ix) (d : Draw) (s : State), s.running = true → Quiet s → s.path.draw = some d →
    let stopped (w : Teller) (p : Position) (t : State) : Prop :=
      DispenseJammed w p s t ∧
        t.path =
          { s.path with
            state := .jammed, pick := none, draw := none
            timers := [] } ∧
        Told .s (.moduleFault (.retractBinFull (some w.port) d.source.sensor)) t
    let purged (q : Purge) (n : Nat) (p : Position) (t : State) : Prop :=
      PurgeEnded q 4 .jammed n p { s with path := { s.path with pick := none, timers := [] } } t ∧
        Told .s (.moduleFault (.retractBinFull (if q.startUp then none else some .s) d.source.sensor)) t
    (∀ x : Ix, s.position.retract.total < 200 →
      (report = some x ∨
        (report = none ∧ 0 < d.uncounted.get x ∧
          ∀ y, 0 < d.uncounted.get y → y ≠ x →
            s.settings.denominations.get x < s.settings.denominations.get y ∨
              (s.settings.denominations.get x = s.settings.denominations.get y ∧ x.number < y.number)) ∨
        (report = none ∧ (∀ y, d.uncounted.get y = 0) ∧ s.settings.denominations.get x ≠ 0 ∧
          ∀ y, s.settings.denominations.get y ≠ 0 → y ≠ x →
            s.settings.denominations.get x < s.settings.denominations.get y ∨
              (s.settings.denominations.get x = s.settings.denominations.get y ∧ x.number < y.number))) →
      let surplus : Position :=
        { s.position with
          retract := Quad.plus s.position.retract x 1
          discrepancy := s.position.discrepancy.set x (s.position.discrepancy.get x - 1) }
      let booked (p : Position) (after : Draw) : Prop :=
        (s.position.retract.total + 1 < 200 →
          Does (.retractNoteCounted report) [.position, .path] s (fun t =>
            t.position = p ∧ DrawTimed d s.path.timers t.path.timers ∧
              t.path =
                { s.path with
                  draw := some after
                  timers := t.path.timers
                  purge :=
                    match d.cause, s.path.purge with
                    | .purge, some q => some { q with booked := Quad.plus q.booked x 1 }
                    | _, other => other })) ∧
        (∀ w : Teller, s.position.retract.total + 1 = 200 → d.cause.owner = .dispense w → OtherAtRest w s →
          Does (.retractNoteCounted report) [.position, .path, .dispenses, .journal] s (stopped w p)) ∧
        ∀ (q : Purge) (n : Nat), s.position.retract.total + 1 = 200 → d.cause = .purge → s.path.purge = some q →
          PurgeRoom q n s → OtherAtRest .a s → OtherAtRest .b s →
          Does (.retractNoteCounted report) [.position, .path, .escrow, .journal] s
            (purged { q with booked := Quad.plus q.booked x 1 } n p)
      if 0 < d.uncounted.get x then
        let counted : Draw :=
          { d with uncounted := Quad.minus d.uncounted x 1, retracted := Quad.plus d.retracted x 1 }
        match d.source with
        | .transit =>
          0 < s.position.transit.get x →
            booked
              { s.position with
                transit := Quad.minus s.position.transit x 1, retract := Quad.plus s.position.retract x 1 }
              counted
        | .pocket v =>
          0 < (s.position.pockets.get v).get x →
            booked
              { s.position with
                pockets := s.position.pockets.set v (Quad.minus (s.position.pockets.get v) x 1)
                retract := Quad.plus s.position.retract x 1 }
              counted
        | .drum => booked surplus counted
      else booked surplus d) ∧
    (∀ w : Teller, 200 ≤ s.position.retract.total → d.cause.owner = .dispense w → OtherAtRest w s →
      Does (.retractNoteCounted report) [.path, .dispenses, .position, .journal] s (stopped w s.position)) ∧
    ∀ (q : Purge) (n : Nat), 200 ≤ s.position.retract.total → d.cause = .purge → s.path.purge = some q → PurgeRoom q n s →
      OtherAtRest .a s → OtherAtRest .b s →
      Does (.retractNoteCounted report) [.position, .path, .escrow, .journal] s (purged q n s.position)

/-- The source of a draw is empty. A retract ends RETRACTED: the notes not drawn were taken, with the remainder only where none came back;
what cannot be booked is UNBOOKED (R35). A stop goes on from TRANSIT to the pocket and ends with its reason's outcome, what is left being a
shortage. In a purge what is left becomes a shortage with RECONCILE_DUE_JAM, told to ports A, B and S; it goes on to the next source to be
drawn, or ends COMPLETE or SHORT with its record, the operations it closes and the drawer debit of a commit among them, applied or
UNBOOKED, and the module is READY (R35, R62, R65, R83, R87, R92, R114, R199). The model's readings: that nothing to book reads no account
(notes/assumptions/37.md), what OP_DONE carries (notes/assumptions/67.md, 69.md), and the mark alone in the PURGE record
(notes/assumptions/70.md). -/
def Obligations.EmptySourceEndsDraw : Prop :=
  ∀ (d : Draw) (s : State), s.running = true → Quiet s → s.path.draw = some d →
    let drawn : State := { s with path := { s.path with draw := none } }
    (∀ (w : Teller) (n : Nat), d.cause = .retract w → OtherAtRest w s → EndRoom n s →
      let remainder := if (s.dispense w).short.isNone ∧ d.retracted.total = 0 then (s.dispense w).remainder else 0
      PocketHolds w d.uncounted s →
      Does .drawSourceEmpty [.dispenses, .path, .position, .journal] s (TakenAndEnded w 4 d.uncounted remainder n drawn)) ∧
    (∀ (w : Teller) (why : StopReason), d.cause = .stop w why → d.source = .transit →
      s.position.retract.total < Config.retractNotes ∨ (s.position.pockets.get w).total = 0 →
      Does .drawSourceEmpty [.position, .path] s (fun t =>
        t.position = s.position.shortage .transit ∧
          t.path =
            { s.path with
              draw := some ⟨.pocket w, .stop w why, s.position.pockets.get w, Quad.zero⟩
              timers :=
                s.path.timersBut (.dispense w) ++ [⟨.dispense w, .pocket w, false⟩] })) ∧
    (∀ (w v : Teller) (why : StopReason) (n : Nat), d.cause = .stop w why → d.source = .pocket v → OtherAtRest w s →
      EndRoom n s →
      Does .drawSourceEmpty [.dispenses, .path, .position, .journal] s
        (DispenseEnded w (match why with | .locked => 7 | .cancelled => 6 | .audit => 8) Quad.zero n
          (s.position.shortage (.pocket v)) drawn)) ∧
    ∀ p : Purge, d.cause = .purge → s.path.purge = some p →
      let left : Bool := 0 < d.uncounted.total
      let short : Bool := p.short || left
      let causes : Causes := if left then { s.position.causes with reconcileDueJam := true } else s.position.causes
      let after : Position :=
        if left then
          match d.source with
          | .transit => { s.position.shortage .transit with causes := causes }
          | .pocket v => { s.position.shortage (.pocket v) with causes := causes }
          | .drum => { s.position with causes := causes }
        else s.position
      let told (t : State) : Prop :=
        left = true → s.auditRequired = false → ∀ q : Port, q ≠ .m → Told q (.restriction s.alarm.restriction causes) t
      let skipped (x : DrawSource) : Prop :=
        ∃ v : Teller, x = .pocket v ∧
          ((s.position.pockets.get v).total = 0 ∨ (s.dispense v).state = .presenting ∨
            (s.dispense v).state = .retracting)
      (∀ (before rest : List DrawSource) (x : DrawSource), p.rest = before ++ x :: rest → (∀ y ∈ before, skipped y) →
        ¬skipped x → x ≠ d.source →
        let notes : Quad Nat :=
          match x with
          | .transit => s.position.transit
          | .pocket v => s.position.pockets.get v
          | .drum => Quad.zero
        s.position.retract.total < Config.retractNotes ∨ notes.total = 0 →
        Does .drawSourceEmpty [.path, .position] s (fun t =>
          t.position = after ∧ told t ∧
            t.path =
              { s.path with
                draw := some ⟨x, .purge, notes, Quad.zero⟩
                purge := some { p with rest := rest, short := short }
                timers := s.path.timersBut .purge ++ [⟨.purge, x.sensor, false⟩] })) ∧
      ∀ n : Nat, (∀ y ∈ p.rest, skipped y) → PurgeRoom p n s → OtherAtRest .a s → OtherAtRest .b s →
        Does .drawSourceEmpty [.path, .position, .escrow, .journal] s (fun t =>
          PurgeEnded p (if short then 2 else 1) .ready n after s t ∧ told t ∧
            Told .s (.moduleFault (.ready (if short then .short else .complete))) t)

/-- JAM_CLEAR with target MODULE starts a purge from TRANSIT where the module is JAMMED, and is refused NO_OPERATION in READY and BUSY in
PURGING; with target SLOT it starts a clear run where the slot is JAMMED, and is refused BUSY during one and NO_OPERATION
otherwise (R57, R63, R65, R131). -/
def Obligations.JamClearStartsClearing : Prop :=
  ∀ (f : Frame) (s : State), Taken .jamClear f s →
    (byteField f.operands 0 = 1 →
      match s.path.state with
      | .jammed =>
        (s.position.retractFull = false ∨ s.position.transit.total = 0) →
          Replies (.jamClearModule f) .jamClear f .accepted .none [.path] s (fun t =>
            t.path =
              { s.path with
                state := .purging, pick := none
                draw := some ⟨.transit, .purge, s.position.transit, Quad.zero⟩
                purge := some ⟨false, [.pocket .a, .pocket .b], Quad.zero, false, none⟩
                timers := s.path.timers ++ [⟨.purge, .transit, false⟩] })
      | .ready => Refuses (.jamClearModule f) .jamClear f .noOperation .none s
      | .purging => Refuses (.jamClearModule f) .jamClear f .busy .none s) ∧
    (byteField f.operands 0 = 2 →
      if s.depository.clearing.isSome then Refuses (.jamClearSlot f) .jamClear f .busy .none s
      else if s.depository.slot = .jammed then
        Replies (.jamClearSlot f) .jamClear f .accepted .none [.depository] s
          (DepositoryIs
            { s.depository with
              slot := .drop, clearing := some .byRequest, clearTimer := true, dropTimer := false })
      else Refuses (.jamClearSlot f) .jamClear f .noOperation .none s) ∧
    (byteField f.operands 0 ≠ 1 → byteField f.operands 0 ≠ 2 →
      Refuses (.jamClearModule f) .jamClear f .range .none s)

/-! ## Custody (01) -/

/-- POST: the checks of R14 in order, and where all pass the account's new balance and coin due with the POSTING record (R13 to R16). A
refused POST changes nothing but the approval it consumed and, where the account fails its check word and it is refused AUDIT, the
integrity fault record and the audit causes (R9). That a kind byte which names none is refused RANGE, and at that point, is the model's
reading of R202 (notes/assumptions/41.md). -/
def Obligations.PostBooksAccount : Prop :=
  ∀ (f : Frame) (s : State), Taken .post f s →
    let a : AccountId := match f.port with | .a => .drawerA | .b => .drawerB | .s => .branchCash | .m => .branchCash
    let r := s.position.account a
    let refused (why : Reason) (results : Results) : Prop :=
      ∃ t : State, exec (.post f) s = .next t ∧ Answers .post f .refused (some why) results s t ∧
        KeptBut [.ports] s t ∧ ApprovalUsed .post f s t
    let posts (code : Nat) (amount balance : Int) (coinDue : Nat) : Prop :=
      (∀ why : Reason, s.journal.roomCheck 1 1 = some why → refused why s.journal.roomFigures) ∧
        ∀ n : Nat, RoomFor 1 1 s → s.journal.next = some n →
          Replies (.post f) .post f .ok (.posted (some n) balance coinDue) [.position, .journal, .ports] s (fun t =>
            ApprovalUsed .post f s t ∧
              t.position = { s.position.setAccount a ⟨balance, coinDue, true⟩ with lastApplied := n } ∧
              Recorded n
                (fun x => x.kind = .posting ∧ x.port = some f.port ∧ x.outcome = code ∧ x.amount = recordAmount amount)
                s t)
    if s.auditRequired = true then refused .audit .none
    else
      match readU4 (field f.operands 1 4), expectedBalance f.operands with
      | .error position, _ => refused .badDigit (.badDigit 1 position)
      | .ok _, .error position => refused .badDigit (.badDigit 2 position)
      | .ok x, .ok expected =>
        if x = 0 then refused .zeroAmount .none
        else
          if r.intact = false then
            ∃ t : State, exec (.post f) s = .next t ∧ Answers .post f .refused (some .audit) .none s t ∧
              KeptBut [.position, .ports] s t ∧ ApprovalUsed .post f s t ∧ IntegrityFound s t
          else
            if f.port ≠ .s ∧ s.settings.postingLimit < x ∧ Approved .post f s = false then refused .approval .none
            else if expected.getD r.balance ≠ r.balance then refused .mismatch (.balances r.balance r.coinDue)
            else
              match byteField f.operands 0 with
              | 1 => if 999999999 < r.balance + x then refused .range .none else posts 1 x (r.balance + x) r.coinDue
              | 2 =>
                if r.balance - x < -999999999 then refused .range .none else posts 2 (-x) (r.balance - x) r.coinDue
              | 3 =>
                if r.coinDue < x ∨ r.balance - x < -999999999 then refused .range .none
                else posts 3 (-x) (r.balance - x) (r.coinDue - x)
              | _ => refused .range .none

/-- HANDOVER: the checks of R17 in order, and its three options. EXCHANGE swaps balance and coin due, MOVE_ALL and MOVE_AMOUNT keep the
sum of the two balances, and every option keeps the sum of the coins due (R17). Where one of the two accounts fails its check word it is
refused AUDIT (R9). The model's readings: account and option bytes that name none are refused RANGE, the accounts before the audit check
and the option after the comparison of the accounts (R202; notes/assumptions/41.md), and the record's port is none
(R159; notes/assumptions/35.md). -/
def Obligations.HandoverMovesBalances : Prop :=
  ∀ (f : Frame) (s : State), Taken .handover f s →
   (accountOf (byteField f.operands 0) = none ∨ accountOf (byteField f.operands 1) = none →
    Refuses (.handover f) .handover f .range .none s) ∧
   ∀ src dst : AccountId, accountOf (byteField f.operands 0) = some src → accountOf (byteField f.operands 1) = some dst →
    let from_ := s.position.account src
    let to_ := s.position.account dst
    let fine := from_.intact && to_.intact
    let fails : Prop :=
      ∃ t : State, exec (.handover f) s = .next t ∧ Answers .handover f .refused (some .audit) .none s t ∧
        KeptBut [.position] s t ∧ IntegrityFound s t
    let moves (code : Nat) (amount : Int) (x y : Account) : Prop :=
      (∀ why : Reason, s.journal.roomCheck 1 1 = some why →
        Refuses (.handover f) .handover f why s.journal.roomFigures s) ∧
      ∀ n : Nat, RoomFor 1 1 s → s.journal.next = some n →
        Replies (.handover f) .handover f .ok (.handedOver x.balance x.coinDue y.balance y.coinDue) [.position, .journal] s
          (fun t =>
            t.position = { (s.position.setAccount src x).setAccount dst y with lastApplied := n } ∧
              Recorded n
                (fun r =>
                  r.kind = .handover ∧ r.port = none ∧ r.outcome = code ∧ r.amount = recordAmount amount ∧
                    r.extra = accountCode (some src) * 256 + accountCode (some dst))
                s t)
    if s.auditRequired = true then Refuses (.handover f) .handover f .audit .none s
    else if src = dst then Refuses (.handover f) .handover f .range .none s
    else
      (byteField f.operands 2 = 1 →
        if fine = false then fails
        else moves 1 0 ⟨to_.balance, to_.coinDue, true⟩ ⟨from_.balance, from_.coinDue, true⟩) ∧
      (byteField f.operands 2 = 2 →
        if fine = false then fails
        else if balanceInRange (to_.balance + from_.balance) = true ∧ to_.coinDue + from_.coinDue ≤ 999999 then
          moves 2 from_.balance ⟨0, 0, true⟩ ⟨to_.balance + from_.balance, to_.coinDue + from_.coinDue, true⟩
        else Refuses (.handover f) .handover f .range .none s) ∧
      (byteField f.operands 2 = 3 →
        match readU4 (field f.operands 3 4) with
        | .error position => Refuses (.handover f) .handover f .badDigit (.badDigit 1 position) s
        | .ok x =>
          if x = 0 then Refuses (.handover f) .handover f .zeroAmount .none s
          else if fine = false then fails
          else if balanceInRange (from_.balance - x) = true ∧ balanceInRange (to_.balance + x) = true then
            moves 3 x ⟨from_.balance - x, from_.coinDue, true⟩ ⟨to_.balance + x, to_.coinDue, true⟩
          else Refuses (.handover f) .handover f .range .none s) ∧
      (¬(1 ≤ byteField f.operands 2 ∧ byteField f.operands 2 ≤ 3) →
        Refuses (.handover f) .handover f .range .none s)

/-- LOAD of an UNCOUNTED cassette books the counts given; UNLOAD of a cassette releases it; UNLOAD of a bin books it out to UNLOADED, of
the compartment to its own count; with the checks of R18, R19 and R21 in order; a cassette number or a place that names none is refused
RANGE (R18, R202). The model's readings: an operation of another port refuses BUSY after the ownership test (notes/assumptions/38.md); a
cassette whose check word fails is left out, since it is refused AUDIT (notes/assumptions/22.md); and a DEPOSIT cassette takes a count of a
denomination that is not defined (notes/assumptions/104.md). -/
def Obligations.LoadAndUnloadBookNotes : Prop :=
  (∀ (f : Frame) (s : State), Taken .load f s → ¬(1 ≤ byteField f.operands 0 ∧ byteField f.operands 0 ≤ 4) →
    Refuses (.load f) .load f .range .none s) ∧
  (∀ (f : Frame) (s : State), Taken .unload f s → ¬(1 ≤ byteField f.operands 0 ∧ byteField f.operands 0 ≤ 7) →
    Refuses (.unload f) .unload f .range .none s ∧ Refuses (.unloadBin f) .unload f .range .none s) ∧
  (∀ (f : Frame) (s : State) (k : Ix), Taken .load f s → ixOf (byteField f.operands 0) = some k →
    (s.position.cassettes.get k).intact = true →
    let c := s.position.cassettes.get k
    let counts := countsField f.operands 1
    let after := { c with counts := counts, pickFailed := false }
    if s.claim.owner.ownedBy .s = false then Refuses (.load f) .load f .notClaimed .none s
    else if s.otherOpInFlight .s = true then Refuses (.load f) .load f .busy .none s
    else if c.state ≠ .uncounted then Refuses (.load f) .load f .inUse .none s
    else if c.mode ≠ .deposit ∧
        Ix.all.any (fun d => counts.get d != 0 && (c.index != some d || s.settings.denominations.get d == 0)) = true then
      Refuses (.load f) .load f .range .none s
    else if c.capacity < counts.total ∨ s.position.marginsExceeded = true then Refuses (.load f) .load f .range .none s
    else
      (∀ why : Reason, s.journal.roomCheck 1 1 = some why → Refuses (.load f) .load f why s.journal.roomFigures s) ∧
      ∀ n : Nat, RoomFor 1 1 s → s.journal.next = some n →
        Replies (.load f) .load f .ok .none [.position, .journal] s (fun t =>
          t.position =
              { s.position with
                cassettes := s.position.cassettes.set k { after with state := after.derivedState }
                flows := { s.position.flows with loaded := Quad.add s.position.flows.loaded counts }
                generation := s.position.generation + 1
                lastApplied := n } ∧
            Recorded n
              (fun r =>
                r.kind = .load ∧ r.counts = counts.toInt ∧ r.amount = recordAmount (s.value counts) ∧
                  r.extra = k.number)
              s t)) ∧
  (∀ (f : Frame) (s : State) (k : Ix), Taken .unload f s → byteField f.operands 0 = k.number →
    (s.position.cassettes.get k).intact = true →
    let c := s.position.cassettes.get k
    if s.claim.owner.ownedBy .s = false then Refuses (.unload f) .unload f .notClaimed .none s
    else if s.otherOpInFlight .s = true ∨ s.anyOpInFlight = true then Refuses (.unload f) .unload f .busy .none s
    else if c.state = .absent then Refuses (.unload f) .unload f .inUse .none s
    else if c.state = .released then Replies (.unload f) .unload f .ok .none [] s (fun _ => True)
    else
      Replies (.unload f) .unload f .ok .none [.position] s (fun t =>
        t.position =
          { s.position with
            cassettes := s.position.cassettes.set k { c with state := .released }
            generation := s.position.generation + 1 })) ∧
  ∀ (f : Frame) (s : State) (x : UnloadPlace), Taken .unload f s → unloadPlaceOf (byteField f.operands 0) = some x →
    (∀ k : Ix, x ≠ .cassette k) →
    let counts : Quad Nat :=
      match x with
      | .reject => s.position.reject
      | .retract => s.position.retract
      | .suspect => ⟨s.position.suspect, 0, 0, 0⟩
      | .cassette _ => Quad.zero
    let unloaded := { s.position.flows with unloaded := Quad.add s.position.flows.unloaded counts }
    let position : Position :=
      match x with
      | .reject => { s.position with reject := Quad.zero, flows := unloaded }
      | .retract => { s.position with retract := Quad.zero, flows := unloaded }
      | .suspect => { s.position with suspect := 0, suspectOut := s.position.suspectOut + s.position.suspect }
      | .cassette _ => s.position
    if s.claim.owner.ownedBy .s = false then Refuses (.unloadBin f) .unload f .notClaimed .none s
    else if s.otherOpInFlight .s = true ∨ s.anyOpInFlight = true then Refuses (.unloadBin f) .unload f .busy .none s
    else if s.position.marginsExceeded = true then Refuses (.unloadBin f) .unload f .range .none s
    else
      (∀ why : Reason, s.journal.roomCheck 1 1 = some why →
        Refuses (.unloadBin f) .unload f why s.journal.roomFigures s) ∧
      ∀ n : Nat, RoomFor 1 1 s → s.journal.next = some n →
        Replies (.unloadBin f) .unload f .ok .none [.position, .journal] s (fun t =>
          t.position = { position with generation := s.position.generation + 1, lastApplied := n } ∧
            Recorded n
              (fun r =>
                r.kind = .unload ∧ r.counts = counts.toInt ∧ r.extra = placeCode x ∧
                  r.amount = if x = .suspect then 0 else recordAmount (s.value counts))
              s t)

/-- RECONCILE: the checks of R24 in order, and where all pass the six steps of R25. The places hold what was counted, the records carry
each place's differences, and last the total (R203), the reply carries that total, the discrepancy with the
differences added, a new period opens with OPENING the notes of the places, every check word is rewritten, and the audit causes are gone,
which ports A, B and S are told. The model's readings: an operation of another port refuses BUSY after the ownership test
(notes/assumptions/38.md); from check 5 on the cassette records are verified as they are read, and a word that fails is recorded but
refuses nothing (R9; notes/assumptions/22.md); the compartment's one difference stands in the first count field, with amount 0.00
and the place records stand in the order in which R25 names the places (notes/assumptions/80.md); the records' port is none
(R159; notes/assumptions/35.md), and their outcome 1 (notes/assumptions/97.md); and a DEPOSIT cassette or a bin is taken as counted though
the count is of a denomination that is not defined (notes/assumptions/104.md). -/
def Obligations.ReconcileOpensPeriod : Prop :=
  ∀ (f : Frame) (s : State), Taken .reconcile f s →
    let c := countedOf f.operands
    let k := (Ix.all.filter s.recorded).length + 4
    let refuses (why : Reason) (results : Results) : Prop :=
      (WordsMatch s → Refuses (.reconcile f) .reconcile f why results s) ∧
        (¬WordsMatch s →
          ∃ t : State, exec (.reconcile f) s = .next t ∧ Answers .reconcile f .refused (some why) results s t ∧
            KeptBut [.position] s t ∧ IntegrityFound s t)
    if s.claim.owner.ownedBy .s = false then Refuses (.reconcile f) .reconcile f .notClaimed .none s
    else if s.otherOpInFlight .s = true then Refuses (.reconcile f) .reconcile f .busy .none s
    else if s.escrow.stack ≠ [] then Refuses (.reconcile f) .reconcile f .escrowNotEmpty .none s
    else if s.anyOpInFlight = true ∨ (s.dispense .a).state ≠ .idle ∨ (s.dispense .b).state ≠ .idle then
      Refuses (.reconcile f) .reconcile f .busy .none s
    else if s.path.state = .jammed then Refuses (.reconcile f) .reconcile f .jammed .none s
    else if s.itemsComplete c = false then refuses .length .none
    else if s.countedInRange c = false then refuses .range .none
    else
      (∀ why : Reason, s.journal.roomCheck k k = some why → refuses why s.journal.roomFigures) ∧
      ∀ n : Nat, RoomFor k k s → s.journal.next = some n →
        let counted (j : Ix) : Cassette :=
          let r := s.position.cassettes.get j
          let r := { r with counts := if s.recorded j then c.vector j else r.counts, intact := true }
          if r.state = .uncounted then { r with state := r.derivedState } else r.rederive
        let total : Quad Int :=
          Quad.of (fun d =>
            s.position.discrepancy.get d +
              (Ix.all.map (fun j =>
                if s.recorded j then
                  ((s.position.cassettes.get j).counts.get d : Int) - (c.vector j).get d
                else 0)).sum +
              ((s.position.reject.get d : Int) - c.reject.get d) +
              ((s.position.retract.get d : Int) - c.retract.get d))
        let place (code : Nat) (counts : Quad Int) : Nat × Quad Int × Int :=
          (code, counts, recordAmount (valueOfInt s.settings.denominations counts))
        Replies (.reconcile f) .reconcile f .ok (.reconciled (some (n + k - 1)) total) [.position, .journal] s (fun t =>
          t.position =
              { s.position with
                cassettes := Quad.of counted
                reject := c.reject
                retract := c.retract
                suspect := c.suspect
                suspectIn := 0
                suspectOut := 0
                discrepancy := Quad.all 0
                flows :=
                  { Flows.zero with
                    opening :=
                      Quad.of (fun d =>
                        (Ix.all.map (fun j => (counted j).counts.get d)).sum + s.position.transit.get d +
                          s.position.pockets.a.get d + s.position.pockets.b.get d + c.reject.get d + c.retract.get d) }
                drawerA := { s.position.drawerA with intact := true }
                drawerB := { s.position.drawerB with intact := true }
                branchCash := { s.position.branchCash with intact := true }
                causes := Causes.empty
                integrityFault := none
                generation := s.position.generation + 1
                lastApplied := n + k - 1 } ∧
            (∃ records : List Record,
              t.journal.staging = s.journal.staging ++ records ∧ records.length = k ∧
                (∀ r ∈ records,
                  r.kind = .reconcile ∧ r.port = none ∧ r.outcome = 1 ∧ r.time = s.clock.count ∧
                    r.marks.clockInvalid = s.clock.invalid) ∧
                records.map (fun r => (r.extra, r.counts, r.amount)) =
                  (Ix.all.filter s.recorded).map
                      (fun j => place j.number (differences (s.position.cassettes.get j).counts (c.vector j))) ++
                    [place 5 (differences s.position.reject c.reject), place 6 (differences s.position.retract c.retract),
                      (7, ⟨(s.position.suspect : Int) - c.suspect, 0, 0, 0⟩, 0), place 0 total] ∧
                records.map (fun r => r.sequence) = (List.range k).map (fun i => n + i)) ∧
            ∀ p : Port, p ≠ .m → Told p (.restriction s.alarm.restriction Causes.empty) t)

/-- The cassette sensors. A RELEASED cassette that is removed is booked to UNLOADED, with its record; one removed without release to
DISCREPANCY, with the audit cause, its REMOVAL record (lost and counted where there is no room) and zone 3 raised momentarily, from the
state x that the booking has left; a commit on its way to the cassette has lost its destination; one inserted is UNCOUNTED with no notes.
Where zone 3 brings MODULE_LOCK into the set and that stops something, ModuleLockTakesClaim says what. A sensor that reports what it shows
already changes nothing (R20, R22, R23, R112, R142, R163; notes/assumptions/8.md). That the REMOVAL record's outcome is 1 is the model's
choice (notes/assumptions/97.md). That ALARM_CHANGE lists the zones by ascending number is the model's choice (notes/assumptions/108.md).
-/
def Obligations.CassetteSensorsBookNotes : Prop :=
  ∀ (k : Ix) (s : State), s.running = true → Quiet s → (s.position.cassettes.get k).intact = true →
    let c := s.position.cassettes.get k
    let gone := { c with counts := Quad.zero, state := .absent, pickFailed := false }
    let pins : Pins := { s.pins with cassettePresent := s.pins.cassettePresent.set k false }
    let escrow : Escrow :=
      { s.escrow with
        op :=
          match s.escrow.op with
          | some (.commit o) => some (.commit { o with lost := o.lost || o.chosen == some k })
          | other => other }
    (s.pins.cassettePresent.get k = false → Does (.cassetteRemoval k) [] s (fun _ => True)) ∧
    (s.pins.cassettePresent.get k = true → Does (.cassetteInsertion k) [] s (fun _ => True)) ∧
    (∀ n : Nat, s.pins.cassettePresent.get k = true → c.state = .released → s.journal.eventRoom = true →
      s.journal.next = some n →
      Does (.cassetteRemoval k) [.pins, .position, .journal, .escrow] s (fun t =>
        t.pins = pins ∧ t.escrow = escrow ∧
          t.position =
            { s.position with
              cassettes := s.position.cassettes.set k gone
              flows := { s.position.flows with unloaded := Quad.add s.position.flows.unloaded c.counts }
              generation := s.position.generation + 1
              lastApplied := n } ∧
          Recorded n
            (fun r =>
              r.kind = .unload ∧ r.port = none ∧ r.counts = c.counts.toInt ∧
                r.amount = recordAmount (s.value c.counts) ∧ r.extra = k.number)
            s t)) ∧
    (s.pins.cassettePresent.get k = true → c.state ≠ .released → c.state ≠ .absent → AlarmDerived s →
      let r := s.zone 3
      let raised : Zone :=
        if s.alarm.eligible 3 then r.activated s.alarm.armed s.settings.entryDelay s.clock.count none else r
      let entered : Bool := raised.state == .pendingActive && r.state != .pendingActive
      let causes : Causes := { s.position.causes with unauthorisedRemoval := true }
      (r.inputActive = false → LockStopsNothing (s.alarm.setZone 3 raised.restored).latchedEffects s) →
      Does (.cassetteRemoval k) [.pins, .position, .escrow, .journal, .alarm, .dispenses, .depository] s (fun t =>
        ∃ j : Journal,
          let x : State :=
            { s with
              pins := pins
              escrow := escrow
              journal := j
              position :=
                { s.position with
                  cassettes := s.position.cassettes.set k gone
                  discrepancy := Quad.zip (fun (a : Int) (n : Nat) => a + n) s.position.discrepancy c.counts
                  causes := causes
                  generation := s.position.generation + 1
                  lastApplied :=
                    if s.journal.eventRoom then s.journal.next.getD s.position.lastApplied
                    else s.position.lastApplied } }
          EventWritten
              (fun y =>
                y.kind = .removal ∧ y.port = none ∧ y.outcome = 1 ∧ y.counts = c.counts.toInt ∧
                  y.amount = recordAmount (s.value c.counts) ∧ y.extra = k.number)
              s x ∧
            t.pins = pins ∧ t.position = x.position ∧ t.escrow = escrow ∧
            (s.auditRequired = false → ∀ p : Port, p ≠ .m → Told p (.restriction t.alarm.restriction causes) t) ∧
            (if r.inputActive then
              AlarmIs s.alarm t ∧ t.journal = j ∧ t.dispenses = s.dispenses ∧ DepositoryIs s.depository t
            else ZoneMoved 3 raised.restored entered (entered && r.state == .quiet) false none x t))) ∧
    (s.pins.cassettePresent.get k = false → c.state = .absent →
      Does (.cassetteInsertion k) [.pins, .position] s (fun t =>
        t.pins = { s.pins with cassettePresent := s.pins.cassettePresent.set k true } ∧
          t.position =
            { s.position with
              cassettes := s.position.cassettes.set k { gone with state := .uncounted } }))

/-! ## The escrow (05) -/

/-- DEPOSIT_OPEN opens the record of the window that owns the module with an empty stack, DEPOSIT_CLOSE closes it, COMPARE sets the verdict
by the declared amount and the value in the stack; each by its checks in order (R96, R98, R99, R110). -/
def Obligations.EscrowRecordRequests : Prop :=
  (∀ (w : Teller) (f : Frame) (s : State), f.port = w.port → Taken .depositOpen f s →
    match s.ownRefusal f.port with
    | some why => Refuses (.depositOpen f) .depositOpen f why .none s
    | none =>
      if s.escrow.stack ≠ [] then Refuses (.depositOpen f) .depositOpen f .escrowNotEmpty .none s
      else
        let opens (p : Purpose) (declared : Option Nat) : Prop :=
          Replies (.depositOpen f) .depositOpen f .ok (.escrowRecord w p declared .none) [.escrow] s (fun t =>
            t.escrow =
              { s.escrow with isOpen := true, owner := w, purpose := p, declared := declared, verdict := .none })
        let withAmount (p : Purpose) : Prop :=
          if f.operands.length = 5 then
            match readU4 (field f.operands 1 4) with
            | .error position => Refuses (.depositOpen f) .depositOpen f .badDigit (.badDigit 1 position) s
            | .ok x => opens p (some x)
          else opens p none
        match byteField f.operands 0 with
        | 1 => withAmount .customer
        | 2 => withAmount .drawer
        | _ => Refuses (.depositOpen f) .depositOpen f .range .none s) ∧
  (∀ (f : Frame) (s : State), Taken .depositClose f s →
    match s.openRefusal f.port with
    | some why => Refuses (.depositClose f) .depositClose f why .none s
    | none =>
      if s.escrow.stack ≠ [] then Refuses (.depositClose f) .depositClose f .escrowNotEmpty .none s
      else
        Replies (.depositClose f) .depositClose f .ok .none [.escrow] s (fun t =>
          t.escrow = { s.escrow with isOpen := false })) ∧
  ∀ (f : Frame) (s : State), Taken .compareEscrow f s →
    match s.openRefusal f.port with
    | some why => Refuses (.compareEscrow f) .compareEscrow f why .none s
    | none =>
      if s.escrow.stack = [] then Refuses (.compareEscrow f) .compareEscrow f .escrowEmpty .none s
      else
        let total := s.value (stackNotes s.escrow.stack)
        let compares (declared : Nat) : Prop :=
          let verdict : Verdict :=
            if s.escrow.stack.any (fun b => b.suspect != 0) then .unordered
            else if total = declared then .match_
            else if total < declared then .short
            else .over
          Replies (.compareEscrow f) .compareEscrow f .ok
            (.compared verdict total declared (if total ≤ declared then declared - total else total - declared)) [.escrow] s
            (fun t => t.escrow = { s.escrow with declared := some declared, verdict := verdict })
        if f.operands.length = 4 then
          match readU4 (field f.operands 0 4) with
          | .error position => Refuses (.compareEscrow f) .compareEscrow f .badDigit (.badDigit 1 position) s
          | .ok x => compares x
        else
          match s.escrow.declared with
          | some x => compares x
          | none => Refuses (.compareEscrow f) .compareEscrow f .range .none s

/-- INSERT, RETURN_LAST, RETURN_ALL and COMMIT: their checks in order, and where all pass the reservation and the operation begun (R57,
R100, R107, R108, R111). A COMMIT whose drawer's check word fails is refused AUDIT (R9); accepted, it begins with the destination of its
first note, and with none it ends COMMIT_PARTIAL at once, cause NO_DESTINATION, its record written with nothing moved (R113, R114; the
number of a cause is the model's, notes/assumptions/74.md). The model's choices are that the moment of acceptance decides whether a RETURN
record names the owner port of a deposit under HOLD (notes/assumptions/73.md), and that an INSERT accepted counts its consecutive misses
from 0 (notes/assumptions/90.md). -/
def Obligations.EscrowOperationsBegin : Prop :=
  (∀ (w : Teller) (f : Frame) (s : State), f.port = w.port → Taken .insertNotes f s →
    match s.openRefusal f.port, s.stateRefusal with
    | some why, _ => Refuses (.insertNotes f) .insertNotes f why .none s
    | none, some why => Refuses (.insertNotes f) .insertNotes f why .none s
    | none, none =>
      if s.auditRequired then Refuses (.insertNotes f) .insertNotes f .audit .none s
      else if s.restricted .moduleLock then Refuses (.insertNotes f) .insertNotes f .halted .none s
      else if 8 ≤ s.escrow.stack.length ∨ 200 ≤ (stackNotes s.escrow.stack).total then
        Refuses (.insertNotes f) .insertNotes f .escrowFull .none s
      else if s.position.marginsExceeded then Refuses (.insertNotes f) .insertNotes f .range .none s
      else
        (∀ why : Reason, s.journal.roomCheck 1 0 = some why →
          Refuses (.insertNotes f) .insertNotes f why s.journal.roomFigures s) ∧
        (RoomFor 1 0 s →
          Replies (.insertNotes f) .insertNotes f .accepted .none [.escrow, .journal] s (fun t =>
            t.journal =
                { s.journal with reservations := s.journal.reservations ++ [{ port := f.port, kind := .insert, startSequence := 0, jammed := false }] } ∧
              t.escrow =
                { s.escrow with
                  stack := ⟨Quad.zero, Quad.zero, 0, 0, false, false⟩ :: s.escrow.stack
                  op := some (.insert ⟨w, .none, 0, false, false, none⟩) }))) ∧
  (∀ (every : Bool) (f : Frame) (s : State),
    let c : Instr := if every then .returnAll f else .returnLast f
    let r : Request := if every then .returnAll else .returnLast
    Taken r f s →
    match s.openRefusal f.port, s.stateRefusal with
    | some why, _ => Refuses c r f why .none s
    | none, some why => Refuses c r f why .none s
    | none, none =>
      if s.restricted .moduleLock then Refuses c r f .halted .none s
      else if s.escrow.stack = [] then Refuses c r f .escrowEmpty .none s
      else
        (∀ why : Reason, s.journal.roomCheck 1 0 = some why → Refuses c r f why s.journal.roomFigures s) ∧
        (RoomFor 1 0 s →
          Replies c r f .accepted .none [.escrow, .journal] s (fun t =>
            t.journal =
                { s.journal with reservations := s.journal.reservations ++ [{ port := f.port, kind := .return_, startSequence := 0, jammed := false }] } ∧
              t.escrow =
                { s.escrow with
                  verdict := .none
                  op :=
                    some (.give
                      { port := f.port, window := s.escrow.owner, underHold := s.claim.owner == .hold, every := every,
                        moving := true, note := none, given := Quad.zero, bundlesOut := 0,
                        fields := ⟨0, 0, false, false⟩, first := s.escrow.stack.length, locked := false, ended := none }) }))) ∧
  ∀ (f : Frame) (s : State), Taken .commit f s →
    let total := s.value (stackNotes s.escrow.stack)
    let refused (why : Reason) (results : Results) : Prop :=
      ∃ t : State, exec (.commit f) s = .next t ∧ Answers .commit f .refused (some why) results s t ∧
        KeptBut [.ports] s t ∧ ApprovalUsed .commit f s t
    match s.openRefusal f.port, s.stateRefusal with
    | some why, _ => refused why .none
    | none, some why => refused why .none
    | none, none =>
      if s.auditRequired then refused .audit .none
      else if s.restricted .moduleLock then refused .halted .none
      else if s.escrow.stack = [] then refused .escrowEmpty .none
      else if s.escrow.verdict ≠ .match_ ∧ Approved .commit f s = false then refused .verdict .none
      else
        if s.escrow.purpose = .drawer ∧ (s.position.account (drawerOf s.escrow.owner)).intact = false then
          ∃ t : State, exec (.commit f) s = .next t ∧ Answers .commit f .refused (some .audit) .none s t ∧
            KeptBut [.position, .ports] s t ∧ ApprovalUsed .commit f s t ∧ IntegrityFound s t
        else if s.escrow.purpose = .drawer ∧
            (s.position.account (drawerOf s.escrow.owner)).balance - total < -999999999 then refused .range .none
        else if s.position.marginsExceeded then refused .range .none
        else
          let journal : Journal :=
            { s.journal with
              reservations :=
                s.journal.reservations ++ [{ port := f.port, kind := .commit, startSequence := 0, jammed := false }] }
          let escrow : Escrow :=
            { s.escrow with tally := ⟨Quad.zero, Quad.zero, Quad.zero, s.escrow.purpose, s.escrow.owner⟩ }
          let begun (chosen : Option Ix) : CommitOp :=
            { port := f.port, underHold := s.claim.owner == .hold, chosen := chosen, note := none, moving := true,
              reduced := false, lost := false, auditStop := false, ended := none }
          let accepts := Replies (.commit f) .commit f .accepted (.commitAccepted total (Approved .commit f s))
          (∀ why : Reason, s.journal.roomCheck 1 0 = some why → refused why s.journal.roomFigures) ∧
          ∀ (b : Bundle) (d : Ix) (fit : Bool), RoomFor 1 0 s →
            (∀ j : Ix, (s.position.cassettes.get j).intact = true) → s.escrow.stack.getLast? = some b →
            b.next s.settings.denominations = some (d, fit) →
            (∀ k : Ix, s.destination d fit = some k →
              accepts [.escrow, .journal, .ports] s (fun t =>
                ApprovalUsed .commit f s t ∧ t.journal = journal ∧
                  t.escrow = { escrow with op := some (.commit (begun (some k))) })) ∧
            ∀ n : Nat, s.destination d fit = none → EndRoom n s →
              accepts [.escrow, .path, .position, .journal, .ports] s (fun t =>
                ApprovalUsed .commit f s t ∧
                  CommitEnded (begun none) escrow.tally (some .noDestination) n { s with journal := journal, escrow := escrow } t)

/-- The delivery order of R95 and the destinations of R112: a bundle's next note is a fit one of the denomination of smallest value, the
lower number first of equal values, and an unfit one once no fit one is left; a fit note goes to the first RECYCLE cassette of its
denomination that takes notes and has room, otherwise to the first DEPOSIT cassette with room, an unfit one to the latter. -/
def Obligations.DeliveryOrderAndDestinations : Prop :=
  (∀ (values : Quad Nat) (b : Bundle) (d : Ix) (fit : Bool),
    b.next values = some (d, fit) ↔
      (fit = true ∨ b.fit.total = 0) ∧ 0 < (if fit then b.fit else b.unfit).get d ∧
        ∀ e : Ix, e ≠ d → 0 < (if fit then b.fit else b.unfit).get e →
          values.get d < values.get e ∨ (values.get d = values.get e ∧ d.number < e.number)) ∧
  ∀ (s : State) (d k : Ix) (fit : Bool),
    let recycles (j : Ix) : Prop :=
      let c := s.position.cassettes.get j
      c.mode = .recycle ∧ c.index = some d ∧ (c.state = .loaded ∨ c.state = .low ∨ c.state = .empty) ∧
        c.total < c.capacity
    let deposits (j : Ix) : Prop :=
      let c := s.position.cassettes.get j
      c.mode = .deposit ∧ c.total < c.capacity ∧ c.state ≠ .absent ∧ c.state ≠ .uncounted ∧ c.state ≠ .fault ∧
        c.state ≠ .released
    s.destination d fit = some k ↔
      (fit = true ∧ recycles k ∧ ∀ j : Ix, j.number < k.number → ¬recycles j) ∨
        ((fit = true → ∀ j : Ix, ¬recycles j) ∧ deposits k ∧ ∀ j : Ix, j.number < k.number → ¬deposits j)

/-- The feed of an INSERT. A note taken is timed and validated; three attempts in a row without one, an empty intake with no note in hand,
or MODULE_LOCK end the feed; a verdict books the note and sends it on; its arrival at the drum, the compartment or the return pocket
completes it, and the feed goes on or ends; a lock present stops the next take (R101 to R105). The INSERT record and OP_DONE hold what was
accepted, its value, the flags and the feed cause, and the record's deposit detail the fit and the unfit counts apart, the suspect and the
returned count and the bundle's position, 0 where none was pushed (R95, R102, R105). The model's readings: the rank of the ends where
several hold (feedEnds, notes/assumptions/17.md), that a lock ends a feed with no note in hand at the feeder's next report
(notes/assumptions/24.md), that the other window's INTAKE_EMPTY changes nothing (notes/assumptions/8.md), the number of a feed cause
(notes/assumptions/74.md), and that OP_DONE sends the stack as it then stands (notes/assumptions/88.md). -/
def Obligations.FeedBooksNotes : Prop :=
  ∀ (o : InsertOp) (b : Bundle) (beneath : List Bundle) (s : State), s.running = true → Quiet s →
    s.escrow.op = some (.insert o) → o.ended = none → s.escrow.stack = b :: beneath → OtherAtRest o.port s →
    let lock := s.restricted .moduleLock
    let goesOn (o' : InsertOp) (b' : Bundle) (t : State) : Prop :=
      t.escrow = { s.escrow with op := some (.insert o'), stack := b' :: beneath }
    let timed (x : Sensor) (t : State) : Prop :=
      t.path = { s.path with timers := s.path.timersBut .escrow ++ [⟨.escrow, x, false⟩] }
    let ends (c : Instr) (o' : InsertOp) (why : FeedCause) : Prop :=
      ∀ n : Nat, EndRoom n s → Does c [.escrow, .path, .position, .journal] s (InsertEnded o' b beneath why n s)
    let arrives (c : Instr) (b' : Bundle) (position : Position) : Prop :=
      match feedEnds o lock b'.notes.total ((stackNotes (b' :: beneath)).total) with
      | none =>
        Does c [.escrow, .path, .position] s (fun t =>
          goesOn { o with note := .none } b' t ∧ t.position = position ∧
            t.path = { s.path with timers := s.path.timersBut .escrow })
      | some why =>
        ∀ n : Nat, EndRoom n s →
          Does c [.escrow, .path, .position, .journal] s
            (InsertEnded o b' beneath why n
              { s with position := position, escrow := { s.escrow with stack := b' :: beneath } })
    (o.note = .none →
      (if lock then ends .feedTake o .lock
       else
        Does .feedTake [.escrow, .path] s (fun t =>
          goesOn { o with note := .validating, misses := 0 } b t ∧ timed (.intake o.port) t)) ∧
      (if lock then ends .feedMiss o .lock
       else if 3 ≤ o.misses + 1 then ends .feedMiss { o with misses := o.misses + 1 } .feedFailure
       else Does .feedMiss [.escrow] s (goesOn { o with misses := o.misses + 1 } b)) ∧
      ends (.intakeEmpty o.port) { o with intakeEmpty := true } .intakeEmpty) ∧
    (o.note ≠ .none → Does (.intakeEmpty o.port) [.escrow] s (goesOn { o with intakeEmpty := true } b)) ∧
    Does (.intakeEmpty o.port.other) [] s (fun _ => True) ∧
    (o.note = .validating →
      (∀ (d : Ix) (fit : Bool), s.settings.denominations.get d ≠ 0 →
        Does (.insertVerdict (if fit then .genuineFit d else .genuineUnfit d)) [.escrow, .path, .position] s (fun t =>
          goesOn { o with note := .toDrum d fit } b t ∧ timed .validator t ∧
            t.position =
              { s.position with
                transit := Quad.plus s.position.transit d 1
                flows := { s.position.flows with accepted := Quad.plus s.position.flows.accepted d 1 } })) ∧
      (∀ v : NoteVerdict,
        v = .unreadable ∨ (∃ d, s.settings.denominations.get d = 0 ∧ (v = .genuineFit d ∨ v = .genuineUnfit d)) →
        Does (.insertVerdict v) [.escrow, .path] s (fun t =>
          goesOn { o with note := .toPocket } { b with returned := b.returned + 1 } t ∧ timed .validator t)) ∧
      (if s.position.suspect < 50 then
        Does (.insertVerdict .suspect) [.escrow, .path, .position] s (fun t =>
          goesOn { o with note := .toCompartment } { b with suspect := b.suspect + 1 } t ∧ timed .validator t ∧
            t.position =
              { s.position with suspect := s.position.suspect + 1, suspectIn := s.position.suspectIn + 1 })
       else
        Does (.insertVerdict .suspect) [.escrow, .path] s (fun t =>
          goesOn { o with note := .toPocket } { b with returned := b.returned + 1, suspectReturned := true } t ∧
            timed .validator t))) ∧
    (∀ (d : Ix) (fit : Bool), o.note = .toDrum d fit → 0 < s.position.transit.get d →
      arrives .drumEntry
        (if fit then { b with fit := Quad.plus b.fit d 1 } else { b with unfit := Quad.plus b.unfit d 1 })
        { s.position with transit := Quad.minus s.position.transit d 1 }) ∧
    (o.note = .toCompartment → arrives .compartmentEntry b s.position) ∧
    (o.note = .toPocket → arrives .returnPocketEntry b s.position)

/-- A return gives notes back from the top bundle in delivery order: a note off the drum is in TRANSIT, one in the return pocket in the
RETURNED flow; the return ends when its bundles are out, and HALTED under MODULE_LOCK, its record keeping the suspect, returned and flag
fields of the bundles that left the stack. Notes missed on an empty drum become a shortage with RECONCILE_DUE_JAM (R106 to R109). The
model's choices are how the fields of several bundles stand in one record (notes/assumptions/82.md), that OP_DONE sends the stack as it
then stands (notes/assumptions/88.md), and that the record names the top bundle as the first given back though no note has left it
(notes/assumptions/103.md). -/
def Obligations.ReturnGivesNotesBack : Prop :=
  ∀ (o : ReturnOp) (s : State), s.running = true → Quiet s → s.escrow.op = some (.give o) → o.ended = none →
    OtherAtRest .a s → OtherAtRest .b s →
    let lock := s.restricted .moduleLock
    let joined (b : Bundle) : BundleFields :=
      ⟨o.fields.suspect + b.suspect, o.fields.returned + b.returned, o.fields.truncated || b.truncated,
        o.fields.suspectReturned || b.suspectReturned⟩
    let goesOn (c : Instr) (o' : ReturnOp) (s' : State) (told : State → Prop) : Prop :=
      if o'.locked = true ∨ lock = true then
        ∀ n : Nat, EndRoom n s →
          Does c [.escrow, .path, .position, .journal] s (fun t => ReturnEnded o' 2 n s' t ∧ told t)
      else if s'.escrow.stack = [] ∨ (o'.every = false ∧ 0 < o'.bundlesOut) then
        ∀ n : Nat, EndRoom n s →
          Does c [.escrow, .path, .position, .journal] s (fun t => ReturnEnded o' 1 n s' t ∧ told t)
      else
        Does c [.escrow, .path, .position] s (fun t =>
          t.escrow = { s'.escrow with op := some (.give { o' with moving := true }) } ∧ t.position = s'.position ∧
            t.path = { s.path with timers := s.path.timersBut .escrow } ∧ told t)
    (∀ (b : Bundle) (beneath : List Bundle) (d : Ix) (fit : Bool), o.note = none → s.escrow.stack = b :: beneath →
      b.next s.settings.denominations = some (d, fit) →
      let left := if fit then { b with fit := Quad.minus b.fit d 1 } else { b with unfit := Quad.minus b.unfit d 1 }
      Does .drumExit [.escrow, .path, .position] s (fun t =>
        t.position = { s.position with transit := Quad.plus s.position.transit d 1 } ∧
          t.escrow =
            { s.escrow with
              stack := if left.notes.total = 0 then beneath else left :: beneath
              op :=
                some (.give
                  { o with
                    note := some d, moving := left.notes.total != 0
                    bundlesOut := if left.notes.total = 0 then o.bundlesOut + 1 else o.bundlesOut
                    fields := if left.notes.total = 0 then joined b else o.fields }) } ∧
          t.path =
            { s.path with
              timers := s.path.timersBut .escrow ++ [⟨.escrow, .drumExit, false⟩] })) ∧
    (∀ d : Ix, o.note = some d → 0 < s.position.transit.get d →
      goesOn .returnPocketEntry { o with note := none, given := Quad.plus o.given d 1 }
        { s with
          position :=
            { s.position with
              transit := Quad.minus s.position.transit d 1
              flows := { s.position.flows with returned := Quad.plus s.position.flows.returned d 1 } } }
        (fun _ => True)) ∧
    ∀ (b : Bundle) (beneath : List Bundle), o.moving = true → o.note = none → s.escrow.stack = b :: beneath →
      goesOn .drumEmpty { o with moving := false, bundlesOut := o.bundlesOut + 1, fields := joined b }
        { s with
          escrow := { s.escrow with stack := beneath, verdict := .none }
          position :=
            { s.position with
              discrepancy := Quad.zip (· + ·) s.position.discrepancy b.notes.toInt
              causes := { s.position.causes with reconcileDueJam := true } } }
        (fun t =>
          s.auditRequired = false →
            ∀ p : Port, p ≠ .m →
              Told p (.restriction s.alarm.restriction { s.position.causes with reconcileDueJam := true }) t)

/-- A commit takes notes off the drum from the bottom bundle in delivery order, each into TRANSIT on its way to the destination chosen;
where the drum is empty before the bottom bundle is, the notes missed become a shortage with RECONCILE_DUE_JAM, told to ports A, B and S,
the bundle leaves the stack, and the commit goes on with a destination for the next one or ends. A note that enters its cassette leaves
TRANSIT for the cassette's count, whose state is derived anew, and enters the tally; the next destination is chosen, or the commit ends:
COMMITTED with the stack empty, PARTIAL under MODULE_LOCK, where a check word fails at the choice, with the integrity fault found, or
without a destination, with the drawer debited the value delivered, or with UNBOOKED where the debit would leave the range or the drawer's
check word fails. The record's deposit detail and OP_DONE hold the cause of a PARTIAL, NO_DESTINATION, LOCK or AUDIT, its number the
model's (notes/assumptions/74.md), and OP_DONE what remains in the stack (R5, R8, R9, R35, R95, R106, R112 to R114). The model's readings:
that a commit with an empty stack ends COMMITTED whatever else holds, and so after notes missed or under the lock
(notes/assumptions/25.md), that a debit of 0.00 reads no account (notes/assumptions/37.md), and that a word which fails at a note's entry
leaves the note booked and stops the commit at its next choice, the mark auditStop being what says so until then (notes/assumptions/76.md).
-/
def Obligations.CommitDeliversNotes : Prop :=
  (∀ (o : CommitOp) (b : Bundle) (above : List Bundle) (s : State), s.running = true → Quiet s →
    s.escrow.op = some (.commit o) → o.ended = none → s.escrow.stack = above ++ [b] →
    (∀ (d : Ix) (fit : Bool), o.note = none → o.chosen.isSome → b.next s.settings.denominations = some (d, fit) →
      let left := if fit then { b with fit := Quad.minus b.fit d 1 } else { b with unfit := Quad.minus b.unfit d 1 }
      Does .drumExit [.escrow, .path, .position] s (fun t =>
        t.position = { s.position with transit := Quad.plus s.position.transit d 1 } ∧
          t.escrow =
            { s.escrow with
              stack := if left.notes.total = 0 then above else above ++ [left]
              verdict := if left.notes.total = 0 then .none else s.escrow.verdict
              op :=
                some (.commit { o with note := some (d, fit), moving := left.notes.total != 0, reduced := true }) } ∧
          t.path =
            { s.path with
              timers := s.path.timersBut .escrow ++ [⟨.escrow, .drumExit, false⟩] })) ∧
    (o.moving = true → o.note = none →
      let missed : State :=
        { s with
          escrow := { s.escrow with stack := above, verdict := .none }
          position :=
            { s.position with
              discrepancy := Quad.zip (· + ·) s.position.discrepancy b.notes.toInt
              causes := { s.position.causes with reconcileDueJam := true } } }
      let told (t : State) : Prop :=
        s.auditRequired = false → ∀ p : Port, p ≠ .m → Told p (.restriction s.alarm.restriction missed.position.causes) t
      let ends (cause : Option CommitCause) : Prop :=
        ∀ n : Nat, EndRoom n s → OtherAtRest .a s → OtherAtRest .b s →
          Does .drumEmpty [.escrow, .path, .position, .journal] s (fun t =>
            CommitEnded o s.escrow.tally cause n missed t ∧ told t)
      (above = [] → ends none) ∧
      (above ≠ [] → s.restricted .moduleLock = true → ends (some .lock)) ∧
      (∀ (b' : Bundle) (e : Ix) (fine : Bool), above.getLast? = some b' → s.restricted .moduleLock = false →
        WordsMatch s → b'.next s.settings.denominations = some (e, fine) →
        (o.auditStop = true → ends (some .audit)) ∧
        (o.auditStop = false → missed.destination e fine = none → ends (some .noDestination)) ∧
        ∀ j : Ix, o.auditStop = false → missed.destination e fine = some j →
          Does .drumEmpty [.escrow, .position] s (fun t =>
            t.position = missed.position ∧ told t ∧
              t.escrow =
                { missed.escrow with
                  op := some (.commit { o with chosen := some j, moving := true, reduced := true, lost := false }) })) ∧
      (above ≠ [] → s.restricted .moduleLock = false → ¬WordsMatch s →
        ∀ n : Nat, EndRoom n s → OtherAtRest .a s → OtherAtRest .b s →
          Does .drumEmpty [.escrow, .path, .position, .journal] s (fun t =>
            told t ∧
              ∃ p : Position,
                WordFailed missed.position p s t ∧
                  CommitEnded o s.escrow.tally (some .audit) n { missed with position := p } t)))) ∧
  (∀ (o : CommitOp) (k d : Ix) (fit : Bool) (s : State), s.running = true → Quiet s →
    s.escrow.op = some (.commit o) → o.ended = none → o.note = some (d, fit) → o.chosen = some k → o.lost = false →
    o.auditStop = false → s.holdsNotes k = true → WordsMatch s → 0 < s.position.transit.get d →
    let c := s.position.cassettes.get k
    let tally := s.escrow.tally.plus k d fit
    let position :=
      { s.position with
        transit := Quad.minus s.position.transit d 1
        cassettes := s.position.cassettes.set k { c with counts := Quad.plus c.counts d 1 }.rederive }
    let booked : State := { s with position := position, escrow := { s.escrow with tally := tally } }
    let ends (cause : Option CommitCause) : Prop :=
      ∀ n : Nat, EndRoom n s → OtherAtRest .a s → OtherAtRest .b s →
        Does (.cassetteEntry k) [.escrow, .path, .position, .journal] s (CommitEnded o tally cause n booked)
    (s.escrow.stack = [] → ends none) ∧
    (s.escrow.stack ≠ [] → s.restricted .moduleLock = true → ends (some .lock)) ∧
    ∀ (b : Bundle) (e : Ix) (fine : Bool), s.escrow.stack.getLast? = some b → s.restricted .moduleLock = false →
      b.next s.settings.denominations = some (e, fine) →
      (booked.destination e fine = none → ends (some .noDestination)) ∧
      ∀ j : Ix, booked.destination e fine = some j →
        Does (.cassetteEntry k) [.escrow, .path, .position] s (fun t =>
          t.position = position ∧
            t.escrow =
              { s.escrow with
                tally := tally
                op := some (.commit { o with note := none, chosen := some j, moving := true }) } ∧
            t.path = { s.path with timers := s.path.timersBut .escrow })) ∧
  ∀ (o : CommitOp) (k d : Ix) (fit : Bool) (n : Nat) (s : State), s.running = true → Quiet s →
    s.escrow.op = some (.commit o) → o.ended = none → o.note = some (d, fit) → o.chosen = some k → o.lost = false →
    s.holdsNotes k = true → ¬WordsMatch s → 0 < s.position.transit.get d →
    EndRoom n s → OtherAtRest .a s → OtherAtRest .b s →
    let c := s.position.cassettes.get k
    let tally := s.escrow.tally.plus k d fit
    let position :=
      { s.position with
        transit := Quad.minus s.position.transit d 1
        cassettes :=
          s.position.cassettes.set k { { c with counts := Quad.plus c.counts d 1 }.rederive with intact := true } }
    Does (.cassetteEntry k) [.escrow, .path, .position, .journal] s (fun t =>
      ∃ p : Position,
        AuditFollows (c.intact = false ∨ (s.escrow.stack ≠ [] ∧ s.restricted .moduleLock = false)) position p s t ∧
          CommitEnded o tally
            (if s.escrow.stack = [] then none else if s.restricted .moduleLock then some .lock else some .audit) n
            { s with position := p, escrow := { s.escrow with tally := tally } } t)


/-! ## The envelope slot (06) -/

/-- SLOT_OPEN and SLOT_CLOSE set the supervisor mark and the permit is judged: CLOSED opens where it holds, OPEN closes, its keypad entry
discarded, where it does not, and every other slot state stays; the reply carries the slot state and the conditions that fail
(R118, R119). BIN_EMPTIED books the bin out in CLOSED, and is refused JAMMED and BUSY elsewhere (R133). -/
def Obligations.SlotRequestsJudgePermit : Prop :=
  (∀ (opening : Bool) (f : Frame) (s : State),
    let c : Instr := if opening then .slotOpen f else .slotClose f
    let r : Request := if opening then .slotOpen else .slotClose
    let d := s.depository
    let full : Bool := s.settings.binCapacity ≤ d.bin.count
    let permit : Bool := !full && !s.restricted .slotClose && opening
    let after : Depository :=
      match d.slot with
      | .closed => { d with supervisorOpen := opening, slot := if permit then .open_ else .closed }
      | .open_ =>
        if permit then { d with supervisorOpen := opening }
        else { d with supervisorOpen := opening, slot := .closed, entry := .empty, keypadTimer := false }
      | .intake | .imprint | .drop | .jammed => { d with supervisorOpen := opening }
    Taken r f s →
    Replies c r f .ok (.slot after.slot ⟨full, s.restricted .slotClose, !opening⟩) [.depository] s (DepositoryIs after)) ∧
  ∀ (f : Frame) (s : State), Taken .binEmptied f s →
    let d := s.depository
    if d.slot = .jammed then Refuses (.binEmptied f) .binEmptied f .jammed .none s
    else if d.slot ≠ .closed then Refuses (.binEmptied f) .binEmptied f .busy .none s
    else
      (∀ why : Reason, s.journal.roomCheck 1 1 = some why →
        Refuses (.binEmptied f) .binEmptied f why s.journal.roomFigures s) ∧
      ∀ n : Nat, RoomFor 1 1 s → s.journal.next = some n →
        Replies (.binEmptied f) .binEmptied f .ok (.binBooked (some n) d.bin) [.depository, .journal] s (fun t =>
          DepositoryIs
              { d with
                bin := ⟨0, 0, 0, 0, 0, false⟩
                slot :=
                  if 0 < s.settings.binCapacity ∧ s.restricted .slotClose = false ∧ d.supervisorOpen = true then .open_
                  else .closed }
              t ∧
            Recorded n
              (fun x =>
                x.kind = .envelope ∧ x.outcome = 4 ∧ x.counts = ⟨d.bin.count, d.bin.declared, d.bin.undeclared, d.bin.captured⟩ ∧
                  x.amount = recordAmount d.bin.total ∧ x.extra = d.sequence)
              s t)

/-- An envelope gripped in OPEN takes a HELD amount with it and begins the intake; one that leaves the grip gives its amount back, in a
pull as a pullback, three of which within 60 s empty the list and raise zone 5 momentarily, from the state x with the envelope given back;
one that reaches the imprinter is imprinted, its line composed; a pull that runs out reverses, and the second pull jams the slot (R122 to
R126, R130, R142). That GRIP off in OPEN, CLOSED or JAMMED and an IMPRINT report outside INTAKE change nothing is the model's reading
(notes/assumptions/8.md). That ALARM_CHANGE lists the zones by ascending number is the model's choice (notes/assumptions/108.md). -/
def Obligations.IntakeMovesEnvelope : Prop :=
  ∀ s : State, s.running = true → Quiet s →
    let d := s.depository
    let letGo (x : Depository) : Depository :=
      if s.permit then { x with slot := .open_ } else { x with slot := .closed, entry := .empty, keypadTimer := false }
    let back : Depository :=
      let declared : Option Nat := match d.envelope with | some e => e.declared | none => none
      letGo
        { d with
          envelope := none, intakeTimer := false, reverseTimer := false, takeEnvelope := true
          entry := match declared with | some a => .held a | none => d.entry
          keypadTimer := declared.isSome || d.keypadTimer }
    let pulled := d.pullbacks ++ [s.clock.count]
    let list := if 3 < pulled.length then pulled.drop 1 else pulled
    (if d.slot = .open_ then
      Does .gripOn [.depository] s
        (DepositoryIs
          { d with
            slot := .intake, phase := .firstPull, intakeTimer := true, entry := .empty, keypadTimer := false
            envelope :=
              some
                { declared := match d.entry with | .held a => some a | .empty => none | .keying _ => none,
                  imprinted := false, unimprinted := false, line := none } })
     else Does .gripOn [] s (fun _ => True)) ∧
    (d.slot = .intake → d.phase = .reverse → Does .gripOff [.depository] s (DepositoryIs back)) ∧
    (d.slot = .intake → d.phase ≠ .reverse → (∀ a b c : Word32, list = [a, b, c] → 60 < (c - a).toNat) →
      Does .gripOff [.depository] s (DepositoryIs { back with pullbacks := list })) ∧
    (∀ a b c : Word32, d.slot = .intake → d.phase ≠ .reverse → list = [a, b, c] → (c - a).toNat ≤ 60 → AlarmDerived s →
      let x : State := { s with depository := { back with pullbacks := [] } }
      let r := s.zone 5
      let raised : Zone :=
        if s.alarm.eligible 5 then r.activated s.alarm.armed s.settings.entryDelay s.clock.count none else r
      let entered : Bool := raised.state == .pendingActive && r.state != .pendingActive
      if r.inputActive then Does .gripOff [.depository] s (DepositoryIs x.depository)
      else
        LockStopsNothing (s.alarm.setZone 5 raised.restored).latchedEffects s →
        Does .gripOff [.alarm, .journal, .dispenses, .depository] s
          (ZoneMoved 5 raised.restored entered (entered && r.state == .quiet) false none x)) ∧
    (d.slot ≠ .intake → Does .gripOff [] s (fun _ => True)) ∧
    (if d.slot = .intake ∧ d.phase ≠ .reverse then
      Does .imprintReport [.depository] s
        (DepositoryIs
          { d with
            slot := .imprint, intakeTimer := false, reverseTimer := false, imprinterTimer := true
            envelope :=
              match d.envelope with
              | some e => some { e with line := some (imprintLine s.clock d.sequence e.declared) }
              | none => none })
     else Does .imprintReport [] s (fun _ => True)) ∧
    (d.slot = .intake → d.intakeTimer = true →
      (d.phase = .firstPull →
        Does .intakeTimerExpiry [.depository] s
          (DepositoryIs { d with phase := .reverse, intakeTimer := false, reverseTimer := true })) ∧
      (d.phase = .secondPull →
        Does .intakeTimerExpiry [.depository] s (fun t =>
          DepositoryIs
              { d with
                slot := .jammed, intakeTimer := false, reverseTimer := false, imprinterTimer := false, dropTimer := false
                entry := .empty, keypadTimer := false }
              t ∧
            Told .s (.moduleFault (.slotJam false)) t))) ∧
    (d.slot = .intake → d.reverseTimer = true →
      Does .reverseTimerExpiry [.depository] s
        (DepositoryIs { d with phase := .secondPull, reverseTimer := false, intakeTimer := true }))

/-- The imprinter. PRINTED marks the envelope IMPRINTED and clears IMPRINTER_FAULT; FAULT, and no report within 2 s, mark it UNIMPRINTED
and set IMPRINTER_FAULT, told to port S where it was clear; both carry it on to the drop (R126). -/
def Obligations.ImprinterMarksEnvelope : Prop :=
  ∀ s : State, s.running = true → Quiet s → s.depository.slot = .imprint →
    let d := s.depository
    let marked (f : Envelope → Envelope) (fault : Bool) : Depository :=
      { d with
        slot := .drop, imprinterTimer := false, dropTimer := true, imprinterFault := fault
        envelope := match d.envelope with | some e => some (f e) | none => none }
    let failed := marked (fun e => { e with unimprinted := true }) true
    Does (.imprinterReport .printed) [.depository] s
        (DepositoryIs (marked (fun e => { e with imprinted := true }) false)) ∧
      Does (.imprinterReport .fault) [.depository] s (fun t =>
        DepositoryIs failed t ∧ (d.imprinterFault = false → Told .s (.moduleFault .imprinter) t)) ∧
      (d.imprinterTimer = true →
        Does .imprinterTimeout [.depository] s (fun t =>
          DepositoryIs failed t ∧ (d.imprinterFault = false → Told .s (.moduleFault .imprinter) t)))

/-- The drop. An envelope in the bin is counted, declared or undeclared, CAPTURED where it is unimprinted or caught by a clear run, with
its ENVELOPE record (lost and counted where there is no room), its receipt unless the printer is out of paper, the next sequence number
and the near-full marks; the slot is then OPEN or CLOSED by the permit. A drop or a clear run that runs out jams the slot or ends; a clear
run that finds nothing records an imprinted envelope NOT_FOUND (R118, R127 to R132, R163). A clear run of start-up does the same
but for the end: an envelope that reaches DROP is CAPTURED with the declared amount it carried, NONE where no record of an envelope was
kept, the slot becomes CLOSED whatever the permit, and no SLOT_READY is raised, by a drop or by a run that finds nothing (R134). -/
def Obligations.DropCountsEnvelope : Prop :=
  ∀ s : State, s.running = true → Quiet s →
    let d := s.depository
    let letGo (b : BinRecord) (x : Depository) : Depository :=
      if b.count < s.settings.binCapacity ∧ s.restricted .slotClose = false ∧ d.supervisorOpen = true then
        { x with slot := .open_ }
      else { x with slot := .closed, entry := .empty, keypadTimer := false }
    let next := if 9999999 ≤ d.sequence then 1 else d.sequence + 1
    let recorded (outcome : Nat) (amount : Int) (b : BinRecord) (t : State) : Prop :=
      (∀ n : Nat, s.journal.eventRoom = true → s.journal.next = some n →
        Recorded n
          (fun x =>
            x.kind = .envelope ∧ x.port = none ∧ x.outcome = outcome ∧ x.marks.noReceipt = (outcome != 3 && d.receiptOut) ∧
              x.counts = ⟨b.count, b.declared, b.undeclared, b.captured⟩ ∧ x.amount = recordAmount amount ∧
              x.extra = d.sequence)
          s t) ∧
      (s.journal.eventRoom = false →
        t.journal = { s.journal with lost := min 65535 (s.journal.lost + 1) })
    let ended (run : ClearRun) (b : BinRecord) (x : Depository) : Depository :=
      match run with
      | .byRequest => letGo b x
      | .atStartUp => { x with slot := .closed, entry := .empty, keypadTimer := false }
    let ready (run : ClearRun) (t : State) : Prop :=
      match run with
      | .byRequest => Told .s (.moduleFault .slotReady) t
      | .atStartUp => NotTold .s .moduleFault s t
    let dropped (c : Instr) (e : Envelope) (captured : Bool) (run : Option ClearRun) : Prop :=
      let amount : Nat := match e.declared with | some a => a | none => 0
      let b : BinRecord :=
        { count := d.bin.count + 1
          declared := d.bin.declared + (if e.declared.isSome then 1 else 0)
          undeclared := d.bin.undeclared + (if e.declared.isSome then 0 else 1)
          captured := d.bin.captured + (if captured then 1 else 0)
          total := d.bin.total + amount
          nearFull := d.bin.nearFull || decide (s.settings.binCapacity ≤ d.bin.count + 1 + 40) }
      Does c [.depository, .journal] s (fun t =>
        (∃ line : List Char,
          (∀ l, e.line = some l → line = l) ∧
            DepositoryIs
              (let leaves : Depository → Depository := match run with | none => letGo b | some x => ended x b
                leaves { d with
                  bin := b, sequence := next, envelope := none, dropTimer := false, imprinterTimer := false
                  clearing := if run.isSome then none else d.clearing
                  clearTimer := if run.isSome then false else d.clearTimer
                  receipts := if d.receiptOut then d.receipts else d.receipts ++ [⟨line, captured⟩] })
              t) ∧
          recorded (if captured then 2 else 1) amount b t ∧
          (if d.bin.count + 1 = s.settings.binCapacity then
            Told .s (.binNearFull (d.bin.count + 1) s.settings.binCapacity true) t
           else if d.bin.nearFull = false ∧ b.nearFull = true then
            Told .s (.binNearFull (d.bin.count + 1) s.settings.binCapacity false) t
           else True) ∧
          ∀ x : ClearRun, run = some x → ready x t)
    (∀ e : Envelope, d.slot = .drop → d.clearing = none → d.envelope = some e → dropped .dropReport e e.unimprinted none) ∧
    (∀ e : Envelope, d.slot = .imprint → d.envelope = some e → dropped .dropReport e true none) ∧
    (∀ (e : Envelope) (run : ClearRun), d.slot = .drop → d.clearing = some run → d.envelope = some e →
      dropped .dropReport e true (some run)) ∧
    (d.slot = .drop → d.clearing = some .atStartUp → d.envelope = none →
      ∃ e : Envelope, e.declared = none ∧ e.line = none ∧ dropped .dropReport e true (some .atStartUp)) ∧
    (d.slot = .drop → d.dropTimer = true →
      Does .dropTimerExpiry [.depository] s (fun t =>
        DepositoryIs
            { d with
              slot := .jammed, intakeTimer := false, reverseTimer := false, imprinterTimer := false, dropTimer := false
              entry := .empty, keypadTimer := false }
            t ∧
          Told .s (.moduleFault (.slotJam true)) t)) ∧
    ∀ run : ClearRun, d.clearing = some run →
      let spent : Depository := { d with clearing := none, clearTimer := false, envelope := none }
      match d.envelope with
      | none => Does .clearRunExpiry [.depository] s (fun t => DepositoryIs (ended run d.bin spent) t ∧ ready run t)
      | some e =>
        if e.imprinted then
          Does .clearRunExpiry [.depository, .journal] s (fun t =>
            DepositoryIs (ended run d.bin { spent with sequence := next }) t ∧ ready run t ∧
              recorded 3 (match e.declared with | some a => (a : Int) | none => 0) d.bin t)
        else Does .clearRunExpiry [.depository] s (fun t => DepositoryIs (ended run d.bin spent) t ∧ ready run t)

/-- The lane keypad and the receipt printer. A digit starts a KEYING entry over EMPTY and HELD and joins one of fewer than seven digits;
ENTER holds a non-zero amount and discards a zero one; CLEAR empties; every key taken restarts the keypad timer, whose expiry empties the
entry; keys are taken in OPEN, INTAKE, IMPRINT and DROP alone (R120). That a key which the entry ignores, ENTER in EMPTY and HELD and an
eighth digit, restarts the timer as well is the model's choice (notes/assumptions/84.md). The display's TAKE ENVELOP goes when MOUTH is
clear (R121). A report is of the oldest receipt; PAPER_OUT sets RECEIPT_OUT and PAPER_LOADED clears it (R129). -/
def Obligations.KeypadAndPrinter : Prop :=
  ∀ s : State, s.running = true → Quiet s →
    let d := s.depository
    let key (c : Instr) (entry : KeyEntry) : Prop :=
      if d.slot = .closed ∨ d.slot = .jammed then Does c [] s (fun _ => True)
      else Does c [.depository] s (DepositoryIs { d with entry := entry, keypadTimer := true })
    (∀ x : Fin 10,
      key (.keyDigit x)
        (match d.entry with
          | .empty => .keying [x]
          | .held _ => .keying [x]
          | .keying xs => if xs.length < 7 then .keying (xs ++ [x]) else .keying xs)) ∧
    key .keyEnter
      (match d.entry with
        | .empty => .empty
        | .held a => .held a
        | .keying xs => if xs.all (fun x => x == 0) then .empty else .held (xs.foldl (fun n x => n * 10 + x.val) 0)) ∧
    key .keyClear .empty ∧
    (d.keypadTimer = true →
      Does .keypadTimerExpiry [.depository] s (DepositoryIs { d with entry := .empty, keypadTimer := false })) ∧
    Does .mouthClear [.depository] s (DepositoryIs { d with takeEnvelope := false }) ∧
    (∀ (x : Receipt) (rest : List Receipt), d.receipts = x :: rest →
      Does (.receiptPrinterReport .printed) [.depository] s (DepositoryIs { d with receipts := rest }) ∧
        Does (.receiptPrinterReport .paperOut) [.depository] s
          (DepositoryIs { d with receipts := rest, receiptOut := true })) ∧
    Does .paperLoaded [.depository] s (DepositoryIs { d with receiptOut := false })

/-! ## The alarm unit (07) -/

/-- A changed raw loop reading starts the debounce count with the zone's debounce time, or ends it where the debounced reading is met again
(R138). A reading that has held becomes the debounced reading: NORMAL restores, ACTIVE activates an eligible zone, OPEN and SHORT activate
TAMPER and ATTACK zones and set the trouble mark of the others where they are enabled, each with its record and its notices (R139, R143,
R144). That a report of the reading already shown and an expiry with no debounce running change nothing is the model's reading
(notes/assumptions/8.md). That ALARM_CHANGE lists the zones by ascending number is the model's choice (notes/assumptions/108.md). -/
def Obligations.ReadingsMoveZones : Prop :=
  ∀ (z : Fin 14) (s : State), s.running = true → Quiet s → AlarmDerived s →
    let r := s.zone (wired z)
    let x := s.pins.loops.get z
    let held : Zone :=
      { r with debounceTimer := none, reading := x, trouble := if r.config.enabled then false else r.trouble }
    let up : Zone := { held with inputActive := true }
    let raised : Zone :=
      if r.inputActive = false ∧ s.alarm.eligible (wired z) = true then
        up.activated s.alarm.armed s.settings.entryDelay s.clock.count none
      else up
    let entered : Bool := raised.state == .pendingActive && r.state != .pendingActive
    Does (.loopReading z x) [] s (fun _ => True) ∧
      (∀ y : Reading, y ≠ x →
        Does (.loopReading z y) [.pins, .alarm] s (fun t =>
          t.pins = { s.pins with loops := s.pins.loops.set z y } ∧
            AlarmIs
              (s.alarm.setZone (wired z)
                { r with debounceTimer := if r.reading = y then none else some r.config.debounce })
              t)) ∧
      (r.debounceTimer = none → Does (.debouncedReadingChange z) [] s (fun _ => True)) ∧
      (r.debounceTimer.isSome →
        (x = .normal →
          MovesZone (.debouncedReadingChange z) (wired z)
            (if r.inputActive then Zone.restored { held with inputActive := false } else held) false false false none s) ∧
        (x = .active ∨ ((x = .open_ ∨ x = .short) ∧ (r.config.type = .tamper ∨ r.config.type = .attack)) →
          MovesZone (.debouncedReadingChange z) (wired z) raised entered (entered && r.state == .quiet) false none s) ∧
        ((x = .open_ ∨ x = .short) → r.config.type ≠ .tamper → r.config.type ≠ .attack →
          Does (.debouncedReadingChange z) [.alarm, .journal] s (fun t =>
            AlarmIs
                (s.alarm.setZone (wired z)
                  { r with debounceTimer := none, reading := x, trouble := r.config.enabled || r.trouble })
                t ∧
              (if r.config.enabled = true ∧ r.trouble = false then
                EventWritten
                    (fun y =>
                      y.kind = .alarm ∧ y.port = none ∧ y.outcome = 2 ∧ y.counts = ⟨1, 0, 0, 0⟩ ∧ y.extra = z.val)
                    s t ∧
                  Told .m t.alarmNotice t
              else t.journal = s.journal))))

/-- A zone whose entry timer expires latches with the entry mark, and is restored at once where its input is NORMAL (R145). The monitor
timer's expiry makes zone 14's input ACTIVE, and the next valid frame at port M, whatever its request and its reply, makes it NORMAL, a
restore, and starts the timer again: the frame does what it does to the state so made (R140, R144). A duress raise is an activation of zone
15 and at once a restore, with its port in the record, and nothing where the input is ACTIVE (R141, R142); where it began an entry timing,
the record of its expiry carries the port (R157). The sounder timer's expiry turns the sounder OFF (R156). That expiries of timers that do
not run, and a duress raise with none counted due, change nothing is the model's reading (notes/assumptions/8.md, notes/assumptions/56.md).
That ALARM_CHANGE lists the zones by ascending number is the model's choice (notes/assumptions/108.md). -/
def Obligations.TimersAndRaisesMoveZones : Prop :=
  (∀ (c : Instr) (s : State), s.powered = true → AlarmDerived s → HeardAtM c s →
    ∃ x t : State,
      exec c s = .next t ∧ exec c x = .next t ∧ MonitorHeard s x ∧
        ((x.zone 14).state ≠ (s.zone 14).state → Told .m t.alarmNotice t)) ∧
  ∀ s : State, s.running = true → Quiet s → AlarmDerived s →
    (∀ z : Fin 16,
      let r := s.zone z
      let latched : Zone :=
        { r with state := .pendingActive, entryTimer := none, marked := none, lastActivation := s.clock.count }
      if r.state = .entryTiming ∧ r.entryTimer.isSome then
        MovesZone (.entryTimerExpiry z) z (if r.inputActive then latched else latched.restored) true true true r.marked
          s
      else Does (.entryTimerExpiry z) [] s (fun _ => True)) ∧
    (let r := s.zone 14
      let stopped : State := { s with alarm := { s.alarm with monitorTimer := none } }
      let up : Zone := { r with inputActive := true }
      let raised : Zone :=
        if s.alarm.eligible 14 then up.activated s.alarm.armed s.settings.entryDelay s.clock.count none else up
      let entered : Bool := raised.state == .pendingActive && r.state != .pendingActive
      (s.alarm.monitorTimer = none → Does .monitorTimerExpiry [] s (fun _ => True)) ∧
        (s.alarm.monitorTimer.isSome → r.inputActive = true → Does .monitorTimerExpiry [.alarm] s (AlarmIs stopped.alarm)) ∧
        (s.alarm.monitorTimer.isSome → r.inputActive = false →
          LockStopsNothing (s.alarm.setZone 14 raised).latchedEffects s →
          Does .monitorTimerExpiry [.alarm, .journal, .dispenses, .depository] s
            (ZoneMoved 14 raised entered (entered && r.state == .quiet) false none stopped))) ∧
    (∀ w : Teller,
      let r := s.zone 15
      let raised : Zone :=
        if s.alarm.eligible 15 then r.activated s.alarm.armed s.settings.entryDelay s.clock.count (some w.port) else r
      let entered : Bool := raised.state == .pendingActive && r.state != .pendingActive
      if (s.ports.get w.port).duressDue = 0 ∨ r.inputActive = true then Does (.duressRaise w) [] s (fun _ => True)
      else
        MovesZone (.duressRaise w) 15 raised.restored entered (entered && r.state == .quiet) false (some w.port) s) ∧
    (if s.alarm.sounderTimer.isSome then
      Does .sounderTimerExpiry [.alarm] s (AlarmIs { s.alarm with sounder := false, sounderTimer := none })
    else Does .sounderTimerExpiry [] s (fun _ => True))

/-- ALARM_ACK moves the zones named out of PENDING_RESTORED and PENDING_ACTIVE, with one ACK record, the level and the set recomputed and
ALARM_CHANGE; where none moves nothing changes (R150). ALARM_LIST gives up to eight entries of the zones not QUIET or in trouble, by listed
level and then by number, from the start position (R152; the status of a clamped start is the model's choice, notes/assumptions/20.md).
SILENCE turns the sounder OFF (R156). That ALARM_CHANGE lists the zones by ascending number is the model's choice
(notes/assumptions/108.md). -/
def Obligations.PanelAcknowledgesListsSilences : Prop :=
  (∀ (f : Frame) (s : State), Taken .alarmAck f s → AlarmDerived s →
    let named (z : Fin 16) : Bool := f.operands == [0xFF#8] || f.operands.contains (BitVec.ofNat 8 z.val)
    let toQuiet (z : Fin 16) : Bool := named z && (s.zone z).state == .pendingRestored
    let toAcked (z : Fin 16) : Bool := named z && (s.zone z).state == .pendingActive
    let v :=
      s.alarm.withZones (fun z =>
        { s.zone z with
          state := if toQuiet z then .quiet else if toAcked z then .ackedActive else (s.zone z).state })
    if f.operands = [] ∨ (f.operands ≠ [0xFF#8] ∧ ∃ b ∈ f.operands, 16 ≤ b.toNat) then
      Refuses (.alarmAck f) .alarmAck f .range .none s
    else
      (∀ why : Reason, s.journal.roomCheck 1 1 = some why →
        Refuses (.alarmAck f) .alarmAck f why s.journal.roomFigures s) ∧
      (RoomFor 1 1 s → (∀ z, toQuiet z = false ∧ toAcked z = false) →
        Replies (.alarmAck f) .alarmAck f .ok (.acknowledged 0 0 s.alarm.level) [] s (fun _ => True)) ∧
      ∀ (n : Nat) (z : Fin 16), RoomFor 1 1 s → s.journal.next = some n → toQuiet z = true ∨ toAcked z = true →
        Replies (.alarmAck f) .alarmAck f .ok (.acknowledged (zoneSetOf toQuiet) (zoneSetOf toAcked) v.activeLevel)
          [.alarm, .journal, .depository] s (fun t =>
            AlarmIs (s.alarm.follows false v) t ∧ SetReported v.latchedEffects s t ∧ Told .m t.alarmNotice t ∧
              Recorded n
                (fun x =>
                  x.kind = .ack ∧ x.port = some .m ∧ x.outcome = 1 ∧ x.counts = ⟨v.activeLevel, 0, 0, 0⟩ ∧ x.amount = 0 ∧
                    x.extra = (zoneSetOf (fun y => toQuiet y || toAcked y)).toNat)
                s t)) ∧
  (∀ (f : Frame) (s : State), Taken .alarmList f s →
    let asked := (f.operands.headD 0#8).toNat
    let start := max 1 (min 16 asked)
    let level (z : Fin 16) : Nat := if (s.zone z).state = .quiet then 1 else (s.zone z).config.level
    ∃ zones : List (Fin 16),
      (∀ z, z ∈ zones ↔ (s.zone z).state ≠ .quiet ∨ (s.zone z).trouble = true) ∧
        zones.Pairwise (fun y z => level z < level y ∨ (level z = level y ∧ y < z)) ∧
        Replies (.alarmList f) .alarmList f (if start = asked then .ok else .clamped)
          (.alarmList s.alarm.summary zones.length
            (((zones.map (fun z =>
              { zone := z, state := (s.zone z).state, level := level z, effects := (s.zone z).config.effects,
                trouble := (s.zone z).trouble, bypassed := (s.zone z).bypassed, enabled := (s.zone z).config.enabled,
                lastActivation := (s.zone z).lastActivation })).drop (start - 1)).take 8))
          [] s (fun _ => True)) ∧
  ∀ (f : Frame) (s : State), Taken .silence f s →
    Replies (.silence f) .silence f .ok (.sounder s.alarm.sounder false) [.alarm] s
      (AlarmIs { s.alarm with sounder := false, sounderTimer := none })


/-- ZONE_SET is refused RANGE by its three checks and then for want of room (R137). Accepted, it writes its SETTING record and replaces the
configuration, level and debounce clamped, which the reply CLAMPED carries as applied and the reply OK leaves out (R137, R202): the level
and the set follow at once, and a zone made disabled leaves ENTRY_TIMING and loses its trouble mark. A wired zone made enabled has its
debounced reading judged anew, with the trouble record of a cut or shorted loop (R139), and a zone that so becomes eligible with its input
ACTIVE activates (R143, R146). The set may follow in one step: that of the configuration alone is the one before or the one in the end. An
enable byte other than 0 enables (the model's choice, notes/assumptions/18.md). That ALARM_CHANGE lists the zones by ascending number is
the model's choice (notes/assumptions/108.md). -/
def Obligations.ZoneSetReplacesConfiguration : Prop :=
  ∀ (f : Frame) (s : State), Taken .zoneSet f s → AlarmDerived s →
    let b (i : Nat) : Nat := (f.operands.getD i 0#8).toNat
    let asked := 256 * b 6 + b 7
    if 15 < b 0 ∨ (b 1 = 0 ∨ 6 < b 1) ∨ (b 4 ≠ 1 ∧ b 4 ≠ 2) ∨ (b 0 = 15 ∧ b 5 = 0) then
      Refuses (.zoneSet f) .zoneSet f .range .none s
    else
      (∀ why : Reason, s.journal.roomCheck 1 1 = some why →
        Refuses (.zoneSet f) .zoneSet f why s.journal.roomFigures s) ∧
      ∀ (n : Nat) (z : Fin 16) (type : ZoneType) (mode : ArmMode), RoomFor 1 1 s → s.journal.next = some n → z.val = b 0 →
        zoneTypeCode type = b 1 → armModeCode mode = b 4 →
        let c : ZoneConfig :=
          { type := type, level := max 1 (min 7 (b 2)), effects := BitVec.ofNat 6 (b 3), armMode := mode,
            enabled := b 5 != 0, debounce := max 50 (min 2000 asked) }
        let r := s.zone z
        let off : Bool := r.config.enabled && !c.enabled
        let ends : Bool := off && r.state == .entryTiming
        let configured : Zone :=
          { r with
            config := c
            trouble := if off then false else r.trouble
            state := if ends then .quiet else r.state
            entryTimer := if ends then none else r.entryTimer
            marked := if ends then none else r.marked }
        let on : Bool := !r.config.enabled && c.enabled && decide (z.val < 14)
        let fails : Bool := (r.reading == .open_ || r.reading == .short) && !(type == .tamper || type == .attack)
        let judged : Zone :=
          if on then
            { configured with inputActive := if fails then r.inputActive else r.reading != .normal, trouble := fails }
          else configured
        let comes : Bool := !s.alarm.eligible z && (s.alarm.setZone z judged).eligible z && judged.inputActive
        let after : Zone :=
          if comes then judged.activated s.alarm.armed s.settings.entryDelay s.clock.count none
          else if on && r.inputActive && !judged.inputActive then judged.restored
          else judged
        let entered : Bool := after.state == .pendingActive && judged.state != .pendingActive
        let v := s.alarm.setZone z after
        let alone := (s.alarm.setZone z configured).latchedEffects
        (alone = s.alarm.restriction ∨ alone = v.latchedEffects) → LockStopsNothing v.latchedEffects s →
        let exact : Bool := c.level == b 2 && c.debounce == asked
        Replies (.zoneSet f) .zoneSet f (if exact then .ok else .clamped) (if exact then .none else .zoneSet c)
          [.alarm, .journal, .dispenses, .depository] s (fun t =>
            ∃ set troubled : Journal,
              Recorded n
                  (fun x =>
                    x.kind = .setting ∧ x.port = some .s ∧ x.outcome = 2 ∧ x.extra = z.val ∧
                      x.detail = .setting (r.config.bytes ++ [0#8]) (c.bytes ++ [0#8]))
                  s { s with journal := set } ∧
                (if on = true ∧ fails = true ∧ r.trouble = false then
                  EventWritten
                    (fun x =>
                      x.kind = .alarm ∧ x.port = none ∧ x.outcome = 2 ∧ x.counts = ⟨1, 0, 0, 0⟩ ∧ x.extra = z.val)
                    { s with journal := set } { s with journal := troubled }
                else troubled = set) ∧
                ZoneMoved z after entered (entered && judged.state == .quiet) false none { s with journal := troubled } t ∧
                (v.activeLevel ≠ s.alarm.level → Told .m t.alarmNotice t))

/-- ARM is answered OK where ARMED stands, refused ZONE_ACTIVE with the zones whose readings fail, and otherwise arms with its record,
ALARM_CHANGE and the bypass set in the reply (R147); a zone that so becomes eligible with its input ACTIVE and its reading NORMAL, as zone
14 may have them, activates (R143, R146). That the OK of an ARM while ARMED carries no bypass set is the model's reading
(notes/assumptions/45.md), and that the zones refused are listed by ascending number its choice (notes/assumptions/107.md). DISARM disarms,
ends every entry timing and clears every bypass mark, with its record and ALARM_CHANGE; a bypassed 24H zone whose input is ACTIVE activates
before that record, and one that is ARMED_ONLY does not (R148). However many so activate, the DISARM record is written: where they are more
than the staging queue has entries for beside it, the ALARM records that find none are lost and counted (R162, R163; that the record keeps
its entry from them is the model's reading, notes/assumptions/19.md, and that the zones are taken by ascending number its choice,
notes/assumptions/75.md). BYPASS marks the zones named and ends their entry timing, with its ARM record; a list that is empty or names zone
15 or above is refused RANGE (R149). That ALARM_CHANGE lists the zones by ascending number is the model's choice
(notes/assumptions/108.md). -/
def Obligations.ArmDisarmBypass : Prop :=
  (∀ (f : Frame) (s : State), Taken .arm f s →
    let fails (z : Fin 16) : Bool :=
      (s.zone z).config.enabled && !(s.zone z).bypassed && (s.zone z).config.armMode == .armedOnly &&
        (s.zone z).reading != .normal
    if s.alarm.armed then Replies (.arm f) .arm f .ok .none [] s (fun _ => True)
    else if ∃ z, fails z = true then
      Refuses (.arm f) .arm f .zoneActive (.zonesNotNormal ((allZones.filter fails).map (fun z => (z, (s.zone z).reading)))) s
    else
      (∀ why : Reason, s.journal.roomCheck 1 1 = some why → Refuses (.arm f) .arm f why s.journal.roomFigures s) ∧
      ∀ n : Nat, RoomFor 1 1 s → s.journal.next = some n →
        ((∀ z, (s.zone z).inputActive = true → (s.zone z).config.armMode = .armedOnly →
            (s.zone z).config.enabled = false ∨ (s.zone z).bypassed = true) →
          Replies (.arm f) .arm f .ok (.bypassSet s.alarm.bypassSet) [.alarm, .journal] s (fun t =>
            AlarmIs { s.alarm with armed := true } t ∧ Told .m t.alarmNotice t ∧
              Recorded n
                (fun x => x.kind = .arm ∧ x.port = some .s ∧ x.outcome = 1 ∧ x.extra = s.alarm.bypassSet.toNat) s t)) ∧
        ∀ z : Fin 16, AlarmDerived s → (s.zone z).inputActive = true → (s.zone z).config.armMode = .armedOnly →
          (s.zone z).config.enabled = true → (s.zone z).bypassed = false →
          (∀ y, y ≠ z → (s.zone y).inputActive = true → (s.zone y).config.armMode = .armedOnly →
            (s.zone y).config.enabled = false ∨ (s.zone y).bypassed = true) →
          let r := s.zone z
          let after : Zone :=
            if r.state = .quiet ∨ r.state = .pendingRestored then
              r.activated true s.settings.entryDelay s.clock.count none
            else r
          let entered : Bool := after.state == .pendingActive && r.state != .pendingActive
          LockStopsNothing (s.alarm.setZone z after).latchedEffects s →
          Replies (.arm f) .arm f .ok (.bypassSet s.alarm.bypassSet) [.alarm, .journal, .dispenses, .depository] s (fun t =>
            Told .m t.alarmNotice t ∧
              ∃ armed : Journal,
                Recorded n
                    (fun x => x.kind = .arm ∧ x.port = some .s ∧ x.outcome = 1 ∧ x.extra = s.alarm.bypassSet.toNat)
                    s { s with journal := armed } ∧
                  ZoneMoved z after entered (entered && r.state == .quiet) false none
                    { s with journal := armed, alarm := { s.alarm with armed := true } } t)) ∧
  (∀ (f : Frame) (s : State), Taken .disarm f s →
    let timing (z : Fin 16) : Bool := (s.zone z).state == .entryTiming
    let v :=
      s.alarm.withZones (fun z =>
        { s.zone z with
          bypassed := false
          state := if timing z then .quiet else (s.zone z).state
          entryTimer := if timing z then none else (s.zone z).entryTimer
          marked := if timing z then none else (s.zone z).marked })
    let comes (z : Fin 16) : Bool :=
      (s.zone z).bypassed && (s.zone z).inputActive && (s.zone z).config.enabled && (s.zone z).config.armMode == .always &&
        ((v.zone z).state == .quiet || (v.zone z).state == .pendingRestored)
    let disarmed (x : Record) : Prop :=
      x.kind = .disarm ∧ x.port = some .s ∧ x.outcome = 1 ∧ x.counts = ⟨(zoneSetOf timing).toNat, 0, 0, 0⟩ ∧
        x.amount = 0 ∧ x.extra = s.alarm.bypassSet.toNat
    (∀ why : Reason, s.journal.roomCheck 1 1 = some why → Refuses (.disarm f) .disarm f why s.journal.roomFigures s) ∧
    (∀ n : Nat, RoomFor 1 1 s → s.journal.next = some n → (∀ z, comes z = false) →
      Replies (.disarm f) .disarm f .ok .none [.alarm, .journal] s (fun t =>
        AlarmIs { v with armed := false } t ∧ Told .m t.alarmNotice t ∧
          Recorded n disarmed s t)) ∧
    (∀ z : Fin 16, RoomFor 1 1 s → s.journal.next.isSome → AlarmDerived s → comes z = true → (∀ y, y ≠ z → comes y = false) →
      let r := v.zone z
      let after : Zone := r.activated false s.settings.entryDelay s.clock.count none
      LockStopsNothing (v.setZone z after).latchedEffects s →
      Replies (.disarm f) .disarm f .ok .none [.alarm, .journal, .dispenses, .depository] s (fun t =>
        Told .m t.alarmNotice t ∧
          ∃ (latched : Journal) (m : Nat),
            ZoneMoved z after true (r.state == .quiet) false none
                { s with alarm := { v with armed := false } } { t with journal := latched } ∧
              Recorded m disarmed { s with journal := latched } t)) ∧
    (∀ n : Nat, RoomFor 1 1 s → s.journal.next = some n → AlarmDerived s →
      (∀ z, comes z = true → Effects.has (s.zone z).config.effects .moduleLock = false) →
      let fresh := (allZones.filter (fun z => comes z && (v.zone z).state == .quiet)).length
      let written := min fresh (31 - s.journal.staging.length)
      Replies (.disarm f) .disarm f .ok .none [.alarm, .journal, .dispenses, .depository] s (fun t =>
        Told .m t.alarmNotice t ∧ t.alarm.armed = false ∧ t.journal.promised = false ∧
          (∀ z : Fin 16,
            t.zone z =
              if comes z then (v.zone z).activated false s.settings.entryDelay s.clock.count none else v.zone z) ∧
          t.journal.lost =
            (if written < fresh then min 65535 (s.journal.lost + (fresh - written)) else s.journal.lost) ∧
          ∃ (alarms : List Record) (r : Record),
            t.journal.staging = s.journal.staging ++ alarms ++ [r] ∧ alarms.length = written ∧
              (∀ x ∈ alarms, x.kind = .alarm) ∧ r.sequence = n + written ∧ disarmed r)) ∧
    (RoomFor 1 1 s →
      ∃ t : State,
        exec (.disarm f) s = .next t ∧ Answers .disarm f .ok none .none s t ∧ t.alarm.armed = false ∧
          t.journal.promised = false ∧
          ∃ (before after : List Record) (r : Record),
            t.journal.staging = s.journal.staging ++ before ++ r :: after ∧ disarmed r) ∧
    ∀ z : Fin 16, RoomFor 1 1 s → (s.zone z).bypassed = true → (s.zone z).inputActive = true →
      (s.zone z).config.enabled = true → (s.zone z).config.armMode = .always → (s.zone z).state = .quiet →
      ∃ t : State, exec (.disarm f) s = .next t ∧ (t.zone z).state = .pendingActive ∧ t.alarm.armed = false) ∧
  ∀ (f : Frame) (s : State), Taken .bypass f s →
    let named (z : Fin 16) : Bool := f.operands.contains (BitVec.ofNat 8 z.val)
    let ends (z : Fin 16) : Bool := named z && (s.zone z).state == .entryTiming
    let v :=
      s.alarm.withZones (fun z =>
        { s.zone z with
          bypassed := (s.zone z).bypassed || named z
          state := if ends z then .quiet else (s.zone z).state
          entryTimer := if ends z then none else (s.zone z).entryTimer
          marked := if ends z then none else (s.zone z).marked })
    if f.operands = [] ∨ ∃ b ∈ f.operands, 15 ≤ b.toNat then Refuses (.bypass f) .bypass f .range .none s
    else
      (∀ why : Reason, s.journal.roomCheck 1 1 = some why → Refuses (.bypass f) .bypass f why s.journal.roomFigures s) ∧
      ∀ n : Nat, RoomFor 1 1 s → s.journal.next = some n →
        Replies (.bypass f) .bypass f .ok (.bypassSet v.bypassSet) [.alarm, .journal] s (fun t =>
          AlarmIs v t ∧ Told .m t.alarmNotice t ∧
            Recorded n (fun x => x.kind = .arm ∧ x.port = some .s ∧ x.outcome = 2 ∧ x.extra = v.bypassSet.toNat) s t)

/-- MODULE_LOCK enters the restriction set, whatever the command that brings it: the wait list is emptied, every port on it told LOCK, and
the dispense of every DELAYED entry comes to its end, HALTED. A teller that owns the module loses it, to HOLD with notes in escrow, port S
then being granted HOLD, and to NONE without; it is told LOCK, and its dispense whose grant checks are deferred comes to its end, HALTED.
An owner PORT_S or HOLD keeps the module. A note that a feed or a return has in hand goes on with the operation marked to end after it; a
return without one comes to its end, HALTED; the bundles stay (R55, R91, R103, R109, R153; that such a return ends in the step in which the
lock enters, and that an INSERT without a note goes on unmarked to the feeder's next report, is the model's reading,
notes/assumptions/24.md). Where a wired loop's ACTIVE brings it, from QUIET, with no escrow operation in flight and room for the ends, the
dispenses end HALTED with their records, nothing else of the dispenses, the path and the position changes, and the idle timer of PORT_S
goes on (R55, R75, R91, R143). -/
def Obligations.ModuleLockTakesClaim : Prop :=
  let loser (s : State) : Option Teller := match s.claim.owner with | .portA => some .a | .portB => some .b | _ => none
  let haltedBy (s : State) : List Teller :=
    s.claim.waiting.filterMap (fun e => match e with | .delayed u => some u | .claim _ => none) ++
      (loser s).toList.filter (fun u =>
        (s.dispense u).state == .queued && (s.dispense u).deferred && !s.claim.waiting.contains (.delayed u))
  (∀ (c : Instr) (s t : State), s.startUp.phase = .ready → Quiet s → AlarmDerived s → exec c s = .next t →
    t.startUp.phase = .ready → s.restricted .moduleLock = false → t.restricted .moduleLock = true →
    ClaimIs (if loser s = none then s.claim.owner else if s.escrow.stack = [] then .none else .hold) [] t ∧
      (∀ u, loser s = some u → Told u.port (.claimEnded .lock) t) ∧
      (∀ e ∈ s.claim.waiting, Told e.port (.claimEnded .lock) t) ∧
      (loser s ≠ none → s.escrow.stack ≠ [] → Told .s (.grant .hold) t) ∧
      (∀ u ∈ haltedBy s, t.dispense u = Dispense.idle ∨ ((t.dispense u).ending = true ∧
        ∃ carried, .dispense u 7 Quad.zero false none carried ∈ t.journal.endHold)) ∧
      t.escrow.stack = s.escrow.stack ∧
      (∀ o : InsertOp, s.escrow.op = some (.insert o) →
        t.escrow.op = some (.insert (if o.note = .none then o else { o with locked := true }))) ∧
      (∀ o : ReturnOp, s.escrow.op = some (.give o) → o.ended = none →
        if o.note.isSome then t.escrow.op = some (.give { o with locked := true })
        else
          t.escrow.op = none ∨
            (t.escrow.op = some (.give { o with moving := false, ended := some .halted }) ∧
              .give .halted ∈ t.journal.endHold)) ∧
      ∀ p : Port, p ≠ .m → ∃ causes : Causes, Told p (.restriction t.alarm.restriction causes) t) ∧
  ∀ (z : Fin 14) (s : State), s.startUp.phase = .ready → Quiet s → AlarmDerived s →
    let r := s.zone (wired z)
    let caps := Effects.has r.config.effects .dispenseCap || Effects.has r.config.effects .dispenseHalt
    let loses := loser s
    let halted := haltedBy s
    r.debounceTimer.isSome → s.pins.loops.get z = .active → r.inputActive = false → r.state = .quiet →
    r.config.type ≠ .intrusionDelayed → s.alarm.eligible (wired z) = true → Effects.has r.config.effects .moduleLock = true →
    s.restricted .moduleLock = false → s.escrow.op = none → (∀ u ∈ halted, (s.dispense u).state = .queued) →
    (halted ≠ [] →
      s.journal.endHold = [] ∧ halted.length < s.journal.stagingFree ∧
        ∃ n, s.journal.next = some n ∧ n + halted.length < Config.lastSequence) →
    ∃ t : State,
      exec (.debouncedReadingChange z) s = .next t ∧ t.restricted .moduleLock = true ∧
        (t.zone (wired z)).state = .pendingActive ∧
        ClaimIs (if loses = none then s.claim.owner else if s.escrow.stack = [] then .none else .hold) [] t ∧
        (∀ u, loses = some u → Told u.port (.claimEnded .lock) t) ∧
        (∀ e ∈ s.claim.waiting, Told e.port (.claimEnded .lock) t) ∧
        (loses ≠ none → s.escrow.stack ≠ [] → Told .s (.grant .hold) t) ∧ t.escrow.stack = s.escrow.stack ∧
        (s.claim.owner = .portS → s.claim.idle.isSome → s.idleRuns = true → t.claim.idle = s.claim.idle) ∧
        ∃ x : State,
          EventWritten (fun y => y.kind = .alarm ∧ y.port = none ∧ y.outcome = 1 ∧ y.extra = z.val) s x ∧
            x.position = s.position ∧ x.path = s.path ∧
            (∀ u : Teller,
              x.dispense u =
                if caps = true ∧ (s.dispense u).state = .delaying ∧ (s.dispense u).extended = false ∧
                    (s.dispense u).ending = false then
                  { s.dispense u with
                    delayEnd := (s.dispense u).delayEnd + BitVec.ofNat 32 s.settings.holdupExtension, extended := true }
                else s.dispense u) ∧
            DispensesHalted halted x t

/-! ## The journal (08) -/

/-- JOURNAL_READ answers with the record of the number asked for, or with the GAP record that stands for it and the mark STANDS_FOR, and is
refused OUT_OF_RANGE outside the retained durable range; every reply carries the trim point, the durable mark and the next number, and
nothing changes (R169). JOURNAL_SCAN makes its three checks in order (R170), and then examines the retained records from its start in its
direction: it stops FOUND at the first that matches, or in WHILE_MATCH does not, COUNT_EXHAUSTED at the applied count, END_OF_RANGE at the
last record; a teller's port criterion is its own port; nothing changes (R171, R172). That a teller's port operand that names no port is
refused RANGE before the criterion is forced to its own port is the model's reading (notes/assumptions/40.md), and that bits 3 to 7 of the
presence byte are not read its choice (notes/assumptions/99.md). -/
def Obligations.JournalReadsAndScans : Prop :=
  (∀ (f : Frame) (s : State), Taken .journalRead f s →
    let j := s.journal
    let n := natOf f.operands
    let answers (r : Record) (stands : Bool) : Prop :=
      Replies (.journalRead f) .journalRead f .ok (.journalRecord r stands j.trimPoint j.durable j.next) [] s (fun _ => True)
    let standsFor (r : Record) : Prop := r.kind = .gap ∧ r.extra < n + r.counts.c1.toNat ∧ n ≤ r.extra
    if n ≤ j.trimPoint ∨ j.durable < n then
      Refuses (.journalRead f) .journalRead f .outOfRange (.journalRange j.trimPoint j.durable j.next) s
    else
      (∀ r ∈ j.retained, r.sequence = n → (∀ x ∈ j.retained, x.sequence = n → x = r) → answers r false) ∧
        ∀ r ∈ j.retained, (∀ x ∈ j.retained, x.sequence ≠ n) → standsFor r →
          (∀ x ∈ j.retained, standsFor x → x = r) → answers r true) ∧
  ∀ (f : Frame) (s : State), Taken .journalScan f s →
    let j := s.journal
    let b (i : Nat) : Nat := (f.operands.getD i 0#8).toNat
    let start := natOf (f.operands.take 4)
    let asked := 256 * b 5 + b 6
    let applied := if asked = 0 then 1 else if 4096 < asked then 4096 else asked
    let byKind := (b 8).testBit 0
    let byPort := (b 8).testBit 1
    let byAmount := (b 8).testBit 2
    let amountBytes := f.operands.drop 11
    if (b 4 ≠ 1 ∧ b 4 ≠ 2) ∨ (b 7 ≠ 1 ∧ b 7 ≠ 2) ∨ (byKind = true ∧ (b 9 = 0 ∨ 20 < b 9)) ∨
        (byPort = true ∧ 4 < b 10) then
      Refuses (.journalScan f) .journalScan f .range .none s
    else
      (∀ position : Nat, byAmount = true → readS5 amountBytes = .error position →
        Refuses (.journalScan f) .journalScan f .badDigit (.badDigit 1 position) s) ∧
      ((byAmount = true → ∃ v, readS5 amountBytes = .ok v) →
        (start ≤ j.trimPoint ∨ j.durable < start →
          Refuses (.journalScan f) .journalScan f .outOfRange (.scanRange j.trimPoint j.durable) s) ∧
        ∀ (before after : List Record) (first r : Record) (c : Criteria) (i : Nat),
          j.trimPoint < start → start ≤ j.durable → j.retained = before ++ first :: after →
          (∀ x ∈ before, x.sequence < start) → start ≤ first.sequence → (∀ x ∈ after, first.sequence < x.sequence) →
          (if byKind then ∃ k, c.kind = some k ∧ kindCode k = b 9 else c.kind = none) →
          (if f.port = .a ∨ f.port = .b then c.port = some (some f.port)
            else if byPort then ∃ p, c.port = some p ∧ portCode p = b 10 else c.port = none) →
          (if byAmount then ∃ v, c.amount = some v ∧ readS5 amountBytes = .ok v else c.amount = none) →
          let path := if b 4 = 1 then first :: after else first :: before.reverse
          let meets (x : Record) : Bool :=
            (c.kind == none || c.kind == some x.kind) && (c.port == none || c.port == some x.port) &&
              (c.amount == none || c.amount == some x.amount)
          let hit (x : Record) : Bool := if b 7 = 1 then meets x else !meets x
          i < applied → path[i]? = some r → (∀ k < i, ∀ x, path[k]? = some x → hit x = false) →
          hit r = true ∨ i + 1 = applied ∨ i + 1 = path.length →
          Replies (.journalScan f) .journalScan f .ok
            (.scanned
              { stop := if hit r then .found else if i + 1 = applied then .countExhausted else .endOfRange
                last := r.sequence, examined := i + 1, remaining := applied - (i + 1)
                record := if hit r then some r else none, applied := applied, criteria := c })
            [] s (fun _ => True))

/-- TRIM removes the retained records at or below the number applied, moves the trim point to it and clears the high mark below 3,584
occupied slots; a number above the durable mark is applied as the mark and CLAMPED; at or below the trim point nothing is removed (R173).
SYNC is answered at once where the durable mark has reached the highest number given; otherwise it waits, and 2 s later it is refused
JOURNAL_BUSY (R168), a duress mark being reported as R184 states. That SYNC_TIMEOUT with nothing awaited changes nothing is the model's
reading (notes/assumptions/8.md). -/
def Obligations.TrimAndSync : Prop :=
  (∀ (f : Frame) (s : State), Taken .trim f s →
    let j := s.journal
    let n := natOf f.operands
    let m := min n j.durable
    let status : Status := if j.durable < n then .clamped else .ok
    let left := j.retained.filter (fun r => m < r.sequence)
    let after : Journal :=
      { j with
        retained := left, trimPoint := m
        highMark := j.highMark && decide (3584 ≤ left.length + j.staging.length) }
    if m ≤ j.trimPoint then
      Replies (.trim f) .trim f status (.trimmed 0 j.trimPoint j.occupied j.room) [] s (fun _ => True)
    else
      Replies (.trim f) .trim f status
        (.trimmed (j.retained.length - left.length) m (left.length + j.staging.length) after.room) [.journal] s
        (fun t => t.journal = after)) ∧
  (∀ (f : Frame) (s : State), Taken .sync f s →
    let highest := match s.journal.next with | some n => n - 1 | none => 4294967295
    if highest ≤ s.journal.durable then
      Replies (.sync f) .sync f .ok (.synced s.journal.durable highest) [] s (fun _ => True)
    else Does (.sync f) [] s (fun t => t.awaited f.port = some highest ∧ t.answered f.port = none)) ∧
  ∀ (p : Port) (s : State), s.running = true → Quiet s →
    (s.awaited p = none → Does (.syncTimeout p) [] s (fun _ => True)) ∧
    ∀ (code tag : Byte) (duress : Bool) (n : Nat), (s.ports.get p).held = some ⟨code, tag, duress, .awaiting n⟩ →
      Does (.syncTimeout p) [.ports] s (fun t =>
        PortsAnswered (fun x _ => x = p) s t ∧
          t.answered p =
            some ⟨tag, code, .refused, some .journalBusy, (s.ports.get p).faultsPending, .synced s.journal.durable n⟩)

/-- A write reported complete makes the head of the staging queue durable: it joins the retained records, the durable mark becomes its
number, the next record is written, the OP_DONE waiting on it is raised, and every SYNC it reaches is answered (R166, R168, R184). A write
that fails is repeated, up to three attempts, and then the journal is STALLED, with JOURNAL_HIGH; while STALLED a retry writes the record
again (R167). That a storage report with no write under way, and a retry when not STALLED, change nothing is the model's reading
(notes/assumptions/8.md). An end record held in the end hold, which takes the entry a write frees, has its own clause (R163). -/
def Obligations.WritesMakeDurable : Prop :=
  ∀ s : State, s.running = true → Quiet s →
    let j := s.journal
    (j.writing = false →
      Does .writeComplete [] s (fun _ => True) ∧ Does .writeFailed [] s (fun _ => True)) ∧
    (∀ (r : Record) (rest : List Record), j.writing = true → j.staging = r :: rest → j.endHold = [] →
      Does .writeComplete [.journal, .ports] s (fun t =>
        PortsAnswered (fun _ n => n ≤ r.sequence) s t ∧
          t.journal =
            { j with
              staging := rest, retained := j.retained ++ [r], durable := r.sequence, attempts := 0
              write := if rest = [] then .idle else .writing
              writing := decide (rest ≠ [])
              waitingDone := j.waitingDone.filter (fun w => w.done.closing ≠ r.sequence) } ∧
          (∀ w ∈ j.waitingDone, w.done.closing = r.sequence →
            (∀ x ∈ j.waitingDone, x.done.closing = r.sequence → x.port = w.port → x = w) →
            Told w.port (.opDone w.done) t) ∧
          ∀ (p : Port) (code tag : Byte) (duress : Bool) (n : Nat),
            (s.ports.get p).held = some ⟨code, tag, duress, .awaiting n⟩ →
            if n ≤ r.sequence then
              t.answered p = some ⟨tag, code, .ok, none, (s.ports.get p).faultsPending, .synced r.sequence n⟩
            else t.awaited p = some n)) ∧
    (∀ (r : Record) (rest : List Record) (w : Teller) (outcome n : Nat), j.writing = true → j.staging = r :: rest →
      rest.length + j.promised.toNat < 32 → j.endHold = [.dispense w outcome Quad.zero false none .none] → j.next = some n →
      OtherAtRest w s → (∀ x ∈ s.path.timers, x.owner ≠ .dispense w) →
      let freed : Journal :=
        { j with
          staging := rest, retained := j.retained ++ [r], durable := r.sequence, endHold := []
          waitingDone := j.waitingDone.filter (fun w => w.done.closing ≠ r.sequence) }
      Does .writeComplete [.journal, .dispenses, .path, .position, .ports] s (fun t =>
        PortsAnswered (fun _ n => n ≤ r.sequence) s t ∧ t.journal.endHold = [] ∧
          DispenseEnded w outcome Quad.zero n s.position { s with journal := freed } t)) ∧
    (j.writing = true → j.attempts < 2 →
      Does .writeFailed [.journal] s (fun t => t.journal = { j with attempts := j.attempts + 1 })) ∧
    (j.writing = true → 2 ≤ j.attempts →
      Does .writeFailed [.journal] s (fun t =>
        t.journal = { j with attempts := 3, write := .stalled, writing := false } ∧
          (j.write ≠ .stalled → Told .s (.journalHigh t.journal.figures) t))) ∧
    (if j.write = .stalled ∧ j.writing = false then
      Does .stalledRetry [.journal] s (fun t => t.journal = { j with writing := true })
    else Does .stalledRetry [] s (fun _ => True))

/-! ## The ports (09) -/

/-- A request frame at a port. With the buffer full it is discarded with OVERRUN and nothing else changes (R178). Otherwise the checks
are made in order: STARTING before start-up has ended, with a teller's duress mark kept for its end; UNKNOWN for a code that names no
request; then the approval of its class is consumed, and ROLE and LENGTH follow the tables (R179, R182, R184, R189). -/
def Obligations.PortChecksComeFirst : Prop :=
  ∀ (f : Frame) (s : State), s.powered = true → Quiet s → s.heard f.port →
    let q := s.ports.get f.port
    let refused (c : Instr) (code : Byte) (why : Reason) (rest : State → Prop) : Prop :=
      ∃ t : State,
        exec c s = .next t ∧ t.answered f.port = some ⟨f.tag, code, .refused, some why, q.faultsPending, .none⟩ ∧
          KeptBut [.ports] s t ∧ rest t
    let starting (c : Instr) (code : Byte) : Prop :=
      refused c code .starting
        (PortIs f.port q.frameFlag q.overrunFlag q.approval (q.duressPending || (f.duress && f.port.teller?.isSome)) s)
    let overruns (c : Instr) : Prop :=
      Does c [.ports] s (fun t =>
        PortIs f.port q.frameFlag true q.approval q.duressPending s t ∧ t.answered f.port = s.answered f.port ∧
          t.awaited f.port = s.awaited f.port)
    (∀ r : Request,
      (q.held.isSome → overruns (r.instr f)) ∧
      (q.held = none → s.startUp.phase ≠ .ready → starting (r.instr f) r.code) ∧
      (q.held = none → s.startUp.phase = .ready → Request.permitted r f.port = false →
        refused (r.instr f) r.code .role (fun t => ApprovalUsed r f s t ∧ DuressReported f s t)) ∧
      (q.held = none → s.startUp.phase = .ready → Request.permitted r f.port = true →
        Request.lengthOk r f.operands.length = false →
        refused (r.instr f) r.code .length (fun t => ApprovalUsed r f s t ∧ DuressReported f s t))) ∧
    ∀ code : Byte,
      (q.held.isSome → overruns (.unknownRequest code f)) ∧
      (q.held = none → s.startUp.phase ≠ .ready → starting (.unknownRequest code f) code) ∧
      (q.held = none → s.startUp.phase = .ready →
        refused (.unknownRequest code f) code .unknown (fun t =>
          PortIs f.port q.frameFlag q.overrunFlag q.approval q.duressPending s t ∧ DuressReported f s t))

/-- A discarded frame and a gap within a frame set the port's FRAME flag and leave its receiver hunting for the next frame (R177; that a
discarded one does so is the model's reading, notes/assumptions/42.md), a frame that finds the buffer full sets OVERRUN (R178);
CLEAR_FAULTS clears both and its reply carries them as they stood (R181). The end of a frame on the line goes on with the next part of a
reply; otherwise with a formed reply that waits, the buffer empty once a reply is over; otherwise with the first pending notice in the send
order, numbered and taken from its slot, at port M only while zone 14's input is NORMAL (R178, R185, R186); no ALARM_CHANGE is then still
due, as EveryStepEndsAtRest says of every step (R154). That a notice's faults-pending bit is read as it begins to be sent is the model's
choice (notes/assumptions/98.md). A reply is sent with as many parts after the first as its results take (R202; notes/assumptions/34.md).
That OVERRUN with an empty buffer changes nothing is the model's reading (notes/assumptions/8.md). -/
def Obligations.FaultsAndTransmitters : Prop :=
  (∀ (p : Port) (s : State), s.powered = true → Quiet s → s.heard p →
    let q := s.ports.get p
    let framed (t : State) : Prop :=
      PortIs p true q.overrunFlag q.approval q.duressPending s t ∧
        ∀ y : Port, (t.ports.get y).receiver = if y = p then .hunting else (s.ports.get y).receiver
    (∀ why : FrameFault, Does (.invalidFrame p why) [.ports] s framed) ∧ Does (.frameGapTimeout p) [.ports] s framed ∧
      (q.held.isSome → Does (.overrun p) [.ports] s (PortIs p q.frameFlag true q.approval q.duressPending s)) ∧
      (q.held = none → Does (.overrun p) [] s (fun _ => True))) ∧
  (∀ (f : Frame) (s : State), Taken .clearFaults f s →
    let q := s.ports.get f.port
    Does (.clearFaults f) [.ports] s (fun t =>
      t.answered f.port =
          some ⟨f.tag, Request.clearFaults.code, .ok, none, false, .faults q.frameFlag q.overrunFlag⟩ ∧
        PortIs f.port false false q.approval q.duressPending s t)) ∧
  ∀ (p : Port) (s : State), s.powered = true → Quiet s → s.restartSending = false → s.alarm.changed = false →
    let q := s.ports.get p
    let goesOn (held : Option Held) (t : State) : Prop :=
      (t.ports.get p).held = held ∧
        (s.noticesFlow p = false → (t.ports.get p).transmitter = .idle) ∧
        (s.noticesFlow p = true → (∀ k : NoticeKind, q.notices.get k = none) → (t.ports.get p).transmitter = .idle) ∧
        ∀ (k : NoticeKind) (x : Pending), s.noticesFlow p = true → FirstNotice q.notices k x →
          (t.ports.get p).transmitter = .notice x.notice q.noticeNumber q.faultsPending x.merged ∧
            (t.ports.get p).noticeNumber = q.noticeNumber + 1 ∧ (t.ports.get p).notices = q.notices.set k none
    (∀ (r : Reply) (n : Nat), q.transmitter = .reply r (n + 1) →
      Does (.frameSent p) [] s (fun t =>
        (t.ports.get p).transmitter = .reply r n ∧ (t.ports.get p).held = q.held)) ∧
    (∀ r : Reply, q.transmitter = .reply r 0 → Does (.frameSent p) [] s (goesOn none)) ∧
    ∀ (n : Notice) (number : Byte) (faults : Bool) (merged : Nat), q.transmitter = .notice n number faults merged →
      (∀ (code tag : Byte) (duress : Bool) (r : Reply), q.held = some ⟨code, tag, duress, .waiting r⟩ →
        Does (.frameSent p) [] s (fun t =>
          (t.ports.get p).transmitter = .reply r r.partsAfter ∧
            (t.ports.get p).held = some ⟨code, tag, duress, .sending⟩ ∧ (t.ports.get p).notices = q.notices)) ∧
      (q.held = none → Does (.frameSent p) [] s (goesOn none))

/-- POSITION_READ answers with the whole position, the escrow's notes, whether each check word matches, and the module state; with every
word matching nothing changes, and a word that fails adds INTEGRITY to the audit causes (R9, R12); that the report shows the audit state
before the failures it finds is the model's reading (notes/assumptions/33.md). APPROVE puts the approval in its target's slot and says what
it replaced; a target or class that names none, and at port S any class but DEPOSIT_OVERRIDE, is refused RANGE (R188). The expiry empties
the slot (R189). STATUS answers with the section asked for, and with the clock and the audit state; a section that names none, and DISPENSE
and ESCROW at port M, are refused RANGE; the seconds a timer has left and MOUTH's report are not fixed (R183; notes/assumptions/7.md). The
model's readings: what another port sees of an ESCROW record (notes/assumptions/46.md), the whole dispense record, window A's before window
B's (notes/assumptions/63.md), the head of the wait list counting as 1 (notes/assumptions/72.md), and port M, which has no approval slot,
shown whatever its port's state holds, which no command fills (notes/assumptions/87.md). -/
def Obligations.ApprovalsAndReports : Prop :=
  (∀ (f : Frame) (s : State), Taken .positionRead f s →
    let p := s.position
    let report : Results :=
      .position
        { position := p, escrow := stackNotes s.escrow.stack
          cassettesOk := ⟨p.cassettes.c1.intact, p.cassettes.c2.intact, p.cassettes.c3.intact, p.cassettes.c4.intact⟩
          drawerAOk := p.drawerA.intact, drawerBOk := p.drawerB.intact, branchOk := p.branchCash.intact
          moduleState := s.path.state }
    let sound : Prop :=
      (∀ k : Ix, (p.cassettes.get k).intact = true) ∧ ∀ a : AccountId, (p.account a).intact = true
    (sound → Replies (.positionRead f) .positionRead f .ok report [] s (fun _ => True)) ∧
      (¬sound →
        Replies (.positionRead f) .positionRead f .ok report [.position] s (IntegrityFound s))) ∧
  (∀ (f : Frame) (s : State), Taken .approve f s →
    let b (i : Nat) : Nat := (f.operands.getD i 0#8).toNat
    if b 0 = 0 ∨ 3 < b 0 ∨ b 1 = 0 ∨ 3 < b 1 ∨ (b 0 = 3 ∧ b 1 ≠ 1) then Refuses (.approve f) .approve f .range .none s
    else
      ∀ (p : Port) (c : ApprovalClass), portCode (some p) = b 0 → classOf (b 1) = some c →
        let q := s.ports.get p
        Replies (.approve f) .approve f .ok (.approved q.approval) [.ports] s
          (PortIs p q.frameFlag q.overrunFlag (some c) q.duressPending s)) ∧
  (∀ (p : Port) (s : State), s.running = true → Quiet s →
    let q := s.ports.get p
    Does (.approvalExpiry p) [.ports] s (PortIs p q.frameFlag q.overrunFlag none q.duressPending s)) ∧
  ∀ (f : Frame) (s : State), Taken .status f s →
    let q := s.ports.get f.port
    let gives (x : StatusSection) : Prop :=
      Replies (.status f) .status f .ok (.status x s.clock.count s.clock.invalid s.position.causes) [] s (fun _ => True)
    let ranged : Prop := Refuses (.status f) .status f .range .none s
    match (f.operands.headD 0#8).toNat with
    | 1 =>
      ∃ left : Nat, left ≤ 60 ∧ gives (.port q.frameFlag q.overrunFlag (q.approval.map (fun c => (c, left))))
    | 2 =>
      ∃ left : Nat, (∀ n, s.claim.idle = some n → left ≤ n) ∧
        gives (.module s.claim.owner s.claim.waiting (s.claim.idle.map (fun _ => left)) s.path.state)
    | 3 =>
      match f.port with
      | .a => gives (.dispense [s.shownDispense .a])
      | .b => gives (.dispense [s.shownDispense .b])
      | .s => gives (.dispense [s.shownDispense .a, s.shownDispense .b])
      | .m => ranged
    | 4 =>
      let e := s.escrow
      if f.port = .m then ranged
      else if f.port = .s ∨ (e.isOpen = true ∧ f.port = e.owner.port) then
        gives (.escrow e.isOpen e.owner e.purpose (drawerOf e.owner) e.declared e.verdict e.stack)
      else gives (.escrowOther e.isOpen e.owner)
    | 5 =>
      let d := s.depository
      ∃ mouth : Bool,
        gives
          (.slot d.slot d.phase d.supervisorOpen
            ⟨decide (s.settings.binCapacity ≤ d.bin.count), s.restricted .slotClose, !d.supervisorOpen⟩ d.envelope d.sequence
            d.bin s.settings.binCapacity d.pullbacks.length d.imprinterFault d.receiptOut mouth)
    | 6 =>
      if f.port = .a ∨ f.port = .b then gives (.alarmTeller s.alarm.restriction) else gives (.alarm s.alarm.summary)
    | 7 => gives (.journal s.journal.figures)
    | _ => ranged

/-- Each tick the count rises by one, wrapping, and CLOCK_INVALID is set as it rises past the last second of 2099 (R190). CLOCK_SET of a
second that the calendar does not name is refused RANGE; accepted, it sets the count and clears CLOCK_INVALID, moves the delay ends by
the same shift, empties the pullback list and writes its SETTING record with the new count (R191). That CLOCK_CALENDAR_END at any other
count changes nothing is the model's reading (notes/assumptions/8.md). -/
def Obligations.ClockCountsAndIsSet : Prop :=
  (∀ s : State, (s.powered = true → Quiet s) →
    Does .clockTick [.clock] s (fun t =>
        t.clock = ⟨s.clock.count + 1, s.clock.invalid || (s.clock.count + 1).toNat == 3155760000⟩) ∧
      (s.clock.count.toNat = 3155759999 → Does .clockCalendarEnd [.clock] s (fun t => t.clock = ⟨3155760000, true⟩)) ∧
      (s.clock.count.toNat ≠ 3155759999 → Does .clockCalendarEnd [] s (fun _ => True))) ∧
  ∀ (f : Frame) (s : State), Taken .clockSet f s →
    let b (i : Nat) : Nat := (f.operands.getD i 0#8).toNat
    let year := 256 * b 0 + b 1
    let leap : Bool := year % 4 == 0
    let days (month : Nat) : Nat :=
      if month = 2 then (if leap then 29 else 28)
      else if month = 4 ∨ month = 6 ∨ month = 9 ∨ month = 11 then 30 else 31
    if year < 2000 ∨ 2099 < year ∨ b 2 = 0 ∨ 12 < b 2 ∨ b 3 = 0 ∨ days (b 2) < b 3 ∨ 23 < b 4 ∨ 59 < b 5 ∨ 59 < b 6 then
      Refuses (.clockSet f) .clockSet f .range .none s
    else
      (∀ why : Reason, s.journal.roomCheck 1 1 = some why →
        Refuses (.clockSet f) .clockSet f why s.journal.roomFigures s) ∧
      ∀ n : Nat, RoomFor 1 1 s → s.journal.next = some n →
        let earlier := ((List.range (b 2)).map days).foldl (· + ·) 0 - 31
        let day := 365 * (year - 2000) + (year - 2000 + 3) / 4 + earlier + (b 3 - 1)
        let count := BitVec.ofNat 32 (86400 * day + 3600 * b 4 + 60 * b 5 + b 6)
        let moved (d : Dispense) : Dispense :=
          if d.state = .delaying then { d with delayEnd := d.delayEnd + (count - s.clock.count) } else d
        Replies (.clockSet f) .clockSet f .ok (.clock s.clock.count count) [.clock, .dispenses, .depository, .journal] s
          (fun t =>
            t.clock = ⟨count, false⟩ ∧ t.dispenses = ⟨moved s.dispenses.a, moved s.dispenses.b⟩ ∧
              DepositoryIs { s.depository with pullbacks := [] } t ∧
              ∃ r : Record,
                t.journal.staging = s.journal.staging ++ [r] ∧ r.sequence = n ∧ r.kind = .setting ∧ r.outcome = 3 ∧
                  r.time = count ∧ r.marks.clockInvalid = false)

/-! ## Settings and start-up (10) -/

/-- SET makes its checks in order: RANGE, BAD_DIGIT, BUSY, IN_USE with the first place that holds the denomination, room (R194, R195).
Accepted, it applies the value within the range of the table, answers OK or CLAMPED with the value before and the value applied, and
writes its SETTING record; a cassette's capacity and low threshold derive its state anew, a bin capacity the near-full mark and the permit
(R132, R193, R195, R196), and a cassette that so enters LOW or EMPTY is told to port S as CASSETTE_LOW (R5). The record names the setting
and, for a setting of a denomination or a cassette, its number in its extra field (R196). The model's readings: the
clauses that read a cassette record ask that its check word matches (notes/assumptions/22.md); the extra field holds the setting's
identifier and the number, zero where the setting has none, as the two bytes of SET's operands (notes/assumptions/23.md); a cassette's
capacity keeps room for a note on its way to it, after the limits of the table (notes/assumptions/47.md); and with a mode and index the
bytes that SET's table does not use, an index beside DEPOSIT among them, are not read and leave the answer OK (notes/assumptions/109.md). -/
def Obligations.SetChecksAndApplies : Prop :=
  ∀ (f : Frame) (s : State), Taken .setSetting f s →
    let b (i : Nat) : Nat := (f.operands.getD i 0#8).toNat
    let v := 256 * b 4 + b 5
    let within (low high x : Nat) : Nat := max low (min high x)
    let money := f.operands.drop 2
    let refused := fun (why : Reason) (results : Results) => Refuses (.setSetting f) .setSetting f why results s
    let accepts (before applied : List Byte) (clamped : Bool) (changed : List Block) (effect : State → Prop) : Prop :=
      (∀ why : Reason, s.journal.roomCheck 1 1 = some why → refused why s.journal.roomFigures) ∧
        ∀ n : Nat, RoomFor 1 1 s → s.journal.next = some n →
          Replies (.setSetting f) .setSetting f (if clamped then .clamped else .ok) (.setting before applied)
            (.journal :: changed) s (fun t =>
              effect t ∧
                Recorded n
                  (fun x =>
                    x.kind = .setting ∧ x.port = some .s ∧ x.outcome = 1 ∧ x.counts = Quad.all 0 ∧ x.amount = 0 ∧
                      x.extra = 256 * b 0 + (if b 0 ≤ 4 then b 1 else 0) ∧
                      x.detail = .setting (before ++ List.replicate 4 0#8) (applied ++ List.replicate 4 0#8))
                  s t)
    let amount (old x applied : Nat) (after : Settings) : Prop :=
      accepts (writeU4 old) (writeU4 applied) (applied != x) [.settings] (fun t => t.settings = after)
    let whole (old applied : Nat) (changed : List Block) (effect : State → Prop) : Prop :=
      accepts ([0#8, 0#8] ++ bytesOf 2 old) ([0#8, 0#8] ++ bytesOf 2 applied) (applied != v) changed effect
    let number (old applied : Nat) (after : Settings) : Prop := whole old applied [.settings] (fun t => t.settings = after)
    if b 0 = 0 ∨ 14 < b 0 ∨ (b 0 ≤ 4 ∧ (b 1 = 0 ∨ 4 < b 1)) then refused .range .none
    else if b 0 = 1 ∨ b 0 = 5 ∨ b 0 = 8 ∨ b 0 = 9 ∨ b 0 = 12 then
      (∀ p : Nat, readU4 money = .error p → refused .badDigit (.badDigit 1 p)) ∧
      ∀ x : Nat, readU4 money = .ok x →
        (b 0 = 1 → ∀ d : Ix, d.number = b 1 →
          let places : List (Place × Int) :=
            Ix.all.map (fun k => (Place.cassette k, ((s.position.cassettes.get k).counts.get d : Int))) ++
              [(.escrow, ((stackNotes s.escrow.stack).get d : Int)), (.transit, (s.position.transit.get d : Int)),
                (.pocket .a, (s.position.pockets.a.get d : Int)), (.pocket .b, (s.position.pockets.b.get d : Int)),
                (.reject, (s.position.reject.get d : Int)), (.retract, (s.position.retract.get d : Int)),
                (.discrepancy, s.position.discrepancy.get d)]
          if s.anyOpInFlight then refused .busy .none
          else
            (∀ k : Ix, (s.position.cassettes.get k).intact = true) →
            match places.find? (fun y => y.2 ≠ 0) with
            | some y => refused .inUse (.inUse y.1)
            | none =>
              let applied := if x = 0 then 0 else within 100 999999 x
              amount (s.settings.denominations.get d) x applied
                { s.settings with denominations := s.settings.denominations.set d applied }) ∧
        (b 0 = 5 → amount s.settings.delayThreshold x x { s.settings with delayThreshold := x }) ∧
        (b 0 = 8 → amount s.settings.holdupCap x (min 999999 x) { s.settings with holdupCap := min 999999 x }) ∧
        (b 0 = 9 → amount s.settings.remainderLimit x (min 999 x) { s.settings with remainderLimit := min 999 x }) ∧
        (b 0 = 12 → amount s.settings.postingLimit x x { s.settings with postingLimit := x })
    else
      (b 0 = 2 → ∀ k : Ix, k.number = b 1 →
        let c := s.position.cassettes.get k
        if b 2 = 0 ∨ 3 < b 2 ∨ (b 2 ≠ 3 ∧ (b 3 = 0 ∨ 4 < b 3)) then refused .range .none
        else if s.anyOpInFlight then refused .busy .none
        else
          c.intact = true →
          if 0 < c.counts.total then refused .inUse .none
          else
            ∀ mode : CassetteMode, modeCode mode = b 2 →
              let index : Option Ix := if b 2 = 3 then none else ixOf (b 3)
              accepts (modeBytes c.mode c.index) (modeBytes mode index) false [.position] (fun t =>
                t.position =
                  { s.position with cassettes := s.position.cassettes.set k { c with mode := mode, index := index } })) ∧
      (∀ k : Ix, k.number = b 1 → (s.position.cassettes.get k).intact = true →
        let c := s.position.cassettes.get k
        let onItsWay : Bool :=
          match s.escrow.op with
          | some (.commit o) => o.chosen == some k && !o.lost && o.ended.isNone
          | _ => false
        let capacity := max (c.counts.total + onItsWay.toNat) (within 100 2500 v)
        let becomes (x : Cassette) (t : State) : Prop :=
          t.position = { s.position with cassettes := s.position.cassettes.set k x.rederive } ∧
            (c.mode ≠ .deposit → x.rederive.state ≠ c.state → x.rederive.state = .low ∨ x.rederive.state = .empty →
              Told .s (.cassetteLow k x.rederive.state x.rederive.total) t)
        (b 0 = 3 → whole c.capacity capacity [.position] (becomes { c with capacity := capacity })) ∧
        (b 0 = 4 → whole c.low (min 500 v) [.position] (becomes { c with low := min 500 v }))) ∧
      (b 0 = 6 → number s.settings.delayTime (within 10 900 v) { s.settings with delayTime := within 10 900 v }) ∧
      (b 0 = 7 → number s.settings.holdupExtension (min 900 v) { s.settings with holdupExtension := min 900 v }) ∧
      (b 0 = 10 → number s.settings.presentTimeout (within 5 120 v) { s.settings with presentTimeout := within 5 120 v }) ∧
      (b 0 = 11 → number s.settings.idleTimeout (within 30 600 v) { s.settings with idleTimeout := within 30 600 v }) ∧
      (b 0 = 13 →
        let d := s.depository
        let capacity := max (d.bin.count + d.envelope.isSome.toNat) (within 100 1500 v)
        let near : Bool := capacity ≤ d.bin.count + 40
        whole s.settings.binCapacity capacity [.settings, .depository] (fun t =>
          t.settings = { s.settings with binCapacity := capacity } ∧
            DepositoryIs
              (Depository.judged { d with bin := { d.bin with nearFull := near } }
                (decide (d.bin.count < capacity) && !s.restricted .slotClose && d.supervisorOpen))
              t ∧
            (near = true → d.bin.nearFull = false → Told .s (.binNearFull d.bin.count capacity false) t))) ∧
      (b 0 = 14 → number s.settings.entryDelay (within 5 120 v) { s.settings with entryDelay := within 5 120 v })

/-- The causes of a reset (R197, R198). POWER_LOSS stops everything and keeps what the reset keeps. SUPPLY_APPLIED begins start-up: with a
good memory check the settings, the clock, the position, the escrow record, the zones and the envelope controller are what BatteryKept
says, kept but for start-up's own steps, the records staged are lost and the gap check stands for them; with a failed one they take their
cold-start values as ColdStarted says, and of the journal what is durable and its reservations are kept. RESET_LINE, and the end of the
reply to RESTART, begin a warm start-up, which first writes out the records staged, and raises the OP_DONEs that wait on them; until then
KeptAtReset says what is kept, and BatteryKept afterwards (R8, R9, R20, R22, R23, R26, R65, R92, R93, R116, R128, R134, R158, R174, R175,
R190, R196). A full RETRACT BIN, which ends the purge at once (R66), is left out here, and so are the records of start-up's own steps but
the first, and the sounder before start-up ends. The model's readings: POWER_LOSS leaves every field as it is until the supply returns
(notes/assumptions/52.md); FRAME_SENT begins the warm start-up (notes/assumptions/30.md); an OP_DONE lives as long as the record it waits
on (notes/assumptions/29.md); every warm reset with records staged, not a STALLED one alone, has three fresh write attempts
(notes/assumptions/53.md); a cause that finds nothing to do changes nothing (notes/assumptions/8.md); the reads of the cassette records
verify their words (notes/assumptions/22.md); an operation cut takes its generation step (notes/assumptions/28.md); the permit is judged
where SLOT_CLOSE changes during start-up (notes/assumptions/59.md); TAKE ENVELOP goes, the intake phase shows FIRST_PULL, and an entry
timing keeps the port that began it (notes/assumptions/77.md, 83.md, 78.md). -/
def Obligations.ResetsBeginStartUp : Prop :=
  (∀ s : State, exec .powerLoss s = .next { s with startUp := { s.startUp with phase := .off } }) ∧
  (∀ (s : State) (good drum path : Bool), s.powered = true → Quiet s → Does (.supplyApplied good drum path) [] s (fun _ => True)) ∧
  (∀ (s : State) (drum path : Bool), s.powered = false →
    (s.position.retract.total < Config.retractNotes → ∃ t : State,
      exec (.supplyApplied true drum path) s = .next t ∧
        StartUpBegun .powerUp false { s.journal with waitingDone := [] } s.position s.escrow.stack t ∧
        BatteryKept s.journal.durable s t) ∧
    ∃ t : State,
      exec (.supplyApplied false drum path) s = .next t ∧
        StartUpBegun .cold drum { s.journal with waitingDone := [] }
          (Position.cold s.pins.cassettePresent s.journal.durable) [] t ∧
        ColdStarted path s t) ∧
  (∀ (f : Frame) (s : State), Taken .restart f s → Replies (.restart f) .restart f .ok .none [] s (fun _ => True)) ∧
  (∀ s : State, s.powered = false → exec .resetLine s = .next s) ∧
  (∀ s : State, s.powered = true → s.restartSending = false → Quiet s → Does .restartReset [] s (fun _ => True)) ∧
  (∀ (c : Instr) (w : WarmSource) (s : State), s.powered = true →
    (c = .resetLine ∧ w = .resetLine) ∨ ((c = .frameSent .s ∨ c = .restartReset) ∧ w = .restart ∧ s.restartSending = true) →
    (s.journal.staging = [] → s.position.retract.total < Config.retractNotes →
      ∃ t : State,
        exec c s = .next t ∧
          StartUpBegun (.warm w) false { s.journal with waitingDone := [] } s.position s.escrow.stack t ∧
          BatteryKept s.journal.durable s t) ∧
    (s.journal.staging ≠ [] →
      ∃ t : State,
        exec c s = .next t ∧ t.startUp = ⟨.check, .warm w⟩ ∧ KeptAtReset s t ∧
          t.dispenses = ⟨Dispense.idle, Dispense.idle⟩ ∧ ClaimIs (if s.escrow.stack = [] then .none else .hold) [] t ∧
          t.path = { state := .purging, pick := none, draw := none, purge := none, timers := [] } ∧
          t.ports = ⟨PortState.reset, PortState.reset, PortState.reset, PortState.reset⟩ ∧ t.journal.endHold = [] ∧
          t.journal.staging = s.journal.staging ∧
          t.journal.retained = s.journal.retained ∧ t.journal.durable = s.journal.durable ∧
          t.journal.reservations = s.journal.reservations ∧ t.journal.waitingDone = s.journal.waitingDone ∧
          t.journal.write = .writing ∧ t.journal.writing = true ∧ t.journal.attempts = 0)) ∧
  ∀ (r : Record) (w : WarmSource) (s : State), s.startUp = ⟨.check, .warm w⟩ → s.journal.writing = true →
    s.journal.staging = [r] → s.journal.endHold = [] →
    s.dispenses = ⟨Dispense.idle, Dispense.idle⟩ → s.claim.waiting = [] →
    (s.claim.owner = if s.escrow.stack = [] then .none else .hold) →
    s.ports = ⟨PortState.reset, PortState.reset, PortState.reset, PortState.reset⟩ →
    s.position.retract.total < Config.retractNotes → KeptAtReset s s →
    s.path = { state := .purging, pick := none, draw := none, purge := none, timers := [] } →
    ∃ t : State,
      exec .writeComplete s = .next t ∧ BatteryKept r.sequence s t ∧
        StartUpBegun (.warm w) false
            { s.journal with
              retained := s.journal.retained ++ [r], durable := r.sequence
              waitingDone := s.journal.waitingDone.filter (fun x => x.done.closing ≠ r.sequence) }
            s.position s.escrow.stack t ∧
          ∀ x ∈ s.journal.waitingDone, x.done.closing = r.sequence →
            (∀ y ∈ s.journal.waitingDone, y.done.closing = r.sequence → y.port = x.port → y = x) →
            Told x.port (.opDone x.done) t

/-- Start-up ends once the purge and the slot's run have ended: the phase is READY, the owner is HOLD with notes in escrow, port S then
being granted it, and NONE without; the permit is judged, the sounder sounds for a zone PENDING_ACTIVE with SOUNDER, the silent line
follows the set, the POWER_UP record is written, RESTRICTION, ALARM_CHANGE and RESTARTED are raised, and a teller's duress mark kept is
taken; an OPEN record without notes is closed (R56, R97, R118, R158, R184, R187, R200). The model's readings: a START_UP_READY before the
purge and the run have ended changes nothing (notes/assumptions/8.md), and the duress mark is taken in that same step
(notes/assumptions/56.md). That ALARM_CHANGE lists the zones by ascending number is the model's choice (notes/assumptions/108.md). -/
def Obligations.StartUpEnds : Prop :=
  ∀ s : State, s.startUp.phase = .purge → Quiet s →
    let ended : Prop := s.path.purge = none ∧ s.depository.clearing = none
    let owner : Owner := if s.escrow.stack = [] then .none else .hold
    let kind := s.startUp.kind
    let sounds : Prop := ∃ z, (s.zone z).state = .pendingActive ∧ Effects.has (s.zone z).config.effects .sounder = true
    (¬ended → Does .startUpReady [] s (fun _ => True)) ∧
    (∀ n : Nat, ended → s.ports.a.duressPending = false → s.ports.b.duressPending = false → s.journal.eventRoom = true →
      s.journal.next = some n →
      Does .startUpReady [.startUp, .claim, .escrow, .depository, .alarm, .journal] s (fun t =>
        t.startUp = ⟨.ready, kind⟩ ∧ ClaimIs owner s.claim.waiting t ∧ (owner = .hold → Told .s (.grant .hold) t) ∧
          t.escrow = { s.escrow with isOpen := if s.escrow.stack = [] then false else s.escrow.isOpen } ∧
          DepositoryIs
            (s.depository.judged
              (decide (s.depository.bin.count < s.settings.binCapacity) && !s.restricted .slotClose &&
                s.depository.supervisorOpen))
            t ∧
          (sounds → AlarmIs
            { s.alarm with
              sounder := true, sounderTimer := some 300, silentLine := Effects.has s.alarm.restriction .silentLine }
            t) ∧
          (¬sounds → AlarmIs { s.alarm with silentLine := Effects.has s.alarm.restriction .silentLine } t) ∧
          Recorded n
            (fun x =>
              x.kind = .powerUp ∧ x.port = none ∧
                x.outcome = (match kind with | .powerUp => 1 | .warm _ => 2 | .cold => 3) ∧
                x.counts = ⟨if kind = .cold then 1 else 0, 0, 0, 0⟩ ∧ x.amount = 0)
            s t ∧
          (∀ p : Port, Told p (.restarted kind n s.position.causes owner) t) ∧
          (∀ p : Port, p ≠ .m → Told p (.restriction s.alarm.restriction s.position.causes) t) ∧
          Told .m t.alarmNotice t)) ∧
    (∀ w : Teller, ended → (s.ports.get w.port).duressPending = true → (s.zone 15).inputActive = false →
      s.alarm.eligible 15 = true → (s.zone 15).config.type ≠ .intrusionDelayed →
      (s.zone 15).state = .quiet ∨ (s.zone 15).state = .pendingActive ∨ (s.zone 15).state = .pendingRestored →
      ∃ t : State,
        exec .startUpReady s = .next t ∧ t.startUp.phase = .ready ∧ (t.zone 15).state = .pendingRestored ∧
          (t.ports.get w.port).duressPending = false)

/-- Whatever the command, while the part has its supply the step ends with the display showing the line of R121, the claim idle timer
running exactly where R53 says so, every ALARM_CHANGE due raised (R154), and no idle transmitter with something to send (R186). -/
def Obligations.EveryStepEndsAtRest : Prop := ∀ (c : Instr) (s t : State), exec c s = .next t → AtRest t
end

