-- ==== Sys2Proof/Laws/State.lean ====
section
/-!
SUPPORT. What each field update of the state gives back, field by field: one simp lemma for each, so that no proof unfolds a record
update.
-/
namespace Sys2Proof.Machine

/-! ## Parts by index -/

@[simp] theorem Pair.get_set_self {α : Type} (p : Pair α) (t : Teller) (x : α) : (p.set t x).get t = x := by
  cases t <;> rfl

theorem Pair.get_set_other {α : Type} (p : Pair α) (t u : Teller) (x : α) (h : u ≠ t) : (p.set t x).get u = p.get u := by
  cases t <;> cases u <;> first | rfl | exact absurd rfl h

@[simp] theorem Quad.get_set_self {α : Type} (q : Quad α) (k : Ix) (x : α) : (q.set k x).get k = x := by
  cases k <;> rfl

theorem Quad.get_set_other {α : Type} (q : Quad α) (k l : Ix) (x : α) (h : l ≠ k) : (q.set k x).get l = q.get l := by
  cases k <;> cases l <;> first | rfl | exact absurd rfl h

@[simp] theorem Quad.get_all {α : Type} (x : α) (k : Ix) : (Quad.all x).get k = x := by cases k <;> rfl

@[simp] theorem Quad.get_add (p q : Quad Nat) (k : Ix) : (Quad.add p q).get k = p.get k + q.get k := by cases k <;> rfl

@[simp] theorem Position.account_setAccount_self (p : Position) (a : AccountId) (r : Account) :
    (p.setAccount a r).account a = r := by
  cases a <;> rfl

theorem Position.account_setAccount_other (p : Position) (a b : AccountId) (r : Account) (h : b ≠ a) :
    (p.setAccount a r).account b = p.account b := by
  cases a <;> cases b <;> first | rfl | exact absurd rfl h

@[simp] theorem Position.setCassette_cassettes (p : Position) (k : Ix) (c : Cassette) :
    (p.setCassette k c).cassettes = p.cassettes.set k c := rfl

@[simp] theorem AlarmUnit.zone_setZone_self (u : AlarmUnit) (z : Fin 16) (r : Zone) : (u.setZone z r).zone z = r := by
  simp [AlarmUnit.zone, AlarmUnit.setZone, Vector.get_eq_getElem]

theorem AlarmUnit.zone_setZone_other (u : AlarmUnit) (z y : Fin 16) (r : Zone) (h : y ≠ z) :
    (u.setZone z r).zone y = u.zone y := by
  have : z.val ≠ y.val := fun e => h (Fin.ext e.symm)
  simp [AlarmUnit.zone, AlarmUnit.setZone, Vector.get_eq_getElem, Vector.getElem_set, this]

@[simp] theorem State.onDispense_dispense_self (s : State) (t : Teller) (f : Dispense → Dispense) :
    (s.onDispense t f).dispense t = f (s.dispense t) := Pair.get_set_self _ _ _

theorem State.onDispense_dispense_other (s : State) (t u : Teller) (f : Dispense → Dispense) (h : u ≠ t) :
    (s.onDispense t f).dispense u = s.dispense u := Pair.get_set_other _ _ _ _ h

/-! ## Field updates -/

/-- State.onPort changes ports alone. -/
@[simp] theorem State.onPort_keeps (s : State) (p : Port) (f : PortState → PortState) :
    (s.onPort p f).startUp = s.startUp ∧ (s.onPort p f).clock = s.clock ∧ (s.onPort p f).pins = s.pins ∧
      (s.onPort p f).position = s.position ∧ (s.onPort p f).settings = s.settings ∧ (s.onPort p f).claim = s.claim ∧
      (s.onPort p f).path = s.path ∧ (s.onPort p f).dispenses = s.dispenses ∧ (s.onPort p f).escrow = s.escrow ∧
      (s.onPort p f).depository = s.depository ∧ (s.onPort p f).alarm = s.alarm ∧ (s.onPort p f).journal = s.journal ∧
      (s.onPort p f).freeCount = s.freeCount ∧ (s.onPort p f).pending = s.pending :=
  ⟨rfl, rfl, rfl, rfl, rfl, rfl, rfl, rfl, rfl, rfl, rfl, rfl, rfl, rfl⟩

/-- State.onDispense changes dispenses alone. -/
@[simp] theorem State.onDispense_keeps (s : State) (p : Teller) (f : Dispense → Dispense) :
    (s.onDispense p f).startUp = s.startUp ∧ (s.onDispense p f).clock = s.clock ∧ (s.onDispense p f).pins = s.pins ∧
      (s.onDispense p f).position = s.position ∧ (s.onDispense p f).settings = s.settings ∧
      (s.onDispense p f).claim = s.claim ∧ (s.onDispense p f).path = s.path ∧ (s.onDispense p f).escrow = s.escrow ∧
      (s.onDispense p f).depository = s.depository ∧ (s.onDispense p f).alarm = s.alarm ∧
      (s.onDispense p f).journal = s.journal ∧ (s.onDispense p f).ports = s.ports ∧
      (s.onDispense p f).freeCount = s.freeCount ∧ (s.onDispense p f).pending = s.pending :=
  ⟨rfl, rfl, rfl, rfl, rfl, rfl, rfl, rfl, rfl, rfl, rfl, rfl, rfl, rfl⟩

/-- State.onPosition changes position alone. -/
@[simp] theorem State.onPosition_keeps (s : State) (f : Position → Position) :
    (s.onPosition f).startUp = s.startUp ∧ (s.onPosition f).clock = s.clock ∧ (s.onPosition f).pins = s.pins ∧
      (s.onPosition f).settings = s.settings ∧ (s.onPosition f).claim = s.claim ∧ (s.onPosition f).path = s.path ∧
      (s.onPosition f).dispenses = s.dispenses ∧ (s.onPosition f).escrow = s.escrow ∧
      (s.onPosition f).depository = s.depository ∧ (s.onPosition f).alarm = s.alarm ∧ (s.onPosition f).journal = s.journal ∧
      (s.onPosition f).ports = s.ports ∧ (s.onPosition f).freeCount = s.freeCount ∧ (s.onPosition f).pending = s.pending :=
  ⟨rfl, rfl, rfl, rfl, rfl, rfl, rfl, rfl, rfl, rfl, rfl, rfl, rfl, rfl⟩

@[simp] theorem State.onPosition_position (s : State) (f : Position → Position) : (s.onPosition f).position = f s.position := rfl

/-- State.onPath changes path alone. -/
@[simp] theorem State.onPath_keeps (s : State) (f : NotePath → NotePath) :
    (s.onPath f).startUp = s.startUp ∧ (s.onPath f).clock = s.clock ∧ (s.onPath f).pins = s.pins ∧
      (s.onPath f).position = s.position ∧ (s.onPath f).settings = s.settings ∧ (s.onPath f).claim = s.claim ∧
      (s.onPath f).dispenses = s.dispenses ∧ (s.onPath f).escrow = s.escrow ∧ (s.onPath f).depository = s.depository ∧
      (s.onPath f).alarm = s.alarm ∧ (s.onPath f).journal = s.journal ∧ (s.onPath f).ports = s.ports ∧
      (s.onPath f).freeCount = s.freeCount ∧ (s.onPath f).pending = s.pending :=
  ⟨rfl, rfl, rfl, rfl, rfl, rfl, rfl, rfl, rfl, rfl, rfl, rfl, rfl, rfl⟩

@[simp] theorem State.onPath_path (s : State) (f : NotePath → NotePath) : (s.onPath f).path = f s.path := rfl

/-- State.onEscrow changes escrow alone. -/
@[simp] theorem State.onEscrow_keeps (s : State) (f : Escrow → Escrow) :
    (s.onEscrow f).startUp = s.startUp ∧ (s.onEscrow f).clock = s.clock ∧ (s.onEscrow f).pins = s.pins ∧
      (s.onEscrow f).position = s.position ∧ (s.onEscrow f).settings = s.settings ∧ (s.onEscrow f).claim = s.claim ∧
      (s.onEscrow f).path = s.path ∧ (s.onEscrow f).dispenses = s.dispenses ∧ (s.onEscrow f).depository = s.depository ∧
      (s.onEscrow f).alarm = s.alarm ∧ (s.onEscrow f).journal = s.journal ∧ (s.onEscrow f).ports = s.ports ∧
      (s.onEscrow f).freeCount = s.freeCount ∧ (s.onEscrow f).pending = s.pending :=
  ⟨rfl, rfl, rfl, rfl, rfl, rfl, rfl, rfl, rfl, rfl, rfl, rfl, rfl, rfl⟩

@[simp] theorem State.onEscrow_escrow (s : State) (f : Escrow → Escrow) : (s.onEscrow f).escrow = f s.escrow := rfl

/-- State.onDepository changes depository alone. -/
@[simp] theorem State.onDepository_keeps (s : State) (f : Depository → Depository) :
    (s.onDepository f).startUp = s.startUp ∧ (s.onDepository f).clock = s.clock ∧ (s.onDepository f).pins = s.pins ∧
      (s.onDepository f).position = s.position ∧ (s.onDepository f).settings = s.settings ∧
      (s.onDepository f).claim = s.claim ∧ (s.onDepository f).path = s.path ∧ (s.onDepository f).dispenses = s.dispenses ∧
      (s.onDepository f).escrow = s.escrow ∧ (s.onDepository f).alarm = s.alarm ∧ (s.onDepository f).journal = s.journal ∧
      (s.onDepository f).ports = s.ports ∧ (s.onDepository f).freeCount = s.freeCount ∧ (s.onDepository f).pending = s.pending :=
  ⟨rfl, rfl, rfl, rfl, rfl, rfl, rfl, rfl, rfl, rfl, rfl, rfl, rfl, rfl⟩

@[simp] theorem State.onDepository_depository (s : State) (f : Depository → Depository) : (s.onDepository f).depository = f s.depository := rfl

/-- State.onAlarm changes alarm alone. -/
@[simp] theorem State.onAlarm_keeps (s : State) (f : AlarmUnit → AlarmUnit) :
    (s.onAlarm f).startUp = s.startUp ∧ (s.onAlarm f).clock = s.clock ∧ (s.onAlarm f).pins = s.pins ∧
      (s.onAlarm f).position = s.position ∧ (s.onAlarm f).settings = s.settings ∧ (s.onAlarm f).claim = s.claim ∧
      (s.onAlarm f).path = s.path ∧ (s.onAlarm f).dispenses = s.dispenses ∧ (s.onAlarm f).escrow = s.escrow ∧
      (s.onAlarm f).depository = s.depository ∧ (s.onAlarm f).journal = s.journal ∧ (s.onAlarm f).ports = s.ports ∧
      (s.onAlarm f).freeCount = s.freeCount ∧ (s.onAlarm f).pending = s.pending :=
  ⟨rfl, rfl, rfl, rfl, rfl, rfl, rfl, rfl, rfl, rfl, rfl, rfl, rfl, rfl⟩

@[simp] theorem State.onAlarm_alarm (s : State) (f : AlarmUnit → AlarmUnit) : (s.onAlarm f).alarm = f s.alarm := rfl

/-- State.onJournal changes journal alone. -/
@[simp] theorem State.onJournal_keeps (s : State) (f : Journal → Journal) :
    (s.onJournal f).startUp = s.startUp ∧ (s.onJournal f).clock = s.clock ∧ (s.onJournal f).pins = s.pins ∧
      (s.onJournal f).position = s.position ∧ (s.onJournal f).settings = s.settings ∧ (s.onJournal f).claim = s.claim ∧
      (s.onJournal f).path = s.path ∧ (s.onJournal f).dispenses = s.dispenses ∧ (s.onJournal f).escrow = s.escrow ∧
      (s.onJournal f).depository = s.depository ∧ (s.onJournal f).alarm = s.alarm ∧ (s.onJournal f).ports = s.ports ∧
      (s.onJournal f).freeCount = s.freeCount ∧ (s.onJournal f).pending = s.pending :=
  ⟨rfl, rfl, rfl, rfl, rfl, rfl, rfl, rfl, rfl, rfl, rfl, rfl, rfl, rfl⟩

@[simp] theorem State.onJournal_journal (s : State) (f : Journal → Journal) : (s.onJournal f).journal = f s.journal := rfl

/-- A fresh index changes its counter alone. -/
@[simp] theorem State.takeFree_keeps (s : State) :
    s.takeFree.2.startUp = s.startUp ∧ s.takeFree.2.clock = s.clock ∧ s.takeFree.2.pins = s.pins ∧
      s.takeFree.2.position = s.position ∧ s.takeFree.2.settings = s.settings ∧ s.takeFree.2.claim = s.claim ∧
      s.takeFree.2.path = s.path ∧ s.takeFree.2.dispenses = s.dispenses ∧ s.takeFree.2.escrow = s.escrow ∧
      s.takeFree.2.depository = s.depository ∧ s.takeFree.2.alarm = s.alarm ∧ s.takeFree.2.journal = s.journal ∧
      s.takeFree.2.ports = s.ports ∧ s.takeFree.2.pending = s.pending :=
  ⟨rfl, rfl, rfl, rfl, rfl, rfl, rfl, rfl, rfl, rfl, rfl, rfl, rfl, rfl⟩

@[simp] theorem State.takeFree_index (s : State) : s.takeFree.1 = s.freeCount := rfl

@[simp] theorem State.takeFree_freeCount (s : State) : s.takeFree.2.freeCount = s.freeCount + 1 := rfl

end Sys2Proof.Machine
end

