-- ==== Sys2Proof/Laws/Frames.lean ====
section
/-!
SUPPORT. What each shared operation leaves as it was: one lemma for each, so that no proof unfolds an operation to see that a field
stayed.
-/
namespace Sys2Proof.Machine

/-! ## Shared operations -/

@[simp] theorem raise_keeps (p : Port) (x : Notice) (s : State) :
    (raise p x s).startUp = s.startUp ∧ (raise p x s).clock = s.clock ∧ (raise p x s).pins = s.pins ∧
      (raise p x s).position = s.position ∧ (raise p x s).settings = s.settings ∧ (raise p x s).claim = s.claim ∧
      (raise p x s).path = s.path ∧ (raise p x s).dispenses = s.dispenses ∧ (raise p x s).escrow = s.escrow ∧
      (raise p x s).depository = s.depository ∧ (raise p x s).alarm = s.alarm ∧ (raise p x s).journal = s.journal ∧
      (raise p x s).freeCount = s.freeCount ∧ (raise p x s).pending = s.pending := by
  unfold raise
  try simp only []
  refine ⟨?_, ?_, ?_, ?_, ?_, ?_, ?_, ?_, ?_, ?_, ?_, ?_, ?_, ?_⟩ <;> ((repeat' split) <;> simp)

@[simp] theorem raiseTo_keeps (ps : List Port) (x : Notice) (s : State) :
    (raiseTo ps x s).startUp = s.startUp ∧ (raiseTo ps x s).clock = s.clock ∧ (raiseTo ps x s).pins = s.pins ∧
      (raiseTo ps x s).position = s.position ∧ (raiseTo ps x s).settings = s.settings ∧ (raiseTo ps x s).claim = s.claim ∧
      (raiseTo ps x s).path = s.path ∧ (raiseTo ps x s).dispenses = s.dispenses ∧ (raiseTo ps x s).escrow = s.escrow ∧
      (raiseTo ps x s).depository = s.depository ∧ (raiseTo ps x s).alarm = s.alarm ∧ (raiseTo ps x s).journal = s.journal ∧
      (raiseTo ps x s).freeCount = s.freeCount ∧ (raiseTo ps x s).pending = s.pending := by
  unfold raiseTo
  induction ps generalizing s with
  | nil => simp
  | cons p ps ih => simp [ih]

@[simp] theorem raiseRestriction_keeps (s : State) :
    (raiseRestriction s).startUp = s.startUp ∧ (raiseRestriction s).clock = s.clock ∧ (raiseRestriction s).pins = s.pins ∧
      (raiseRestriction s).position = s.position ∧ (raiseRestriction s).settings = s.settings ∧
      (raiseRestriction s).claim = s.claim ∧ (raiseRestriction s).path = s.path ∧
      (raiseRestriction s).dispenses = s.dispenses ∧ (raiseRestriction s).escrow = s.escrow ∧
      (raiseRestriction s).depository = s.depository ∧ (raiseRestriction s).alarm = s.alarm ∧
      (raiseRestriction s).journal = s.journal ∧ (raiseRestriction s).freeCount = s.freeCount ∧
      (raiseRestriction s).pending = s.pending := by
  unfold raiseRestriction
  try simp only []
  refine ⟨?_, ?_, ?_, ?_, ?_, ?_, ?_, ?_, ?_, ?_, ?_, ?_, ?_, ?_⟩ <;> ((repeat' split) <;> simp)

@[simp] theorem pump_keeps (p : Port) (s : State) :
    (pump p s).startUp = s.startUp ∧ (pump p s).clock = s.clock ∧ (pump p s).pins = s.pins ∧ (pump p s).position = s.position ∧
      (pump p s).settings = s.settings ∧ (pump p s).claim = s.claim ∧ (pump p s).path = s.path ∧
      (pump p s).dispenses = s.dispenses ∧ (pump p s).escrow = s.escrow ∧ (pump p s).depository = s.depository ∧
      (pump p s).alarm = s.alarm ∧ (pump p s).journal = s.journal ∧ (pump p s).pending = s.pending := by
  unfold pump
  try simp only []
  refine ⟨?_, ?_, ?_, ?_, ?_, ?_, ?_, ?_, ?_, ?_, ?_, ?_, ?_⟩ <;> ((repeat' split) <;> simp)

@[simp] theorem pumpAll_keeps (s : State) :
    (pumpAll s).startUp = s.startUp ∧ (pumpAll s).clock = s.clock ∧ (pumpAll s).pins = s.pins ∧
      (pumpAll s).position = s.position ∧ (pumpAll s).settings = s.settings ∧ (pumpAll s).claim = s.claim ∧
      (pumpAll s).path = s.path ∧ (pumpAll s).dispenses = s.dispenses ∧ (pumpAll s).escrow = s.escrow ∧
      (pumpAll s).depository = s.depository ∧ (pumpAll s).alarm = s.alarm ∧ (pumpAll s).journal = s.journal ∧
      (pumpAll s).pending = s.pending := by
  unfold pumpAll
  try simp only []
  refine ⟨?_, ?_, ?_, ?_, ?_, ?_, ?_, ?_, ?_, ?_, ?_, ?_, ?_⟩ <;> ((repeat' split) <;> simp)

@[simp] theorem formReply_keeps (p : Port) (status : Status) (reason : Option Reason) (results : Results) (s : State) :
    (formReply p status reason results s).startUp = s.startUp ∧ (formReply p status reason results s).clock = s.clock ∧
      (formReply p status reason results s).pins = s.pins ∧ (formReply p status reason results s).position = s.position ∧
      (formReply p status reason results s).settings = s.settings ∧ (formReply p status reason results s).claim = s.claim ∧
      (formReply p status reason results s).path = s.path ∧ (formReply p status reason results s).dispenses = s.dispenses ∧
      (formReply p status reason results s).escrow = s.escrow ∧
      (formReply p status reason results s).depository = s.depository ∧ (formReply p status reason results s).alarm = s.alarm ∧
      (formReply p status reason results s).journal = s.journal ∧
      (formReply p status reason results s).freeCount = s.freeCount ∧
      (formReply p status reason results s).pending = s.pending := by
  unfold formReply
  try simp only []
  refine ⟨?_, ?_, ?_, ?_, ?_, ?_, ?_, ?_, ?_, ?_, ?_, ?_, ?_, ?_⟩ <;> ((repeat' split) <;> simp)

@[simp] theorem raiseJournalHigh_keeps (s : State) :
    (raiseJournalHigh s).startUp = s.startUp ∧ (raiseJournalHigh s).clock = s.clock ∧ (raiseJournalHigh s).pins = s.pins ∧
      (raiseJournalHigh s).position = s.position ∧ (raiseJournalHigh s).settings = s.settings ∧
      (raiseJournalHigh s).claim = s.claim ∧ (raiseJournalHigh s).path = s.path ∧
      (raiseJournalHigh s).dispenses = s.dispenses ∧ (raiseJournalHigh s).escrow = s.escrow ∧
      (raiseJournalHigh s).depository = s.depository ∧ (raiseJournalHigh s).alarm = s.alarm ∧
      (raiseJournalHigh s).journal = s.journal ∧ (raiseJournalHigh s).freeCount = s.freeCount ∧
      (raiseJournalHigh s).pending = s.pending := by
  unfold raiseJournalHigh
  try simp only []
  refine ⟨?_, ?_, ?_, ?_, ?_, ?_, ?_, ?_, ?_, ?_, ?_, ?_, ?_, ?_⟩ <;> ((repeat' split) <;> simp)

@[simp] theorem watchHighWater_keeps (s : State) :
    (watchHighWater s).startUp = s.startUp ∧ (watchHighWater s).clock = s.clock ∧ (watchHighWater s).pins = s.pins ∧
      (watchHighWater s).position = s.position ∧ (watchHighWater s).settings = s.settings ∧
      (watchHighWater s).claim = s.claim ∧ (watchHighWater s).path = s.path ∧ (watchHighWater s).dispenses = s.dispenses ∧
      (watchHighWater s).escrow = s.escrow ∧ (watchHighWater s).depository = s.depository ∧
      (watchHighWater s).alarm = s.alarm ∧ (watchHighWater s).freeCount = s.freeCount ∧ (watchHighWater s).pending = s.pending := by
  unfold watchHighWater
  try simp only []
  refine ⟨?_, ?_, ?_, ?_, ?_, ?_, ?_, ?_, ?_, ?_, ?_, ?_, ?_⟩ <;> ((repeat' split) <;> simp)

@[simp] theorem watchExhausted_keeps (s : State) :
    (watchExhausted s).startUp = s.startUp ∧ (watchExhausted s).clock = s.clock ∧ (watchExhausted s).pins = s.pins ∧
      (watchExhausted s).position = s.position ∧ (watchExhausted s).settings = s.settings ∧
      (watchExhausted s).claim = s.claim ∧ (watchExhausted s).path = s.path ∧ (watchExhausted s).dispenses = s.dispenses ∧
      (watchExhausted s).escrow = s.escrow ∧ (watchExhausted s).depository = s.depository ∧
      (watchExhausted s).alarm = s.alarm ∧ (watchExhausted s).journal = s.journal ∧
      (watchExhausted s).freeCount = s.freeCount ∧ (watchExhausted s).pending = s.pending := by
  unfold watchExhausted
  try simp only []
  refine ⟨?_, ?_, ?_, ?_, ?_, ?_, ?_, ?_, ?_, ?_, ?_, ?_, ?_, ?_⟩ <;> ((repeat' split) <;> simp)

@[simp] theorem stage_keeps (d : Draft) (s : State) :
    (stage d s).2.startUp = s.startUp ∧ (stage d s).2.clock = s.clock ∧ (stage d s).2.pins = s.pins ∧
      (stage d s).2.position = s.position ∧ (stage d s).2.settings = s.settings ∧ (stage d s).2.claim = s.claim ∧
      (stage d s).2.path = s.path ∧ (stage d s).2.dispenses = s.dispenses ∧ (stage d s).2.escrow = s.escrow ∧
      (stage d s).2.depository = s.depository ∧ (stage d s).2.alarm = s.alarm ∧ (stage d s).2.freeCount = s.freeCount ∧
      (stage d s).2.pending = s.pending := by
  unfold stage
  try simp only []
  refine ⟨?_, ?_, ?_, ?_, ?_, ?_, ?_, ?_, ?_, ?_, ?_, ?_, ?_⟩ <;> ((repeat' split) <;> simp)

@[simp] theorem promiseEntry_keeps (s : State) :
    (promiseEntry s).startUp = s.startUp ∧ (promiseEntry s).clock = s.clock ∧ (promiseEntry s).pins = s.pins ∧
      (promiseEntry s).position = s.position ∧ (promiseEntry s).settings = s.settings ∧ (promiseEntry s).claim = s.claim ∧
      (promiseEntry s).path = s.path ∧ (promiseEntry s).dispenses = s.dispenses ∧ (promiseEntry s).escrow = s.escrow ∧
      (promiseEntry s).depository = s.depository ∧ (promiseEntry s).alarm = s.alarm ∧ (promiseEntry s).ports = s.ports ∧
      (promiseEntry s).freeCount = s.freeCount ∧ (promiseEntry s).pending = s.pending := State.onJournal_keeps s _

@[simp] theorem stagePromised_keeps (d : Draft) (s : State) :
    (stagePromised d s).2.startUp = s.startUp ∧ (stagePromised d s).2.clock = s.clock ∧ (stagePromised d s).2.pins = s.pins ∧
      (stagePromised d s).2.position = s.position ∧ (stagePromised d s).2.settings = s.settings ∧
      (stagePromised d s).2.claim = s.claim ∧ (stagePromised d s).2.path = s.path ∧
      (stagePromised d s).2.dispenses = s.dispenses ∧ (stagePromised d s).2.escrow = s.escrow ∧
      (stagePromised d s).2.depository = s.depository ∧ (stagePromised d s).2.alarm = s.alarm ∧
      (stagePromised d s).2.freeCount = s.freeCount ∧ (stagePromised d s).2.pending = s.pending := by
  unfold stagePromised
  simp

@[simp] theorem loseRecord_keeps (s : State) :
    (loseRecord s).startUp = s.startUp ∧ (loseRecord s).clock = s.clock ∧ (loseRecord s).pins = s.pins ∧
      (loseRecord s).position = s.position ∧ (loseRecord s).settings = s.settings ∧ (loseRecord s).claim = s.claim ∧
      (loseRecord s).path = s.path ∧ (loseRecord s).dispenses = s.dispenses ∧ (loseRecord s).escrow = s.escrow ∧
      (loseRecord s).depository = s.depository ∧ (loseRecord s).alarm = s.alarm ∧ (loseRecord s).freeCount = s.freeCount ∧
      (loseRecord s).pending = s.pending := by
  unfold loseRecord
  try simp only []
  refine ⟨?_, ?_, ?_, ?_, ?_, ?_, ?_, ?_, ?_, ?_, ?_, ?_, ?_⟩ <;> ((repeat' split) <;> simp)

@[simp] theorem eventRecord_keeps (d : Draft) (s : State) :
    (eventRecord d s).2.startUp = s.startUp ∧ (eventRecord d s).2.clock = s.clock ∧ (eventRecord d s).2.pins = s.pins ∧
      (eventRecord d s).2.position = s.position ∧ (eventRecord d s).2.settings = s.settings ∧
      (eventRecord d s).2.claim = s.claim ∧ (eventRecord d s).2.path = s.path ∧ (eventRecord d s).2.dispenses = s.dispenses ∧
      (eventRecord d s).2.escrow = s.escrow ∧ (eventRecord d s).2.depository = s.depository ∧
      (eventRecord d s).2.alarm = s.alarm ∧ (eventRecord d s).2.freeCount = s.freeCount ∧
      (eventRecord d s).2.pending = s.pending := by
  unfold eventRecord
  try simp only []
  refine ⟨?_, ?_, ?_, ?_, ?_, ?_, ?_, ?_, ?_, ?_, ?_, ?_, ?_⟩ <;> ((repeat' split) <;> simp)

@[simp] theorem applyTo_keeps (n : Option Nat) (s : State) :
    (applyTo n s).startUp = s.startUp ∧ (applyTo n s).clock = s.clock ∧ (applyTo n s).pins = s.pins ∧
      (applyTo n s).settings = s.settings ∧ (applyTo n s).claim = s.claim ∧ (applyTo n s).path = s.path ∧
      (applyTo n s).dispenses = s.dispenses ∧ (applyTo n s).escrow = s.escrow ∧ (applyTo n s).depository = s.depository ∧
      (applyTo n s).alarm = s.alarm ∧ (applyTo n s).journal = s.journal ∧ (applyTo n s).ports = s.ports ∧
      (applyTo n s).freeCount = s.freeCount ∧ (applyTo n s).pending = s.pending := by
  unfold applyTo
  try simp only []
  refine ⟨?_, ?_, ?_, ?_, ?_, ?_, ?_, ?_, ?_, ?_, ?_, ?_, ?_, ?_⟩ <;> ((repeat' split) <;> simp)

@[simp] theorem stageApplied_keeps (d : Draft) (s : State) :
    (stageApplied d s).2.startUp = s.startUp ∧ (stageApplied d s).2.clock = s.clock ∧ (stageApplied d s).2.pins = s.pins ∧
      (stageApplied d s).2.settings = s.settings ∧ (stageApplied d s).2.claim = s.claim ∧ (stageApplied d s).2.path = s.path ∧
      (stageApplied d s).2.dispenses = s.dispenses ∧ (stageApplied d s).2.escrow = s.escrow ∧
      (stageApplied d s).2.depository = s.depository ∧ (stageApplied d s).2.alarm = s.alarm ∧
      (stageApplied d s).2.freeCount = s.freeCount ∧ (stageApplied d s).2.pending = s.pending := by
  unfold stageApplied
  try simp only []
  refine ⟨?_, ?_, ?_, ?_, ?_, ?_, ?_, ?_, ?_, ?_, ?_, ?_⟩ <;> ((repeat' split) <;> simp)

@[simp] theorem eventApplied_keeps (d : Draft) (s : State) :
    (eventApplied d s).2.startUp = s.startUp ∧ (eventApplied d s).2.clock = s.clock ∧ (eventApplied d s).2.pins = s.pins ∧
      (eventApplied d s).2.settings = s.settings ∧ (eventApplied d s).2.claim = s.claim ∧ (eventApplied d s).2.path = s.path ∧
      (eventApplied d s).2.dispenses = s.dispenses ∧ (eventApplied d s).2.escrow = s.escrow ∧
      (eventApplied d s).2.depository = s.depository ∧ (eventApplied d s).2.alarm = s.alarm ∧
      (eventApplied d s).2.freeCount = s.freeCount ∧ (eventApplied d s).2.pending = s.pending := by
  unfold eventApplied
  try simp only []
  refine ⟨?_, ?_, ?_, ?_, ?_, ?_, ?_, ?_, ?_, ?_, ?_, ?_⟩ <;> ((repeat' split) <;> simp)

@[simp] theorem reserve_keeps (p : Port) (k : OpKind) (start : Nat) (s : State) :
    (reserve p k start s).startUp = s.startUp ∧ (reserve p k start s).clock = s.clock ∧ (reserve p k start s).pins = s.pins ∧
      (reserve p k start s).position = s.position ∧ (reserve p k start s).settings = s.settings ∧
      (reserve p k start s).claim = s.claim ∧ (reserve p k start s).path = s.path ∧
      (reserve p k start s).dispenses = s.dispenses ∧ (reserve p k start s).escrow = s.escrow ∧
      (reserve p k start s).depository = s.depository ∧ (reserve p k start s).alarm = s.alarm ∧
      (reserve p k start s).ports = s.ports ∧ (reserve p k start s).freeCount = s.freeCount ∧
      (reserve p k start s).pending = s.pending := by
  unfold reserve
  try simp only []
  refine ⟨?_, ?_, ?_, ?_, ?_, ?_, ?_, ?_, ?_, ?_, ?_, ?_, ?_, ?_⟩ <;> ((repeat' split) <;> simp)

@[simp] theorem release_keeps (p : Port) (k : OpKind) (s : State) :
    (release p k s).startUp = s.startUp ∧ (release p k s).clock = s.clock ∧ (release p k s).pins = s.pins ∧
      (release p k s).position = s.position ∧ (release p k s).settings = s.settings ∧ (release p k s).claim = s.claim ∧
      (release p k s).path = s.path ∧ (release p k s).dispenses = s.dispenses ∧ (release p k s).escrow = s.escrow ∧
      (release p k s).depository = s.depository ∧ (release p k s).alarm = s.alarm ∧ (release p k s).ports = s.ports ∧
      (release p k s).freeCount = s.freeCount ∧ (release p k s).pending = s.pending := by
  unfold release
  try simp only []
  refine ⟨?_, ?_, ?_, ?_, ?_, ?_, ?_, ?_, ?_, ?_, ?_, ?_, ?_, ?_⟩ <;> ((repeat' split) <;> simp)

@[simp] theorem markJammed_keeps (p : Port) (k : OpKind) (marks : Marks) (unpaid : Nat) (s : State) :
    (markJammed p k marks unpaid s).startUp = s.startUp ∧ (markJammed p k marks unpaid s).clock = s.clock ∧ (markJammed p k marks unpaid s).pins = s.pins ∧
      (markJammed p k marks unpaid s).position = s.position ∧ (markJammed p k marks unpaid s).settings = s.settings ∧
      (markJammed p k marks unpaid s).claim = s.claim ∧ (markJammed p k marks unpaid s).path = s.path ∧ (markJammed p k marks unpaid s).dispenses = s.dispenses ∧
      (markJammed p k marks unpaid s).escrow = s.escrow ∧ (markJammed p k marks unpaid s).depository = s.depository ∧
      (markJammed p k marks unpaid s).alarm = s.alarm ∧ (markJammed p k marks unpaid s).ports = s.ports ∧ (markJammed p k marks unpaid s).freeCount = s.freeCount ∧
      (markJammed p k marks unpaid s).pending = s.pending := by
  unfold markJammed
  try simp only []
  refine ⟨?_, ?_, ?_, ?_, ?_, ?_, ?_, ?_, ?_, ?_, ?_, ?_, ?_, ?_⟩ <;> ((repeat' split) <;> simp)

@[simp] theorem awaitDurable_keeps (p : Port) (n : Option Nat) (d : OpDone) (s : State) :
    (awaitDurable p n d s).startUp = s.startUp ∧ (awaitDurable p n d s).clock = s.clock ∧
      (awaitDurable p n d s).pins = s.pins ∧ (awaitDurable p n d s).position = s.position ∧
      (awaitDurable p n d s).settings = s.settings ∧ (awaitDurable p n d s).claim = s.claim ∧
      (awaitDurable p n d s).path = s.path ∧ (awaitDurable p n d s).dispenses = s.dispenses ∧
      (awaitDurable p n d s).escrow = s.escrow ∧ (awaitDurable p n d s).depository = s.depository ∧
      (awaitDurable p n d s).alarm = s.alarm ∧ (awaitDurable p n d s).ports = s.ports ∧
      (awaitDurable p n d s).freeCount = s.freeCount ∧ (awaitDurable p n d s).pending = s.pending := by
  unfold awaitDurable
  try simp only []
  refine ⟨?_, ?_, ?_, ?_, ?_, ?_, ?_, ?_, ?_, ?_, ?_, ?_, ?_, ?_⟩ <;> ((repeat' split) <;> simp)

@[simp] theorem addCause_keeps (c : AuditCause) (s : State) :
    (addCause c s).startUp = s.startUp ∧ (addCause c s).clock = s.clock ∧ (addCause c s).pins = s.pins ∧
      (addCause c s).settings = s.settings ∧ (addCause c s).claim = s.claim ∧ (addCause c s).path = s.path ∧
      (addCause c s).dispenses = s.dispenses ∧ (addCause c s).escrow = s.escrow ∧ (addCause c s).depository = s.depository ∧
      (addCause c s).alarm = s.alarm ∧ (addCause c s).journal = s.journal ∧ (addCause c s).freeCount = s.freeCount ∧
      (addCause c s).pending = s.pending := by
  unfold addCause
  try simp only []
  refine ⟨?_, ?_, ?_, ?_, ?_, ?_, ?_, ?_, ?_, ?_, ?_, ?_, ?_⟩ <;> ((repeat' split) <;> simp)

@[simp] theorem integrityFailure_keeps (which : GuardedRecord) (s : State) :
    (integrityFailure which s).startUp = s.startUp ∧ (integrityFailure which s).clock = s.clock ∧
      (integrityFailure which s).pins = s.pins ∧ (integrityFailure which s).settings = s.settings ∧
      (integrityFailure which s).claim = s.claim ∧ (integrityFailure which s).path = s.path ∧
      (integrityFailure which s).dispenses = s.dispenses ∧ (integrityFailure which s).escrow = s.escrow ∧
      (integrityFailure which s).depository = s.depository ∧ (integrityFailure which s).alarm = s.alarm ∧
      (integrityFailure which s).journal = s.journal ∧ (integrityFailure which s).freeCount = s.freeCount ∧
      (integrityFailure which s).pending = s.pending := by
  unfold integrityFailure
  try simp only []
  refine ⟨?_, ?_, ?_, ?_, ?_, ?_, ?_, ?_, ?_, ?_, ?_, ?_, ?_⟩ <;> ((repeat' split) <;> simp)

@[simp] theorem verifyCassette_keeps (k : Ix) (s : State) :
    (verifyCassette k s).2.startUp = s.startUp ∧ (verifyCassette k s).2.clock = s.clock ∧
      (verifyCassette k s).2.pins = s.pins ∧ (verifyCassette k s).2.settings = s.settings ∧
      (verifyCassette k s).2.claim = s.claim ∧ (verifyCassette k s).2.path = s.path ∧
      (verifyCassette k s).2.dispenses = s.dispenses ∧ (verifyCassette k s).2.escrow = s.escrow ∧
      (verifyCassette k s).2.depository = s.depository ∧ (verifyCassette k s).2.alarm = s.alarm ∧
      (verifyCassette k s).2.journal = s.journal ∧ (verifyCassette k s).2.freeCount = s.freeCount ∧
      (verifyCassette k s).2.pending = s.pending := by
  unfold verifyCassette
  try simp only []
  refine ⟨?_, ?_, ?_, ?_, ?_, ?_, ?_, ?_, ?_, ?_, ?_, ?_, ?_⟩ <;> ((repeat' split) <;> simp)

@[simp] theorem verifyAccount_keeps (a : AccountId) (s : State) :
    (verifyAccount a s).2.startUp = s.startUp ∧ (verifyAccount a s).2.clock = s.clock ∧ (verifyAccount a s).2.pins = s.pins ∧
      (verifyAccount a s).2.settings = s.settings ∧ (verifyAccount a s).2.claim = s.claim ∧
      (verifyAccount a s).2.path = s.path ∧ (verifyAccount a s).2.dispenses = s.dispenses ∧
      (verifyAccount a s).2.escrow = s.escrow ∧ (verifyAccount a s).2.depository = s.depository ∧
      (verifyAccount a s).2.alarm = s.alarm ∧ (verifyAccount a s).2.journal = s.journal ∧
      (verifyAccount a s).2.freeCount = s.freeCount ∧ (verifyAccount a s).2.pending = s.pending := by
  unfold verifyAccount
  try simp only []
  refine ⟨?_, ?_, ?_, ?_, ?_, ?_, ?_, ?_, ?_, ?_, ?_, ?_, ?_⟩ <;> ((repeat' split) <;> simp)

@[simp] theorem verifyCassettes_keeps (s : State) :
    (verifyCassettes s).2.startUp = s.startUp ∧ (verifyCassettes s).2.clock = s.clock ∧ (verifyCassettes s).2.pins = s.pins ∧
      (verifyCassettes s).2.settings = s.settings ∧ (verifyCassettes s).2.claim = s.claim ∧
      (verifyCassettes s).2.path = s.path ∧ (verifyCassettes s).2.dispenses = s.dispenses ∧
      (verifyCassettes s).2.escrow = s.escrow ∧ (verifyCassettes s).2.depository = s.depository ∧
      (verifyCassettes s).2.alarm = s.alarm ∧ (verifyCassettes s).2.journal = s.journal ∧
      (verifyCassettes s).2.freeCount = s.freeCount ∧ (verifyCassettes s).2.pending = s.pending := by
  simp [verifyCassettes, Ix.all]

@[simp] theorem watchLow_keeps (k : Ix) (before : CassetteState) (s : State) :
    (watchLow k before s).startUp = s.startUp ∧ (watchLow k before s).clock = s.clock ∧ (watchLow k before s).pins = s.pins ∧
      (watchLow k before s).position = s.position ∧ (watchLow k before s).settings = s.settings ∧
      (watchLow k before s).claim = s.claim ∧ (watchLow k before s).path = s.path ∧
      (watchLow k before s).dispenses = s.dispenses ∧ (watchLow k before s).escrow = s.escrow ∧
      (watchLow k before s).depository = s.depository ∧ (watchLow k before s).alarm = s.alarm ∧
      (watchLow k before s).journal = s.journal ∧ (watchLow k before s).freeCount = s.freeCount ∧
      (watchLow k before s).pending = s.pending := by
  unfold watchLow
  try simp only []
  refine ⟨?_, ?_, ?_, ?_, ?_, ?_, ?_, ?_, ?_, ?_, ?_, ?_, ?_, ?_⟩ <;> ((repeat' split) <;> simp)

@[simp] theorem writeCassette_keeps (k : Ix) (c : Cassette) (s : State) :
    (writeCassette k c s).startUp = s.startUp ∧ (writeCassette k c s).clock = s.clock ∧ (writeCassette k c s).pins = s.pins ∧
      (writeCassette k c s).settings = s.settings ∧ (writeCassette k c s).claim = s.claim ∧
      (writeCassette k c s).path = s.path ∧ (writeCassette k c s).dispenses = s.dispenses ∧
      (writeCassette k c s).escrow = s.escrow ∧ (writeCassette k c s).depository = s.depository ∧
      (writeCassette k c s).alarm = s.alarm ∧ (writeCassette k c s).journal = s.journal ∧
      (writeCassette k c s).freeCount = s.freeCount ∧ (writeCassette k c s).pending = s.pending := by
  unfold writeCassette
  try simp only []
  refine ⟨?_, ?_, ?_, ?_, ?_, ?_, ?_, ?_, ?_, ?_, ?_, ?_, ?_⟩ <;> ((repeat' split) <;> simp)

@[simp] theorem writeCassetteAs_keeps (k : Ix) (c : Cassette) (s : State) :
    (writeCassetteAs k c s).startUp = s.startUp ∧ (writeCassetteAs k c s).clock = s.clock ∧
      (writeCassetteAs k c s).pins = s.pins ∧ (writeCassetteAs k c s).settings = s.settings ∧
      (writeCassetteAs k c s).claim = s.claim ∧ (writeCassetteAs k c s).path = s.path ∧
      (writeCassetteAs k c s).dispenses = s.dispenses ∧ (writeCassetteAs k c s).escrow = s.escrow ∧
      (writeCassetteAs k c s).depository = s.depository ∧ (writeCassetteAs k c s).alarm = s.alarm ∧
      (writeCassetteAs k c s).journal = s.journal ∧ (writeCassetteAs k c s).freeCount = s.freeCount ∧
      (writeCassetteAs k c s).pending = s.pending := by
  unfold writeCassetteAs
  try simp only []
  refine ⟨?_, ?_, ?_, ?_, ?_, ?_, ?_, ?_, ?_, ?_, ?_, ?_, ?_⟩ <;> ((repeat' split) <;> simp)

@[simp] theorem writeAccount_keeps (a : AccountId) (balance : Int) (coinDue : Nat) (s : State) :
    (writeAccount a balance coinDue s).startUp = s.startUp ∧ (writeAccount a balance coinDue s).clock = s.clock ∧
      (writeAccount a balance coinDue s).pins = s.pins ∧ (writeAccount a balance coinDue s).settings = s.settings ∧
      (writeAccount a balance coinDue s).claim = s.claim ∧ (writeAccount a balance coinDue s).path = s.path ∧
      (writeAccount a balance coinDue s).dispenses = s.dispenses ∧ (writeAccount a balance coinDue s).escrow = s.escrow ∧
      (writeAccount a balance coinDue s).depository = s.depository ∧ (writeAccount a balance coinDue s).alarm = s.alarm ∧
      (writeAccount a balance coinDue s).journal = s.journal ∧ (writeAccount a balance coinDue s).ports = s.ports ∧
      (writeAccount a balance coinDue s).freeCount = s.freeCount ∧ (writeAccount a balance coinDue s).pending = s.pending := by
  unfold writeAccount
  try simp only []
  refine ⟨?_, ?_, ?_, ?_, ?_, ?_, ?_, ?_, ?_, ?_, ?_, ?_, ?_, ?_⟩ <;> ((repeat' split) <;> simp)

@[simp] theorem bumpGeneration_keeps (s : State) :
    (bumpGeneration s).startUp = s.startUp ∧ (bumpGeneration s).clock = s.clock ∧ (bumpGeneration s).pins = s.pins ∧
      (bumpGeneration s).settings = s.settings ∧ (bumpGeneration s).claim = s.claim ∧ (bumpGeneration s).path = s.path ∧
      (bumpGeneration s).dispenses = s.dispenses ∧ (bumpGeneration s).escrow = s.escrow ∧
      (bumpGeneration s).depository = s.depository ∧ (bumpGeneration s).alarm = s.alarm ∧
      (bumpGeneration s).journal = s.journal ∧ (bumpGeneration s).ports = s.ports ∧
      (bumpGeneration s).freeCount = s.freeCount ∧ (bumpGeneration s).pending = s.pending := by
  unfold bumpGeneration
  try simp only []
  refine ⟨?_, ?_, ?_, ?_, ?_, ?_, ?_, ?_, ?_, ?_, ?_, ?_, ?_, ?_⟩ <;> ((repeat' split) <;> simp)

@[simp] theorem setOwner_keeps (o : Owner) (s : State) :
    (setOwner o s).startUp = s.startUp ∧ (setOwner o s).clock = s.clock ∧ (setOwner o s).pins = s.pins ∧
      (setOwner o s).position = s.position ∧ (setOwner o s).settings = s.settings ∧ (setOwner o s).path = s.path ∧
      (setOwner o s).dispenses = s.dispenses ∧ (setOwner o s).depository = s.depository ∧ (setOwner o s).alarm = s.alarm ∧
      (setOwner o s).journal = s.journal ∧ (setOwner o s).ports = s.ports ∧ (setOwner o s).freeCount = s.freeCount ∧
      (setOwner o s).pending = s.pending := by
  unfold setOwner
  try simp only []
  refine ⟨?_, ?_, ?_, ?_, ?_, ?_, ?_, ?_, ?_, ?_, ?_, ?_, ?_⟩ <;> ((repeat' split) <;> simp)

@[simp] theorem judgeMix_keeps (t : Teller) (target : RemainderTarget) (limit : Nat) (m : MixResult) (s : State) :
    (judgeMix t target limit m s).2.startUp = s.startUp ∧ (judgeMix t target limit m s).2.clock = s.clock ∧
      (judgeMix t target limit m s).2.pins = s.pins ∧ (judgeMix t target limit m s).2.settings = s.settings ∧
      (judgeMix t target limit m s).2.claim = s.claim ∧ (judgeMix t target limit m s).2.path = s.path ∧
      (judgeMix t target limit m s).2.dispenses = s.dispenses ∧ (judgeMix t target limit m s).2.escrow = s.escrow ∧
      (judgeMix t target limit m s).2.depository = s.depository ∧ (judgeMix t target limit m s).2.alarm = s.alarm ∧
      (judgeMix t target limit m s).2.journal = s.journal ∧ (judgeMix t target limit m s).2.freeCount = s.freeCount ∧
      (judgeMix t target limit m s).2.pending = s.pending := by
  unfold judgeMix
  try simp only []
  refine ⟨?_, ?_, ?_, ?_, ?_, ?_, ?_, ?_, ?_, ?_, ?_, ?_, ?_⟩ <;> ((repeat' split) <;> simp)

@[simp] theorem requestMix_keeps (t : Teller) (amount cap : Nat) (order : List Ix) (target : RemainderTarget) (s : State) :
    (requestMix t amount cap order target s).2.startUp = s.startUp ∧
      (requestMix t amount cap order target s).2.clock = s.clock ∧ (requestMix t amount cap order target s).2.pins = s.pins ∧
      (requestMix t amount cap order target s).2.settings = s.settings ∧
      (requestMix t amount cap order target s).2.claim = s.claim ∧ (requestMix t amount cap order target s).2.path = s.path ∧
      (requestMix t amount cap order target s).2.dispenses = s.dispenses ∧
      (requestMix t amount cap order target s).2.escrow = s.escrow ∧
      (requestMix t amount cap order target s).2.depository = s.depository ∧
      (requestMix t amount cap order target s).2.alarm = s.alarm ∧
      (requestMix t amount cap order target s).2.journal = s.journal ∧
      (requestMix t amount cap order target s).2.freeCount = s.freeCount ∧
      (requestMix t amount cap order target s).2.pending = s.pending := by
  unfold requestMix
  try simp only []
  refine ⟨?_, ?_, ?_, ?_, ?_, ?_, ?_, ?_, ?_, ?_, ?_, ?_, ?_⟩ <;> ((repeat' split) <;> simp)

@[simp] theorem reMix_keeps (t : Teller) (s : State) :
    (reMix t s).2.startUp = s.startUp ∧ (reMix t s).2.clock = s.clock ∧ (reMix t s).2.pins = s.pins ∧
      (reMix t s).2.settings = s.settings ∧ (reMix t s).2.claim = s.claim ∧ (reMix t s).2.path = s.path ∧
      (reMix t s).2.dispenses = s.dispenses ∧ (reMix t s).2.escrow = s.escrow ∧ (reMix t s).2.depository = s.depository ∧
      (reMix t s).2.alarm = s.alarm ∧ (reMix t s).2.journal = s.journal ∧ (reMix t s).2.freeCount = s.freeCount ∧
      (reMix t s).2.pending = s.pending := by
  unfold reMix
  try simp only []
  refine ⟨?_, ?_, ?_, ?_, ?_, ?_, ?_, ?_, ?_, ?_, ?_, ?_, ?_⟩ <;> ((repeat' split) <;> simp)

@[simp] theorem bookBalance_keeps (a : AccountId) (amount : Int) (s : State) :
    (bookBalance a amount s).2.startUp = s.startUp ∧ (bookBalance a amount s).2.clock = s.clock ∧
      (bookBalance a amount s).2.pins = s.pins ∧ (bookBalance a amount s).2.settings = s.settings ∧
      (bookBalance a amount s).2.claim = s.claim ∧ (bookBalance a amount s).2.path = s.path ∧
      (bookBalance a amount s).2.dispenses = s.dispenses ∧ (bookBalance a amount s).2.escrow = s.escrow ∧
      (bookBalance a amount s).2.depository = s.depository ∧ (bookBalance a amount s).2.alarm = s.alarm ∧
      (bookBalance a amount s).2.journal = s.journal ∧ (bookBalance a amount s).2.freeCount = s.freeCount ∧
      (bookBalance a amount s).2.pending = s.pending := by
  unfold bookBalance
  try simp only []
  refine ⟨?_, ?_, ?_, ?_, ?_, ?_, ?_, ?_, ?_, ?_, ?_, ?_, ?_⟩ <;> ((repeat' split) <;> simp)

@[simp] theorem bookCoinDue_keeps (a : AccountId) (amount : Nat) (s : State) :
    (bookCoinDue a amount s).2.startUp = s.startUp ∧ (bookCoinDue a amount s).2.clock = s.clock ∧
      (bookCoinDue a amount s).2.pins = s.pins ∧ (bookCoinDue a amount s).2.settings = s.settings ∧
      (bookCoinDue a amount s).2.claim = s.claim ∧ (bookCoinDue a amount s).2.path = s.path ∧
      (bookCoinDue a amount s).2.dispenses = s.dispenses ∧ (bookCoinDue a amount s).2.escrow = s.escrow ∧
      (bookCoinDue a amount s).2.depository = s.depository ∧ (bookCoinDue a amount s).2.alarm = s.alarm ∧
      (bookCoinDue a amount s).2.journal = s.journal ∧ (bookCoinDue a amount s).2.freeCount = s.freeCount ∧
      (bookCoinDue a amount s).2.pending = s.pending := by
  unfold bookCoinDue
  try simp only []
  refine ⟨?_, ?_, ?_, ?_, ?_, ?_, ?_, ?_, ?_, ?_, ?_, ?_, ?_⟩ <;> ((repeat' split) <;> simp)

@[simp] theorem stepGeneration_keeps (changed : Bool) (s : State) :
    (stepGeneration changed s).startUp = s.startUp ∧ (stepGeneration changed s).clock = s.clock ∧
      (stepGeneration changed s).pins = s.pins ∧ (stepGeneration changed s).settings = s.settings ∧
      (stepGeneration changed s).claim = s.claim ∧ (stepGeneration changed s).path = s.path ∧
      (stepGeneration changed s).dispenses = s.dispenses ∧ (stepGeneration changed s).escrow = s.escrow ∧
      (stepGeneration changed s).depository = s.depository ∧ (stepGeneration changed s).alarm = s.alarm ∧
      (stepGeneration changed s).journal = s.journal ∧ (stepGeneration changed s).ports = s.ports ∧
      (stepGeneration changed s).freeCount = s.freeCount ∧ (stepGeneration changed s).pending = s.pending := by
  unfold stepGeneration
  try simp only []
  refine ⟨?_, ?_, ?_, ?_, ?_, ?_, ?_, ?_, ?_, ?_, ?_, ?_, ?_, ?_⟩ <;> ((repeat' split) <;> simp)

@[simp] theorem finishDispense_keeps (t : Teller) (outcome : Nat) (taken : Quad Nat) (remainderDue : Bool) (reason : Option Reason) (carried : Results) (s : State) :
    (finishDispense t outcome taken remainderDue reason carried s).startUp = s.startUp ∧
      (finishDispense t outcome taken remainderDue reason carried s).clock = s.clock ∧
      (finishDispense t outcome taken remainderDue reason carried s).pins = s.pins ∧
      (finishDispense t outcome taken remainderDue reason carried s).settings = s.settings ∧
      (finishDispense t outcome taken remainderDue reason carried s).claim = s.claim ∧
      (finishDispense t outcome taken remainderDue reason carried s).path = s.path ∧
      (finishDispense t outcome taken remainderDue reason carried s).escrow = s.escrow ∧
      (finishDispense t outcome taken remainderDue reason carried s).depository = s.depository ∧
      (finishDispense t outcome taken remainderDue reason carried s).alarm = s.alarm ∧
      (finishDispense t outcome taken remainderDue reason carried s).freeCount = s.freeCount ∧
      (finishDispense t outcome taken remainderDue reason carried s).pending = s.pending := by
  unfold finishDispense
  try simp only []
  refine ⟨?_, ?_, ?_, ?_, ?_, ?_, ?_, ?_, ?_, ?_, ?_⟩ <;> ((repeat' split) <;> simp)

@[simp] theorem finishInsert_keeps (o : InsertOp) (why : FeedCause) (s : State) :
    (finishInsert o why s).startUp = s.startUp ∧ (finishInsert o why s).clock = s.clock ∧
      (finishInsert o why s).pins = s.pins ∧ (finishInsert o why s).settings = s.settings ∧
      (finishInsert o why s).claim = s.claim ∧ (finishInsert o why s).path = s.path ∧
      (finishInsert o why s).dispenses = s.dispenses ∧ (finishInsert o why s).depository = s.depository ∧
      (finishInsert o why s).alarm = s.alarm ∧ (finishInsert o why s).freeCount = s.freeCount ∧
      (finishInsert o why s).pending = s.pending := by
  unfold finishInsert
  try simp only []
  refine ⟨?_, ?_, ?_, ?_, ?_, ?_, ?_, ?_, ?_, ?_, ?_⟩ <;> ((repeat' split) <;> simp)

@[simp] theorem finishReturn_keeps (o : ReturnOp) (outcome : ReturnOutcome) (s : State) :
    (finishReturn o outcome s).startUp = s.startUp ∧ (finishReturn o outcome s).clock = s.clock ∧
      (finishReturn o outcome s).pins = s.pins ∧ (finishReturn o outcome s).settings = s.settings ∧
      (finishReturn o outcome s).claim = s.claim ∧ (finishReturn o outcome s).path = s.path ∧
      (finishReturn o outcome s).dispenses = s.dispenses ∧ (finishReturn o outcome s).depository = s.depository ∧
      (finishReturn o outcome s).alarm = s.alarm ∧ (finishReturn o outcome s).freeCount = s.freeCount ∧
      (finishReturn o outcome s).pending = s.pending := by
  unfold finishReturn
  try simp only []
  refine ⟨?_, ?_, ?_, ?_, ?_, ?_, ?_, ?_, ?_, ?_, ?_⟩ <;> ((repeat' split) <;> simp)

@[simp] theorem debitCommit_keeps (s : State) :
    (debitCommit s).2.startUp = s.startUp ∧ (debitCommit s).2.clock = s.clock ∧ (debitCommit s).2.pins = s.pins ∧
      (debitCommit s).2.settings = s.settings ∧ (debitCommit s).2.claim = s.claim ∧ (debitCommit s).2.path = s.path ∧
      (debitCommit s).2.dispenses = s.dispenses ∧ (debitCommit s).2.depository = s.depository ∧
      (debitCommit s).2.alarm = s.alarm ∧ (debitCommit s).2.journal = s.journal ∧ (debitCommit s).2.freeCount = s.freeCount ∧
      (debitCommit s).2.pending = s.pending := by
  unfold debitCommit
  try simp only []
  refine ⟨?_, ?_, ?_, ?_, ?_, ?_, ?_, ?_, ?_, ?_, ?_, ?_⟩ <;> ((repeat' split) <;> simp)

@[simp] theorem finishCommit_keeps (o : CommitOp) (outcome : CommitOutcome) (s : State) :
    (finishCommit o outcome s).startUp = s.startUp ∧ (finishCommit o outcome s).clock = s.clock ∧
      (finishCommit o outcome s).pins = s.pins ∧ (finishCommit o outcome s).settings = s.settings ∧
      (finishCommit o outcome s).claim = s.claim ∧ (finishCommit o outcome s).path = s.path ∧
      (finishCommit o outcome s).dispenses = s.dispenses ∧ (finishCommit o outcome s).depository = s.depository ∧
      (finishCommit o outcome s).alarm = s.alarm ∧ (finishCommit o outcome s).freeCount = s.freeCount ∧
      (finishCommit o outcome s).pending = s.pending := by
  unfold finishCommit
  try simp only []
  refine ⟨?_, ?_, ?_, ?_, ?_, ?_, ?_, ?_, ?_, ?_, ?_⟩ <;> ((repeat' split) <;> simp)

@[simp] theorem awaitClosed_keeps (n : Option Nat) (debit : OpDone) (closed : List Reservation) (s : State) :
    (awaitClosed n debit closed s).startUp = s.startUp ∧ (awaitClosed n debit closed s).clock = s.clock ∧
      (awaitClosed n debit closed s).pins = s.pins ∧ (awaitClosed n debit closed s).position = s.position ∧
      (awaitClosed n debit closed s).settings = s.settings ∧ (awaitClosed n debit closed s).claim = s.claim ∧
      (awaitClosed n debit closed s).path = s.path ∧ (awaitClosed n debit closed s).dispenses = s.dispenses ∧
      (awaitClosed n debit closed s).escrow = s.escrow ∧ (awaitClosed n debit closed s).depository = s.depository ∧
      (awaitClosed n debit closed s).alarm = s.alarm ∧ (awaitClosed n debit closed s).ports = s.ports ∧
      (awaitClosed n debit closed s).freeCount = s.freeCount ∧ (awaitClosed n debit closed s).pending = s.pending := by
  unfold awaitClosed
  induction closed generalizing s with
  | nil => simp
  | cons r rs ih =>
    by_cases h : r.jammed = true <;> simp [ih, h]

@[simp] theorem finishPurge_keeps (p : Purge) (outcome : PurgeOutcome) (s : State) :
    (finishPurge p outcome s).startUp = s.startUp ∧ (finishPurge p outcome s).clock = s.clock ∧
      (finishPurge p outcome s).pins = s.pins ∧ (finishPurge p outcome s).settings = s.settings ∧
      (finishPurge p outcome s).claim = s.claim ∧ (finishPurge p outcome s).dispenses = s.dispenses ∧
      (finishPurge p outcome s).depository = s.depository ∧ (finishPurge p outcome s).alarm = s.alarm ∧
      (finishPurge p outcome s).freeCount = s.freeCount ∧ (finishPurge p outcome s).pending = s.pending := by
  unfold finishPurge
  try simp only []
  refine ⟨?_, ?_, ?_, ?_, ?_, ?_, ?_, ?_, ?_, ?_⟩ <;> ((repeat' split) <;> simp)

@[simp] theorem finishEnd_keeps (e : HeldEnd) (s : State) :
    (finishEnd e s).startUp = s.startUp ∧ (finishEnd e s).clock = s.clock ∧ (finishEnd e s).pins = s.pins ∧
      (finishEnd e s).settings = s.settings ∧ (finishEnd e s).claim = s.claim ∧ (finishEnd e s).depository = s.depository ∧
      (finishEnd e s).alarm = s.alarm ∧ (finishEnd e s).freeCount = s.freeCount ∧ (finishEnd e s).pending = s.pending := by
  unfold finishEnd
  try simp only []
  refine ⟨?_, ?_, ?_, ?_, ?_, ?_, ?_, ?_, ?_⟩ <;> ((repeat' split) <;> simp)

@[simp] theorem holdOrFinish_keeps (e : HeldEnd) (s : State) :
    (holdOrFinish e s).startUp = s.startUp ∧ (holdOrFinish e s).clock = s.clock ∧ (holdOrFinish e s).pins = s.pins ∧
      (holdOrFinish e s).settings = s.settings ∧ (holdOrFinish e s).claim = s.claim ∧
      (holdOrFinish e s).depository = s.depository ∧ (holdOrFinish e s).alarm = s.alarm ∧
      (holdOrFinish e s).freeCount = s.freeCount ∧ (holdOrFinish e s).pending = s.pending := by
  unfold holdOrFinish
  try simp only []
  refine ⟨?_, ?_, ?_, ?_, ?_, ?_, ?_, ?_, ?_⟩ <;> ((repeat' split) <;> simp)

@[simp] theorem drainEndHold_keeps (n : Nat) (s : State) :
    (drainEndHold n s).startUp = s.startUp ∧ (drainEndHold n s).clock = s.clock ∧ (drainEndHold n s).pins = s.pins ∧
      (drainEndHold n s).settings = s.settings ∧ (drainEndHold n s).claim = s.claim ∧
      (drainEndHold n s).depository = s.depository ∧ (drainEndHold n s).alarm = s.alarm ∧
      (drainEndHold n s).freeCount = s.freeCount ∧ (drainEndHold n s).pending = s.pending := by
  induction n generalizing s with
  | zero => simp [drainEndHold]
  | succ n ih =>
    unfold drainEndHold
    (repeat' split) <;> simp [ih]

@[simp] theorem stopTimers_keeps (o : MoveOwner) (s : State) :
    (stopTimers o s).startUp = s.startUp ∧ (stopTimers o s).clock = s.clock ∧ (stopTimers o s).pins = s.pins ∧
      (stopTimers o s).position = s.position ∧ (stopTimers o s).settings = s.settings ∧ (stopTimers o s).claim = s.claim ∧
      (stopTimers o s).dispenses = s.dispenses ∧ (stopTimers o s).escrow = s.escrow ∧
      (stopTimers o s).depository = s.depository ∧ (stopTimers o s).alarm = s.alarm ∧ (stopTimers o s).journal = s.journal ∧
      (stopTimers o s).ports = s.ports ∧ (stopTimers o s).freeCount = s.freeCount ∧ (stopTimers o s).pending = s.pending := by
  unfold stopTimers
  try simp only []
  refine ⟨?_, ?_, ?_, ?_, ?_, ?_, ?_, ?_, ?_, ?_, ?_, ?_, ?_, ?_⟩ <;> ((repeat' split) <;> simp)

@[simp] theorem endDispense_keeps (t : Teller) (outcome : Nat) (taken : Quad Nat) (remainderDue : Bool) (reason : Option Reason) (carried : Results) (s : State) :
    (endDispense t outcome taken remainderDue reason carried s).startUp = s.startUp ∧
      (endDispense t outcome taken remainderDue reason carried s).clock = s.clock ∧
      (endDispense t outcome taken remainderDue reason carried s).pins = s.pins ∧
      (endDispense t outcome taken remainderDue reason carried s).settings = s.settings ∧
      (endDispense t outcome taken remainderDue reason carried s).claim = s.claim ∧
      (endDispense t outcome taken remainderDue reason carried s).depository = s.depository ∧
      (endDispense t outcome taken remainderDue reason carried s).alarm = s.alarm ∧
      (endDispense t outcome taken remainderDue reason carried s).freeCount = s.freeCount ∧
      (endDispense t outcome taken remainderDue reason carried s).pending = s.pending := by
  unfold endDispense
  try simp only []
  refine ⟨?_, ?_, ?_, ?_, ?_, ?_, ?_, ?_, ?_⟩ <;> ((repeat' split) <;> simp)

@[simp] theorem endInsert_keeps (o : InsertOp) (why : FeedCause) (s : State) :
    (endInsert o why s).startUp = s.startUp ∧ (endInsert o why s).clock = s.clock ∧ (endInsert o why s).pins = s.pins ∧
      (endInsert o why s).settings = s.settings ∧ (endInsert o why s).claim = s.claim ∧
      (endInsert o why s).depository = s.depository ∧ (endInsert o why s).alarm = s.alarm ∧
      (endInsert o why s).freeCount = s.freeCount ∧ (endInsert o why s).pending = s.pending := by
  unfold endInsert
  try simp only []
  refine ⟨?_, ?_, ?_, ?_, ?_, ?_, ?_, ?_, ?_⟩ <;> ((repeat' split) <;> simp)

@[simp] theorem endReturn_keeps (o : ReturnOp) (outcome : ReturnOutcome) (s : State) :
    (endReturn o outcome s).startUp = s.startUp ∧ (endReturn o outcome s).clock = s.clock ∧
      (endReturn o outcome s).pins = s.pins ∧ (endReturn o outcome s).settings = s.settings ∧
      (endReturn o outcome s).claim = s.claim ∧ (endReturn o outcome s).depository = s.depository ∧
      (endReturn o outcome s).alarm = s.alarm ∧ (endReturn o outcome s).freeCount = s.freeCount ∧
      (endReturn o outcome s).pending = s.pending := by
  unfold endReturn
  try simp only []
  refine ⟨?_, ?_, ?_, ?_, ?_, ?_, ?_, ?_, ?_⟩ <;> ((repeat' split) <;> simp)

@[simp] theorem endCommit_keeps (o : CommitOp) (outcome : CommitOutcome) (s : State) :
    (endCommit o outcome s).startUp = s.startUp ∧ (endCommit o outcome s).clock = s.clock ∧
      (endCommit o outcome s).pins = s.pins ∧ (endCommit o outcome s).settings = s.settings ∧
      (endCommit o outcome s).claim = s.claim ∧ (endCommit o outcome s).depository = s.depository ∧
      (endCommit o outcome s).alarm = s.alarm ∧ (endCommit o outcome s).freeCount = s.freeCount ∧
      (endCommit o outcome s).pending = s.pending := by
  unfold endCommit
  try simp only []
  refine ⟨?_, ?_, ?_, ?_, ?_, ?_, ?_, ?_, ?_⟩ <;> ((repeat' split) <;> simp)

@[simp] theorem endPurge_keeps (outcome : PurgeOutcome) (s : State) :
    (endPurge outcome s).startUp = s.startUp ∧ (endPurge outcome s).clock = s.clock ∧ (endPurge outcome s).pins = s.pins ∧
      (endPurge outcome s).settings = s.settings ∧ (endPurge outcome s).claim = s.claim ∧
      (endPurge outcome s).depository = s.depository ∧ (endPurge outcome s).alarm = s.alarm ∧
      (endPurge outcome s).freeCount = s.freeCount ∧ (endPurge outcome s).pending = s.pending := by
  unfold endPurge
  try simp only []
  refine ⟨?_, ?_, ?_, ?_, ?_, ?_, ?_, ?_, ?_⟩ <;> ((repeat' split) <;> simp)

@[simp] theorem jamDispense_keeps (t : Teller) (s : State) :
    (jamDispense t s).startUp = s.startUp ∧ (jamDispense t s).clock = s.clock ∧ (jamDispense t s).pins = s.pins ∧
      (jamDispense t s).settings = s.settings ∧ (jamDispense t s).claim = s.claim ∧ (jamDispense t s).escrow = s.escrow ∧
      (jamDispense t s).depository = s.depository ∧ (jamDispense t s).alarm = s.alarm ∧ (jamDispense t s).ports = s.ports ∧
      (jamDispense t s).freeCount = s.freeCount ∧ (jamDispense t s).pending = s.pending := by
  unfold jamDispense
  try simp only []
  refine ⟨?_, ?_, ?_, ?_, ?_, ?_, ?_, ?_, ?_, ?_, ?_⟩ <;> ((repeat' split) <;> simp)

@[simp] theorem jamEscrow_keeps (s : State) :
    (jamEscrow s).startUp = s.startUp ∧ (jamEscrow s).clock = s.clock ∧ (jamEscrow s).pins = s.pins ∧
      (jamEscrow s).settings = s.settings ∧ (jamEscrow s).claim = s.claim ∧ (jamEscrow s).dispenses = s.dispenses ∧
      (jamEscrow s).depository = s.depository ∧ (jamEscrow s).alarm = s.alarm ∧ (jamEscrow s).ports = s.ports ∧
      (jamEscrow s).freeCount = s.freeCount ∧ (jamEscrow s).pending = s.pending := by
  unfold jamEscrow
  try simp only []
  refine ⟨?_, ?_, ?_, ?_, ?_, ?_, ?_, ?_, ?_, ?_, ?_⟩ <;> ((repeat' split) <;> simp)

@[simp] theorem stopTransport_keeps (s : State) :
    (stopTransport s).startUp = s.startUp ∧ (stopTransport s).clock = s.clock ∧ (stopTransport s).pins = s.pins ∧
      (stopTransport s).position = s.position ∧ (stopTransport s).settings = s.settings ∧
      (stopTransport s).claim = s.claim ∧ (stopTransport s).dispenses = s.dispenses ∧
      (stopTransport s).escrow = s.escrow ∧ (stopTransport s).depository = s.depository ∧
      (stopTransport s).alarm = s.alarm ∧ (stopTransport s).journal = s.journal ∧ (stopTransport s).ports = s.ports ∧
      (stopTransport s).freeCount = s.freeCount ∧ (stopTransport s).pending = s.pending := by
  simp [stopTransport]

/-- No note is timed, picked or drawn once the transport has stopped (R62). -/
theorem stopTransport_path (s : State) :
    (stopTransport s).path = { s.path with pick := none, draw := none, timers := [] } := rfl

@[simp] theorem jam_keeps (o : MoveOwner) (fault : ModuleFault) (outcome : PurgeOutcome) (s : State) :
    (jam o fault outcome s).startUp = s.startUp ∧ (jam o fault outcome s).clock = s.clock ∧
      (jam o fault outcome s).pins = s.pins ∧ (jam o fault outcome s).settings = s.settings ∧
      (jam o fault outcome s).claim = s.claim ∧ (jam o fault outcome s).depository = s.depository ∧
      (jam o fault outcome s).alarm = s.alarm ∧ (jam o fault outcome s).freeCount = s.freeCount ∧
      (jam o fault outcome s).pending = s.pending := by
  unfold jam
  try simp only []
  refine ⟨?_, ?_, ?_, ?_, ?_, ?_, ?_, ?_, ?_⟩ <;> ((repeat' split) <;> simp)

@[simp] theorem stopDraw_keeps (d : Draw) (s : State) :
    (stopDraw d s).startUp = s.startUp ∧ (stopDraw d s).clock = s.clock ∧ (stopDraw d s).pins = s.pins ∧
      (stopDraw d s).settings = s.settings ∧ (stopDraw d s).claim = s.claim ∧ (stopDraw d s).depository = s.depository ∧
      (stopDraw d s).alarm = s.alarm ∧ (stopDraw d s).freeCount = s.freeCount ∧ (stopDraw d s).pending = s.pending := by
  unfold stopDraw
  try simp only []
  refine ⟨?_, ?_, ?_, ?_, ?_, ?_, ?_, ?_, ?_⟩ <;> ((repeat' split) <;> simp)

@[simp] theorem startDraw_keeps (source : DrawSource) (cause : DrawCause) (uncounted : Quad Nat) (s : State) :
    (startDraw source cause uncounted s).startUp = s.startUp ∧ (startDraw source cause uncounted s).clock = s.clock ∧
      (startDraw source cause uncounted s).pins = s.pins ∧ (startDraw source cause uncounted s).settings = s.settings ∧
      (startDraw source cause uncounted s).claim = s.claim ∧ (startDraw source cause uncounted s).depository = s.depository ∧
      (startDraw source cause uncounted s).alarm = s.alarm ∧ (startDraw source cause uncounted s).freeCount = s.freeCount ∧
      (startDraw source cause uncounted s).pending = s.pending := by
  unfold startDraw
  try simp only []
  refine ⟨?_, ?_, ?_, ?_, ?_, ?_, ?_, ?_, ?_⟩ <;> ((repeat' split) <;> simp)

@[simp] theorem bookDrawn_keeps (d : Draw) (x : Ix) (s : State) :
    (bookDrawn d x s).startUp = s.startUp ∧ (bookDrawn d x s).clock = s.clock ∧ (bookDrawn d x s).pins = s.pins ∧
      (bookDrawn d x s).settings = s.settings ∧ (bookDrawn d x s).claim = s.claim ∧ (bookDrawn d x s).dispenses = s.dispenses ∧
      (bookDrawn d x s).escrow = s.escrow ∧ (bookDrawn d x s).depository = s.depository ∧ (bookDrawn d x s).alarm = s.alarm ∧
      (bookDrawn d x s).journal = s.journal ∧ (bookDrawn d x s).ports = s.ports ∧ (bookDrawn d x s).freeCount = s.freeCount ∧
      (bookDrawn d x s).pending = s.pending := by
  unfold bookDrawn
  try simp only []
  refine ⟨?_, ?_, ?_, ?_, ?_, ?_, ?_, ?_, ?_, ?_, ?_, ?_, ?_⟩ <;> ((repeat' split) <;> simp)

@[simp] theorem purgeNext_keeps (s : State) :
    (purgeNext s).startUp = s.startUp ∧ (purgeNext s).clock = s.clock ∧ (purgeNext s).pins = s.pins ∧
      (purgeNext s).settings = s.settings ∧ (purgeNext s).claim = s.claim ∧ (purgeNext s).depository = s.depository ∧
      (purgeNext s).alarm = s.alarm ∧ (purgeNext s).freeCount = s.freeCount ∧ (purgeNext s).pending = s.pending := by
  unfold purgeNext
  try simp only []
  refine ⟨?_, ?_, ?_, ?_, ?_, ?_, ?_, ?_, ?_⟩ <;> ((repeat' split) <;> simp)

@[simp] theorem startPurge_keeps (startUp : Bool) (sources : List DrawSource) (s : State) :
    (startPurge startUp sources s).startUp = s.startUp ∧ (startPurge startUp sources s).clock = s.clock ∧
      (startPurge startUp sources s).pins = s.pins ∧ (startPurge startUp sources s).settings = s.settings ∧
      (startPurge startUp sources s).claim = s.claim ∧ (startPurge startUp sources s).depository = s.depository ∧
      (startPurge startUp sources s).alarm = s.alarm ∧ (startPurge startUp sources s).freeCount = s.freeCount ∧
      (startPurge startUp sources s).pending = s.pending := by
  unfold startPurge
  try simp only []
  refine ⟨?_, ?_, ?_, ?_, ?_, ?_, ?_, ?_, ?_⟩ <;> ((repeat' split) <;> simp)

@[simp] theorem leaveShort_keeps (d : Draw) (s : State) :
    (leaveShort d s).startUp = s.startUp ∧ (leaveShort d s).clock = s.clock ∧ (leaveShort d s).pins = s.pins ∧
      (leaveShort d s).settings = s.settings ∧ (leaveShort d s).claim = s.claim ∧ (leaveShort d s).path = s.path ∧
      (leaveShort d s).dispenses = s.dispenses ∧ (leaveShort d s).escrow = s.escrow ∧
      (leaveShort d s).depository = s.depository ∧ (leaveShort d s).alarm = s.alarm ∧ (leaveShort d s).journal = s.journal ∧
      (leaveShort d s).ports = s.ports ∧ (leaveShort d s).freeCount = s.freeCount ∧ (leaveShort d s).pending = s.pending := by
  unfold leaveShort
  try simp only []
  refine ⟨?_, ?_, ?_, ?_, ?_, ?_, ?_, ?_, ?_, ?_, ?_, ?_, ?_, ?_⟩ <;> ((repeat' split) <;> simp)

@[simp] theorem present_keeps (t : Teller) (s : State) :
    (present t s).startUp = s.startUp ∧ (present t s).clock = s.clock ∧ (present t s).pins = s.pins ∧
      (present t s).position = s.position ∧ (present t s).settings = s.settings ∧ (present t s).claim = s.claim ∧
      (present t s).path = s.path ∧ (present t s).escrow = s.escrow ∧ (present t s).depository = s.depository ∧
      (present t s).alarm = s.alarm ∧ (present t s).journal = s.journal ∧ (present t s).freeCount = s.freeCount ∧
      (present t s).pending = s.pending := by
  unfold present
  try simp only []
  refine ⟨?_, ?_, ?_, ?_, ?_, ?_, ?_, ?_, ?_, ?_, ?_, ?_, ?_⟩ <;> ((repeat' split) <;> simp)

@[simp] theorem stopShort_keeps (t : Teller) (why : ShortCause) (s : State) :
    (stopShort t why s).startUp = s.startUp ∧ (stopShort t why s).clock = s.clock ∧ (stopShort t why s).pins = s.pins ∧
      (stopShort t why s).settings = s.settings ∧ (stopShort t why s).claim = s.claim ∧
      (stopShort t why s).depository = s.depository ∧ (stopShort t why s).alarm = s.alarm ∧
      (stopShort t why s).freeCount = s.freeCount ∧ (stopShort t why s).pending = s.pending := by
  unfold stopShort
  try simp only []
  refine ⟨?_, ?_, ?_, ?_, ?_, ?_, ?_, ?_, ?_⟩ <;> ((repeat' split) <;> simp)

@[simp] theorem beginStop_keeps (t : Teller) (why : StopReason) (s : State) :
    (beginStop t why s).startUp = s.startUp ∧ (beginStop t why s).clock = s.clock ∧ (beginStop t why s).pins = s.pins ∧
      (beginStop t why s).settings = s.settings ∧ (beginStop t why s).claim = s.claim ∧
      (beginStop t why s).depository = s.depository ∧ (beginStop t why s).alarm = s.alarm ∧
      (beginStop t why s).freeCount = s.freeCount ∧ (beginStop t why s).pending = s.pending := by
  unfold beginStop
  try simp only []
  refine ⟨?_, ?_, ?_, ?_, ?_, ?_, ?_, ?_, ?_⟩ <;> ((repeat' split) <;> simp)

@[simp] theorem advance_keeps (n : Nat) (t : Teller) (s : State) :
    (advance n t s).startUp = s.startUp ∧ (advance n t s).clock = s.clock ∧ (advance n t s).pins = s.pins ∧
      (advance n t s).settings = s.settings ∧ (advance n t s).claim = s.claim ∧ (advance n t s).depository = s.depository ∧
      (advance n t s).alarm = s.alarm ∧ (advance n t s).freeCount = s.freeCount ∧ (advance n t s).pending = s.pending := by
  induction n generalizing s with
  | zero => simp [advance]
  | succ n ih =>
    have hm := reMix_keeps t s
    unfold advance
    rcases hr : reMix t s with ⟨o, s1⟩
    rw [hr] at hm
    simp only [] at hm ⊢
    refine ⟨?_, ?_, ?_, ?_, ?_, ?_, ?_, ?_, ?_⟩ <;> ((repeat' split) <;> simp_all)

@[simp] theorem enterPicking_keeps (t : Teller) (s : State) :
    (enterPicking t s).startUp = s.startUp ∧ (enterPicking t s).clock = s.clock ∧ (enterPicking t s).pins = s.pins ∧
      (enterPicking t s).settings = s.settings ∧ (enterPicking t s).claim = s.claim ∧
      (enterPicking t s).depository = s.depository ∧ (enterPicking t s).alarm = s.alarm ∧
      (enterPicking t s).freeCount = s.freeCount ∧ (enterPicking t s).pending = s.pending := by
  unfold enterPicking
  try simp only []
  refine ⟨?_, ?_, ?_, ?_, ?_, ?_, ?_, ?_, ?_⟩ <;> ((repeat' split) <;> simp)

@[simp] theorem pickReported_keeps (t : Teller) (s : State) :
    (pickReported t s).startUp = s.startUp ∧ (pickReported t s).clock = s.clock ∧ (pickReported t s).pins = s.pins ∧
      (pickReported t s).settings = s.settings ∧ (pickReported t s).claim = s.claim ∧
      (pickReported t s).depository = s.depository ∧ (pickReported t s).alarm = s.alarm ∧
      (pickReported t s).freeCount = s.freeCount ∧ (pickReported t s).pending = s.pending := by
  unfold pickReported
  try simp only []
  refine ⟨?_, ?_, ?_, ?_, ?_, ?_, ?_, ?_, ?_⟩ <;> ((repeat' split) <;> simp)

@[simp] theorem failGrant_keeps (t : Teller) (why : Reason) (carried : Results) (s : State) :
    (failGrant t why carried s).startUp = s.startUp ∧ (failGrant t why carried s).clock = s.clock ∧
      (failGrant t why carried s).pins = s.pins ∧ (failGrant t why carried s).settings = s.settings ∧
      (failGrant t why carried s).claim = s.claim ∧ (failGrant t why carried s).depository = s.depository ∧
      (failGrant t why carried s).alarm = s.alarm ∧ (failGrant t why carried s).freeCount = s.freeCount ∧
      (failGrant t why carried s).pending = s.pending := by
  unfold failGrant
  try simp only []
  refine ⟨?_, ?_, ?_, ?_, ?_, ?_, ?_, ?_, ?_⟩ <;> ((repeat' split) <;> simp)

@[simp] theorem takeMix_keeps (t : Teller) (m : MixResult) (s : State) :
    (takeMix t m s).startUp = s.startUp ∧ (takeMix t m s).clock = s.clock ∧ (takeMix t m s).pins = s.pins ∧
      (takeMix t m s).position = s.position ∧ (takeMix t m s).settings = s.settings ∧ (takeMix t m s).claim = s.claim ∧
      (takeMix t m s).path = s.path ∧ (takeMix t m s).escrow = s.escrow ∧ (takeMix t m s).depository = s.depository ∧
      (takeMix t m s).alarm = s.alarm ∧ (takeMix t m s).journal = s.journal ∧ (takeMix t m s).ports = s.ports ∧
      (takeMix t m s).freeCount = s.freeCount ∧ (takeMix t m s).pending = s.pending := by
  unfold takeMix
  try simp only []
  refine ⟨?_, ?_, ?_, ?_, ?_, ?_, ?_, ?_, ?_, ?_, ?_, ?_, ?_, ?_⟩ <;> ((repeat' split) <;> simp)

@[simp] theorem grantChecks_keeps (t : Teller) (s : State) :
    (grantChecks t s).startUp = s.startUp ∧ (grantChecks t s).clock = s.clock ∧ (grantChecks t s).pins = s.pins ∧
      (grantChecks t s).settings = s.settings ∧ (grantChecks t s).claim = s.claim ∧
      (grantChecks t s).depository = s.depository ∧ (grantChecks t s).alarm = s.alarm ∧
      (grantChecks t s).freeCount = s.freeCount ∧ (grantChecks t s).pending = s.pending := by
  unfold grantChecks
  try simp only []
  refine ⟨?_, ?_, ?_, ?_, ?_, ?_, ?_, ?_, ?_⟩ <;> (repeat' split)
  all_goals first
    | (simp; done)
    | (rename_i h; have h' := congrArg Prod.snd h; simp only [] at h'; subst h'; simp; done)
    | (rename_i h _; have h' := congrArg Prod.snd h; simp only [] at h'; subst h'; simp; done)

@[simp] theorem grantDispense_keeps (t : Teller) (s : State) :
    (grantDispense t s).startUp = s.startUp ∧ (grantDispense t s).clock = s.clock ∧ (grantDispense t s).pins = s.pins ∧
      (grantDispense t s).settings = s.settings ∧ (grantDispense t s).claim = s.claim ∧
      (grantDispense t s).depository = s.depository ∧ (grantDispense t s).alarm = s.alarm ∧
      (grantDispense t s).freeCount = s.freeCount ∧ (grantDispense t s).pending = s.pending := by
  unfold grantDispense
  try simp only []
  refine ⟨?_, ?_, ?_, ?_, ?_, ?_, ?_, ?_, ?_⟩ <;> ((repeat' split) <;> simp)

@[simp] theorem enterRetracting_keeps (t : Teller) (s : State) :
    (enterRetracting t s).startUp = s.startUp ∧ (enterRetracting t s).clock = s.clock ∧ (enterRetracting t s).pins = s.pins ∧
      (enterRetracting t s).position = s.position ∧ (enterRetracting t s).settings = s.settings ∧
      (enterRetracting t s).claim = s.claim ∧ (enterRetracting t s).path = s.path ∧ (enterRetracting t s).escrow = s.escrow ∧
      (enterRetracting t s).depository = s.depository ∧ (enterRetracting t s).alarm = s.alarm ∧
      (enterRetracting t s).journal = s.journal ∧ (enterRetracting t s).ports = s.ports ∧
      (enterRetracting t s).freeCount = s.freeCount ∧ (enterRetracting t s).pending = s.pending := by
  unfold enterRetracting
  try simp only []
  refine ⟨?_, ?_, ?_, ?_, ?_, ?_, ?_, ?_, ?_, ?_, ?_, ?_, ?_, ?_⟩ <;> ((repeat' split) <;> simp)

@[simp] theorem proceedRetract_keeps (t : Teller) (s : State) :
    (proceedRetract t s).startUp = s.startUp ∧ (proceedRetract t s).clock = s.clock ∧ (proceedRetract t s).pins = s.pins ∧
      (proceedRetract t s).settings = s.settings ∧ (proceedRetract t s).claim = s.claim ∧
      (proceedRetract t s).depository = s.depository ∧ (proceedRetract t s).alarm = s.alarm ∧
      (proceedRetract t s).freeCount = s.freeCount ∧ (proceedRetract t s).pending = s.pending := by
  unfold proceedRetract
  try simp only []
  refine ⟨?_, ?_, ?_, ?_, ?_, ?_, ?_, ?_, ?_⟩ <;> ((repeat' split) <;> simp)

@[simp] theorem joinWaiting_keeps (e : WaitEntry) (s : State) :
    (joinWaiting e s).startUp = s.startUp ∧ (joinWaiting e s).clock = s.clock ∧ (joinWaiting e s).pins = s.pins ∧
      (joinWaiting e s).position = s.position ∧ (joinWaiting e s).settings = s.settings ∧ (joinWaiting e s).path = s.path ∧
      (joinWaiting e s).dispenses = s.dispenses ∧ (joinWaiting e s).escrow = s.escrow ∧
      (joinWaiting e s).depository = s.depository ∧ (joinWaiting e s).alarm = s.alarm ∧ (joinWaiting e s).journal = s.journal ∧
      (joinWaiting e s).ports = s.ports ∧ (joinWaiting e s).freeCount = s.freeCount ∧ (joinWaiting e s).pending = s.pending := by
  unfold joinWaiting
  try simp only []
  refine ⟨?_, ?_, ?_, ?_, ?_, ?_, ?_, ?_, ?_, ?_, ?_, ?_, ?_, ?_⟩ <;> ((repeat' split) <;> simp)

@[simp] theorem leaveWaiting_keeps (e : WaitEntry) (s : State) :
    (leaveWaiting e s).startUp = s.startUp ∧ (leaveWaiting e s).clock = s.clock ∧ (leaveWaiting e s).pins = s.pins ∧
      (leaveWaiting e s).position = s.position ∧ (leaveWaiting e s).settings = s.settings ∧ (leaveWaiting e s).path = s.path ∧
      (leaveWaiting e s).dispenses = s.dispenses ∧ (leaveWaiting e s).escrow = s.escrow ∧
      (leaveWaiting e s).depository = s.depository ∧ (leaveWaiting e s).alarm = s.alarm ∧
      (leaveWaiting e s).journal = s.journal ∧ (leaveWaiting e s).ports = s.ports ∧
      (leaveWaiting e s).freeCount = s.freeCount ∧ (leaveWaiting e s).pending = s.pending := by
  unfold leaveWaiting
  try simp only []
  refine ⟨?_, ?_, ?_, ?_, ?_, ?_, ?_, ?_, ?_, ?_, ?_, ?_, ?_, ?_⟩ <;> ((repeat' split) <;> simp)

@[simp] theorem handOn_keeps (s : State) :
    (handOn s).startUp = s.startUp ∧ (handOn s).clock = s.clock ∧ (handOn s).pins = s.pins ∧ (handOn s).settings = s.settings ∧
      (handOn s).depository = s.depository ∧ (handOn s).alarm = s.alarm ∧ (handOn s).freeCount = s.freeCount ∧
      (handOn s).pending = s.pending := by
  unfold handOn
  try simp only []
  refine ⟨?_, ?_, ?_, ?_, ?_, ?_, ?_, ?_⟩ <;> ((repeat' split) <;> simp)

@[simp] theorem freeClaim_keeps (s : State) :
    (freeClaim s).startUp = s.startUp ∧ (freeClaim s).clock = s.clock ∧ (freeClaim s).pins = s.pins ∧
      (freeClaim s).settings = s.settings ∧ (freeClaim s).depository = s.depository ∧ (freeClaim s).alarm = s.alarm ∧
      (freeClaim s).freeCount = s.freeCount ∧ (freeClaim s).pending = s.pending := by
  unfold freeClaim
  try simp only []
  refine ⟨?_, ?_, ?_, ?_, ?_, ?_, ?_, ?_⟩ <;> ((repeat' split) <;> simp)

@[simp] theorem emptyWaiting_keeps (l : List WaitEntry) (s : State) :
    (emptyWaiting l s).startUp = s.startUp ∧ (emptyWaiting l s).clock = s.clock ∧ (emptyWaiting l s).pins = s.pins ∧
      (emptyWaiting l s).settings = s.settings ∧ (emptyWaiting l s).claim = s.claim ∧
      (emptyWaiting l s).depository = s.depository ∧ (emptyWaiting l s).alarm = s.alarm ∧
      (emptyWaiting l s).freeCount = s.freeCount ∧ (emptyWaiting l s).pending = s.pending := by
  induction l generalizing s with
  | nil => simp [emptyWaiting]
  | cons e l ih =>
    unfold emptyWaiting
    cases e <;> simp [ih]

@[simp] theorem giveUpDeferred_keeps (t : Teller) (s : State) :
    (giveUpDeferred t s).startUp = s.startUp ∧ (giveUpDeferred t s).clock = s.clock ∧ (giveUpDeferred t s).pins = s.pins ∧
      (giveUpDeferred t s).settings = s.settings ∧ (giveUpDeferred t s).claim = s.claim ∧
      (giveUpDeferred t s).depository = s.depository ∧ (giveUpDeferred t s).alarm = s.alarm ∧
      (giveUpDeferred t s).freeCount = s.freeCount ∧ (giveUpDeferred t s).pending = s.pending := by
  unfold giveUpDeferred
  try simp only []
  refine ⟨?_, ?_, ?_, ?_, ?_, ?_, ?_, ?_, ?_⟩ <;> ((repeat' split) <;> simp)

@[simp] theorem lockClaim_keeps (s : State) :
    (lockClaim s).startUp = s.startUp ∧ (lockClaim s).clock = s.clock ∧ (lockClaim s).pins = s.pins ∧
      (lockClaim s).settings = s.settings ∧ (lockClaim s).depository = s.depository ∧ (lockClaim s).alarm = s.alarm ∧
      (lockClaim s).freeCount = s.freeCount ∧ (lockClaim s).pending = s.pending := by
  unfold lockClaim
  try simp only []
  refine ⟨?_, ?_, ?_, ?_, ?_, ?_, ?_, ?_⟩ <;> ((repeat' split) <;> simp)

@[simp] theorem enterDelaying_keeps (t : Teller) (s : State) :
    (enterDelaying t s).startUp = s.startUp ∧ (enterDelaying t s).clock = s.clock ∧ (enterDelaying t s).pins = s.pins ∧
      (enterDelaying t s).settings = s.settings ∧ (enterDelaying t s).depository = s.depository ∧
      (enterDelaying t s).alarm = s.alarm ∧ (enterDelaying t s).freeCount = s.freeCount ∧
      (enterDelaying t s).pending = s.pending := by
  unfold enterDelaying
  try simp only []
  refine ⟨?_, ?_, ?_, ?_, ?_, ?_, ?_, ?_⟩ <;> ((repeat' split) <;> simp)

@[simp] theorem endDelay_keeps (t : Teller) (s : State) :
    (endDelay t s).startUp = s.startUp ∧ (endDelay t s).clock = s.clock ∧ (endDelay t s).pins = s.pins ∧
      (endDelay t s).settings = s.settings ∧ (endDelay t s).depository = s.depository ∧ (endDelay t s).alarm = s.alarm ∧
      (endDelay t s).freeCount = s.freeCount ∧ (endDelay t s).pending = s.pending := by
  unfold endDelay
  try simp only []
  refine ⟨?_, ?_, ?_, ?_, ?_, ?_, ?_, ?_⟩ <;> ((repeat' split) <;> simp)

@[simp] theorem watchIdle_keeps (s : State) :
    (watchIdle s).startUp = s.startUp ∧ (watchIdle s).clock = s.clock ∧ (watchIdle s).pins = s.pins ∧
      (watchIdle s).position = s.position ∧ (watchIdle s).settings = s.settings ∧ (watchIdle s).path = s.path ∧
      (watchIdle s).dispenses = s.dispenses ∧ (watchIdle s).escrow = s.escrow ∧ (watchIdle s).depository = s.depository ∧
      (watchIdle s).alarm = s.alarm ∧ (watchIdle s).journal = s.journal ∧ (watchIdle s).ports = s.ports ∧
      (watchIdle s).freeCount = s.freeCount ∧ (watchIdle s).pending = s.pending := by
  unfold watchIdle
  try simp only []
  refine ⟨?_, ?_, ?_, ?_, ?_, ?_, ?_, ?_, ?_, ?_, ?_, ?_, ?_, ?_⟩ <;> ((repeat' split) <;> simp)

@[simp] theorem proceedDeferred_keeps (t : Teller) (s : State) :
    (proceedDeferred t s).startUp = s.startUp ∧ (proceedDeferred t s).clock = s.clock ∧ (proceedDeferred t s).pins = s.pins ∧
      (proceedDeferred t s).settings = s.settings ∧ (proceedDeferred t s).claim = s.claim ∧
      (proceedDeferred t s).depository = s.depository ∧ (proceedDeferred t s).alarm = s.alarm ∧
      (proceedDeferred t s).freeCount = s.freeCount ∧ (proceedDeferred t s).pending = s.pending := by
  unfold proceedDeferred
  try simp only []
  refine ⟨?_, ?_, ?_, ?_, ?_, ?_, ?_, ?_, ?_⟩ <;> ((repeat' split) <;> simp)

@[simp] theorem discardEntry_keeps (s : State) :
    (discardEntry s).startUp = s.startUp ∧ (discardEntry s).clock = s.clock ∧ (discardEntry s).pins = s.pins ∧
      (discardEntry s).position = s.position ∧ (discardEntry s).settings = s.settings ∧ (discardEntry s).claim = s.claim ∧
      (discardEntry s).path = s.path ∧ (discardEntry s).dispenses = s.dispenses ∧ (discardEntry s).escrow = s.escrow ∧
      (discardEntry s).alarm = s.alarm ∧ (discardEntry s).journal = s.journal ∧ (discardEntry s).ports = s.ports ∧
      (discardEntry s).freeCount = s.freeCount ∧ (discardEntry s).pending = s.pending := by
  unfold discardEntry
  try simp only []
  refine ⟨?_, ?_, ?_, ?_, ?_, ?_, ?_, ?_, ?_, ?_, ?_, ?_, ?_, ?_⟩ <;> ((repeat' split) <;> simp)

@[simp] theorem judgePermit_keeps (s : State) :
    (judgePermit s).startUp = s.startUp ∧ (judgePermit s).clock = s.clock ∧ (judgePermit s).pins = s.pins ∧
      (judgePermit s).position = s.position ∧ (judgePermit s).settings = s.settings ∧ (judgePermit s).claim = s.claim ∧
      (judgePermit s).path = s.path ∧ (judgePermit s).dispenses = s.dispenses ∧ (judgePermit s).escrow = s.escrow ∧
      (judgePermit s).alarm = s.alarm ∧ (judgePermit s).journal = s.journal ∧ (judgePermit s).ports = s.ports ∧
      (judgePermit s).freeCount = s.freeCount ∧ (judgePermit s).pending = s.pending := by
  unfold judgePermit
  try simp only []
  refine ⟨?_, ?_, ?_, ?_, ?_, ?_, ?_, ?_, ?_, ?_, ?_, ?_, ?_, ?_⟩ <;> ((repeat' split) <;> simp)

@[simp] theorem leaveTransport_keeps (s : State) :
    (leaveTransport s).startUp = s.startUp ∧ (leaveTransport s).clock = s.clock ∧ (leaveTransport s).pins = s.pins ∧
      (leaveTransport s).position = s.position ∧ (leaveTransport s).settings = s.settings ∧
      (leaveTransport s).claim = s.claim ∧ (leaveTransport s).path = s.path ∧ (leaveTransport s).dispenses = s.dispenses ∧
      (leaveTransport s).escrow = s.escrow ∧ (leaveTransport s).alarm = s.alarm ∧ (leaveTransport s).journal = s.journal ∧
      (leaveTransport s).ports = s.ports ∧ (leaveTransport s).freeCount = s.freeCount ∧ (leaveTransport s).pending = s.pending := by
  unfold leaveTransport
  try simp only []
  refine ⟨?_, ?_, ?_, ?_, ?_, ?_, ?_, ?_, ?_, ?_, ?_, ?_, ?_, ?_⟩ <;> ((repeat' split) <;> simp)

@[simp] theorem rewriteDisplay_keeps (s : State) :
    (rewriteDisplay s).startUp = s.startUp ∧ (rewriteDisplay s).clock = s.clock ∧ (rewriteDisplay s).pins = s.pins ∧
      (rewriteDisplay s).position = s.position ∧ (rewriteDisplay s).settings = s.settings ∧
      (rewriteDisplay s).claim = s.claim ∧ (rewriteDisplay s).path = s.path ∧ (rewriteDisplay s).dispenses = s.dispenses ∧
      (rewriteDisplay s).escrow = s.escrow ∧ (rewriteDisplay s).alarm = s.alarm ∧ (rewriteDisplay s).journal = s.journal ∧
      (rewriteDisplay s).ports = s.ports ∧ (rewriteDisplay s).freeCount = s.freeCount ∧ (rewriteDisplay s).pending = s.pending := by
  unfold rewriteDisplay
  try simp only []
  refine ⟨?_, ?_, ?_, ?_, ?_, ?_, ?_, ?_, ?_, ?_, ?_, ?_, ?_, ?_⟩ <;> ((repeat' split) <;> simp)

@[simp] theorem judgeBin_keeps (byDrop : Bool) (s : State) :
    (judgeBin byDrop s).startUp = s.startUp ∧ (judgeBin byDrop s).clock = s.clock ∧ (judgeBin byDrop s).pins = s.pins ∧
      (judgeBin byDrop s).position = s.position ∧ (judgeBin byDrop s).settings = s.settings ∧
      (judgeBin byDrop s).claim = s.claim ∧ (judgeBin byDrop s).path = s.path ∧ (judgeBin byDrop s).dispenses = s.dispenses ∧
      (judgeBin byDrop s).escrow = s.escrow ∧ (judgeBin byDrop s).alarm = s.alarm ∧ (judgeBin byDrop s).journal = s.journal ∧
      (judgeBin byDrop s).freeCount = s.freeCount ∧ (judgeBin byDrop s).pending = s.pending := by
  unfold judgeBin
  try simp only []
  refine ⟨?_, ?_, ?_, ?_, ?_, ?_, ?_, ?_, ?_, ?_, ?_, ?_, ?_⟩ <;> ((repeat' split) <;> simp)

@[simp] theorem dropEnvelope_keeps (e : Envelope) (capturing : Bool) (s : State) :
    (dropEnvelope e capturing s).startUp = s.startUp ∧ (dropEnvelope e capturing s).clock = s.clock ∧
      (dropEnvelope e capturing s).pins = s.pins ∧ (dropEnvelope e capturing s).position = s.position ∧
      (dropEnvelope e capturing s).settings = s.settings ∧ (dropEnvelope e capturing s).claim = s.claim ∧
      (dropEnvelope e capturing s).path = s.path ∧ (dropEnvelope e capturing s).dispenses = s.dispenses ∧
      (dropEnvelope e capturing s).escrow = s.escrow ∧ (dropEnvelope e capturing s).alarm = s.alarm ∧
      (dropEnvelope e capturing s).pending = s.pending := by
  unfold dropEnvelope
  try simp only []
  refine ⟨?_, ?_, ?_, ?_, ?_, ?_, ?_, ?_, ?_, ?_, ?_⟩ <;> ((repeat' split) <;> simp)

@[simp] theorem jamSlot_keeps (inDrop : Bool) (s : State) :
    (jamSlot inDrop s).startUp = s.startUp ∧ (jamSlot inDrop s).clock = s.clock ∧ (jamSlot inDrop s).pins = s.pins ∧
      (jamSlot inDrop s).position = s.position ∧ (jamSlot inDrop s).settings = s.settings ∧
      (jamSlot inDrop s).claim = s.claim ∧ (jamSlot inDrop s).path = s.path ∧ (jamSlot inDrop s).dispenses = s.dispenses ∧
      (jamSlot inDrop s).escrow = s.escrow ∧ (jamSlot inDrop s).alarm = s.alarm ∧ (jamSlot inDrop s).journal = s.journal ∧
      (jamSlot inDrop s).freeCount = s.freeCount ∧ (jamSlot inDrop s).pending = s.pending := by
  unfold jamSlot
  try simp only []
  refine ⟨?_, ?_, ?_, ?_, ?_, ?_, ?_, ?_, ?_, ?_, ?_, ?_, ?_⟩ <;> ((repeat' split) <;> simp)

@[simp] theorem endClearRun_keeps (run : ClearRun) (s : State) :
    (endClearRun run s).startUp = s.startUp ∧ (endClearRun run s).clock = s.clock ∧ (endClearRun run s).pins = s.pins ∧
      (endClearRun run s).position = s.position ∧ (endClearRun run s).settings = s.settings ∧
      (endClearRun run s).claim = s.claim ∧ (endClearRun run s).path = s.path ∧ (endClearRun run s).dispenses = s.dispenses ∧
      (endClearRun run s).escrow = s.escrow ∧ (endClearRun run s).alarm = s.alarm ∧ (endClearRun run s).journal = s.journal ∧
      (endClearRun run s).freeCount = s.freeCount ∧ (endClearRun run s).pending = s.pending := by
  unfold endClearRun
  try simp only []
  refine ⟨?_, ?_, ?_, ?_, ?_, ?_, ?_, ?_, ?_, ?_, ?_, ?_, ?_⟩ <;> ((repeat' split) <;> simp)

@[simp] theorem startClearRun_keeps (run : ClearRun) (s : State) :
    (startClearRun run s).startUp = s.startUp ∧ (startClearRun run s).clock = s.clock ∧ (startClearRun run s).pins = s.pins ∧
      (startClearRun run s).position = s.position ∧ (startClearRun run s).settings = s.settings ∧
      (startClearRun run s).claim = s.claim ∧ (startClearRun run s).path = s.path ∧
      (startClearRun run s).dispenses = s.dispenses ∧ (startClearRun run s).escrow = s.escrow ∧
      (startClearRun run s).alarm = s.alarm ∧ (startClearRun run s).journal = s.journal ∧
      (startClearRun run s).ports = s.ports ∧ (startClearRun run s).freeCount = s.freeCount ∧
      (startClearRun run s).pending = s.pending := by
  unfold startClearRun
  try simp only []
  refine ⟨?_, ?_, ?_, ?_, ?_, ?_, ?_, ?_, ?_, ?_, ?_, ?_, ?_, ?_⟩ <;> ((repeat' split) <;> simp)

@[simp] theorem onZone_keeps (z : Fin 16) (f : Zone → Zone) (s : State) :
    (onZone z f s).startUp = s.startUp ∧ (onZone z f s).clock = s.clock ∧ (onZone z f s).pins = s.pins ∧
      (onZone z f s).position = s.position ∧ (onZone z f s).settings = s.settings ∧ (onZone z f s).claim = s.claim ∧
      (onZone z f s).path = s.path ∧ (onZone z f s).dispenses = s.dispenses ∧ (onZone z f s).escrow = s.escrow ∧
      (onZone z f s).depository = s.depository ∧ (onZone z f s).journal = s.journal ∧ (onZone z f s).ports = s.ports ∧
      (onZone z f s).freeCount = s.freeCount ∧ (onZone z f s).pending = s.pending := by
  unfold onZone
  try simp only []
  refine ⟨?_, ?_, ?_, ?_, ?_, ?_, ?_, ?_, ?_, ?_, ?_, ?_, ?_, ?_⟩ <;> ((repeat' split) <;> simp)

@[simp] theorem markChanged_keeps (s : State) :
    (markChanged s).startUp = s.startUp ∧ (markChanged s).clock = s.clock ∧ (markChanged s).pins = s.pins ∧
      (markChanged s).position = s.position ∧ (markChanged s).settings = s.settings ∧ (markChanged s).claim = s.claim ∧
      (markChanged s).path = s.path ∧ (markChanged s).dispenses = s.dispenses ∧ (markChanged s).escrow = s.escrow ∧
      (markChanged s).depository = s.depository ∧ (markChanged s).journal = s.journal ∧ (markChanged s).ports = s.ports ∧
      (markChanged s).freeCount = s.freeCount ∧ (markChanged s).pending = s.pending := by
  unfold markChanged
  try simp only []
  refine ⟨?_, ?_, ?_, ?_, ?_, ?_, ?_, ?_, ?_, ?_, ?_, ?_, ?_, ?_⟩ <;> ((repeat' split) <;> simp)

@[simp] theorem setZoneState_keeps (z : Fin 16) (x : ZoneState) (s : State) :
    (setZoneState z x s).startUp = s.startUp ∧ (setZoneState z x s).clock = s.clock ∧ (setZoneState z x s).pins = s.pins ∧
      (setZoneState z x s).position = s.position ∧ (setZoneState z x s).settings = s.settings ∧
      (setZoneState z x s).claim = s.claim ∧ (setZoneState z x s).path = s.path ∧
      (setZoneState z x s).dispenses = s.dispenses ∧ (setZoneState z x s).escrow = s.escrow ∧
      (setZoneState z x s).depository = s.depository ∧ (setZoneState z x s).journal = s.journal ∧
      (setZoneState z x s).ports = s.ports ∧ (setZoneState z x s).freeCount = s.freeCount ∧
      (setZoneState z x s).pending = s.pending := by
  unfold setZoneState
  try simp only []
  refine ⟨?_, ?_, ?_, ?_, ?_, ?_, ?_, ?_, ?_, ?_, ?_, ?_, ?_, ?_⟩ <;> ((repeat' split) <;> simp)

@[simp] theorem sounderOff_keeps (s : State) :
    (sounderOff s).startUp = s.startUp ∧ (sounderOff s).clock = s.clock ∧ (sounderOff s).pins = s.pins ∧
      (sounderOff s).position = s.position ∧ (sounderOff s).settings = s.settings ∧ (sounderOff s).claim = s.claim ∧
      (sounderOff s).path = s.path ∧ (sounderOff s).dispenses = s.dispenses ∧ (sounderOff s).escrow = s.escrow ∧
      (sounderOff s).depository = s.depository ∧ (sounderOff s).journal = s.journal ∧ (sounderOff s).ports = s.ports ∧
      (sounderOff s).freeCount = s.freeCount ∧ (sounderOff s).pending = s.pending := by
  unfold sounderOff
  try simp only []
  refine ⟨?_, ?_, ?_, ?_, ?_, ?_, ?_, ?_, ?_, ?_, ?_, ?_, ?_, ?_⟩ <;> ((repeat' split) <;> simp)

@[simp] theorem soundFor_keeps (z : Fin 16) (s : State) :
    (soundFor z s).startUp = s.startUp ∧ (soundFor z s).clock = s.clock ∧ (soundFor z s).pins = s.pins ∧
      (soundFor z s).position = s.position ∧ (soundFor z s).settings = s.settings ∧ (soundFor z s).claim = s.claim ∧
      (soundFor z s).path = s.path ∧ (soundFor z s).dispenses = s.dispenses ∧ (soundFor z s).escrow = s.escrow ∧
      (soundFor z s).depository = s.depository ∧ (soundFor z s).journal = s.journal ∧ (soundFor z s).ports = s.ports ∧
      (soundFor z s).freeCount = s.freeCount ∧ (soundFor z s).pending = s.pending := by
  unfold soundFor
  try simp only []
  refine ⟨?_, ?_, ?_, ?_, ?_, ?_, ?_, ?_, ?_, ?_, ?_, ?_, ?_, ?_⟩ <;> ((repeat' split) <;> simp)

@[simp] theorem lockEscrow_keeps (s : State) :
    (lockEscrow s).startUp = s.startUp ∧ (lockEscrow s).clock = s.clock ∧ (lockEscrow s).pins = s.pins ∧
      (lockEscrow s).settings = s.settings ∧ (lockEscrow s).claim = s.claim ∧ (lockEscrow s).depository = s.depository ∧
      (lockEscrow s).alarm = s.alarm ∧ (lockEscrow s).freeCount = s.freeCount ∧ (lockEscrow s).pending = s.pending := by
  unfold lockEscrow
  try simp only []
  refine ⟨?_, ?_, ?_, ?_, ?_, ?_, ?_, ?_, ?_⟩ <;> ((repeat' split) <;> simp)

@[simp] theorem lockEntered_keeps (s : State) :
    (lockEntered s).startUp = s.startUp ∧ (lockEntered s).clock = s.clock ∧ (lockEntered s).pins = s.pins ∧
      (lockEntered s).settings = s.settings ∧ (lockEntered s).depository = s.depository ∧ (lockEntered s).alarm = s.alarm ∧
      (lockEntered s).freeCount = s.freeCount ∧ (lockEntered s).pending = s.pending := by
  unfold lockEntered
  try simp only []
  refine ⟨?_, ?_, ?_, ?_, ?_, ?_, ?_, ?_⟩ <;> ((repeat' split) <;> simp)

@[simp] theorem newRestriction_keeps (before after : Effects) (s : State) :
    (newRestriction before after s).startUp = s.startUp ∧ (newRestriction before after s).clock = s.clock ∧
      (newRestriction before after s).pins = s.pins ∧ (newRestriction before after s).settings = s.settings ∧
      (newRestriction before after s).freeCount = s.freeCount ∧ (newRestriction before after s).pending = s.pending := by
  unfold newRestriction
  try simp only []
  refine ⟨?_, ?_, ?_, ?_, ?_, ?_⟩ <;> ((repeat' split) <;> simp)

@[simp] theorem recomputeLevel_keeps (s : State) :
    (recomputeLevel s).startUp = s.startUp ∧ (recomputeLevel s).clock = s.clock ∧ (recomputeLevel s).pins = s.pins ∧
      (recomputeLevel s).position = s.position ∧ (recomputeLevel s).settings = s.settings ∧
      (recomputeLevel s).claim = s.claim ∧ (recomputeLevel s).path = s.path ∧ (recomputeLevel s).dispenses = s.dispenses ∧
      (recomputeLevel s).escrow = s.escrow ∧ (recomputeLevel s).depository = s.depository ∧
      (recomputeLevel s).journal = s.journal ∧ (recomputeLevel s).ports = s.ports ∧
      (recomputeLevel s).freeCount = s.freeCount ∧ (recomputeLevel s).pending = s.pending := by
  unfold recomputeLevel
  try simp only []
  refine ⟨?_, ?_, ?_, ?_, ?_, ?_, ?_, ?_, ?_, ?_, ?_, ?_, ?_, ?_⟩ <;> ((repeat' split) <;> simp)

@[simp] theorem recompute_keeps (s : State) :
    (recompute s).startUp = s.startUp ∧ (recompute s).clock = s.clock ∧ (recompute s).pins = s.pins ∧
      (recompute s).settings = s.settings ∧ (recompute s).freeCount = s.freeCount ∧ (recompute s).pending = s.pending := by
  unfold recompute
  try simp only []
  refine ⟨?_, ?_, ?_, ?_, ?_, ?_⟩ <;> ((repeat' split) <;> simp)

@[simp] theorem extendDelay_keeps (t : Teller) (s : State) :
    (extendDelay t s).startUp = s.startUp ∧ (extendDelay t s).clock = s.clock ∧ (extendDelay t s).pins = s.pins ∧
      (extendDelay t s).position = s.position ∧ (extendDelay t s).settings = s.settings ∧ (extendDelay t s).claim = s.claim ∧
      (extendDelay t s).path = s.path ∧ (extendDelay t s).escrow = s.escrow ∧ (extendDelay t s).depository = s.depository ∧
      (extendDelay t s).alarm = s.alarm ∧ (extendDelay t s).journal = s.journal ∧ (extendDelay t s).ports = s.ports ∧
      (extendDelay t s).freeCount = s.freeCount ∧ (extendDelay t s).pending = s.pending := by
  unfold extendDelay
  try simp only []
  refine ⟨?_, ?_, ?_, ?_, ?_, ?_, ?_, ?_, ?_, ?_, ?_, ?_, ?_, ?_⟩ <;> ((repeat' split) <;> simp)

@[simp] theorem reportHoldup_keeps (z : Fin 16) (s : State) :
    (reportHoldup z s).startUp = s.startUp ∧ (reportHoldup z s).clock = s.clock ∧ (reportHoldup z s).pins = s.pins ∧
      (reportHoldup z s).position = s.position ∧ (reportHoldup z s).settings = s.settings ∧
      (reportHoldup z s).claim = s.claim ∧ (reportHoldup z s).path = s.path ∧ (reportHoldup z s).escrow = s.escrow ∧
      (reportHoldup z s).depository = s.depository ∧ (reportHoldup z s).alarm = s.alarm ∧
      (reportHoldup z s).journal = s.journal ∧ (reportHoldup z s).ports = s.ports ∧
      (reportHoldup z s).freeCount = s.freeCount ∧ (reportHoldup z s).pending = s.pending := by
  unfold reportHoldup
  try simp only []
  refine ⟨?_, ?_, ?_, ?_, ?_, ?_, ?_, ?_, ?_, ?_, ?_, ?_, ?_, ?_⟩ <;> ((repeat' split) <;> simp)

@[simp] theorem latch_keeps (z : Fin 16) (port : Option Port) (entry : Bool) (s : State) :
    (latch z port entry s).startUp = s.startUp ∧ (latch z port entry s).clock = s.clock ∧
      (latch z port entry s).pins = s.pins ∧ (latch z port entry s).settings = s.settings ∧
      (latch z port entry s).freeCount = s.freeCount ∧ (latch z port entry s).pending = s.pending := by
  unfold latch
  try simp only []
  refine ⟨?_, ?_, ?_, ?_, ?_, ?_⟩ <;> ((repeat' split) <;> simp)

@[simp] theorem activate_keeps (z : Fin 16) (port : Option Port) (s : State) :
    (activate z port s).startUp = s.startUp ∧ (activate z port s).clock = s.clock ∧ (activate z port s).pins = s.pins ∧
      (activate z port s).settings = s.settings ∧ (activate z port s).freeCount = s.freeCount ∧
      (activate z port s).pending = s.pending := by
  unfold activate
  try simp only []
  refine ⟨?_, ?_, ?_, ?_, ?_, ?_⟩ <;> ((repeat' split) <;> simp)

@[simp] theorem restore_keeps (z : Fin 16) (s : State) :
    (restore z s).startUp = s.startUp ∧ (restore z s).clock = s.clock ∧ (restore z s).pins = s.pins ∧
      (restore z s).settings = s.settings ∧ (restore z s).freeCount = s.freeCount ∧ (restore z s).pending = s.pending := by
  unfold restore
  try simp only []
  refine ⟨?_, ?_, ?_, ?_, ?_, ?_⟩ <;> ((repeat' split) <;> simp)

@[simp] theorem setInput_keeps (z : Fin 16) (active : Bool) (s : State) :
    (setInput z active s).startUp = s.startUp ∧ (setInput z active s).clock = s.clock ∧ (setInput z active s).pins = s.pins ∧
      (setInput z active s).settings = s.settings ∧ (setInput z active s).freeCount = s.freeCount ∧
      (setInput z active s).pending = s.pending := by
  unfold setInput
  try simp only []
  refine ⟨?_, ?_, ?_, ?_, ?_, ?_⟩ <;> ((repeat' split) <;> simp)

@[simp] theorem momentary_keeps (z : Fin 16) (port : Option Port) (s : State) :
    (momentary z port s).startUp = s.startUp ∧ (momentary z port s).clock = s.clock ∧ (momentary z port s).pins = s.pins ∧
      (momentary z port s).settings = s.settings ∧ (momentary z port s).freeCount = s.freeCount ∧
      (momentary z port s).pending = s.pending := by
  unfold momentary
  try simp only []
  refine ⟨?_, ?_, ?_, ?_, ?_, ?_⟩ <;> ((repeat' split) <;> simp)

@[simp] theorem setTrouble_keeps (z : Fin 16) (mark : Bool) (s : State) :
    (setTrouble z mark s).startUp = s.startUp ∧ (setTrouble z mark s).clock = s.clock ∧ (setTrouble z mark s).pins = s.pins ∧
      (setTrouble z mark s).position = s.position ∧ (setTrouble z mark s).settings = s.settings ∧
      (setTrouble z mark s).claim = s.claim ∧ (setTrouble z mark s).path = s.path ∧
      (setTrouble z mark s).dispenses = s.dispenses ∧ (setTrouble z mark s).escrow = s.escrow ∧
      (setTrouble z mark s).depository = s.depository ∧ (setTrouble z mark s).freeCount = s.freeCount ∧
      (setTrouble z mark s).pending = s.pending := by
  unfold setTrouble
  try simp only []
  refine ⟨?_, ?_, ?_, ?_, ?_, ?_, ?_, ?_, ?_, ?_, ?_, ?_⟩ <;> ((repeat' split) <;> simp)

@[simp] theorem judgeReading_keeps (z : Fin 16) (x : Reading) (s : State) :
    (judgeReading z x s).startUp = s.startUp ∧ (judgeReading z x s).clock = s.clock ∧ (judgeReading z x s).pins = s.pins ∧
      (judgeReading z x s).settings = s.settings ∧ (judgeReading z x s).freeCount = s.freeCount ∧
      (judgeReading z x s).pending = s.pending := by
  unfold judgeReading
  try simp only []
  refine ⟨?_, ?_, ?_, ?_, ?_, ?_⟩ <;> ((repeat' split) <;> simp)

@[simp] theorem reJudge_keeps (z : Fin 16) (before : Bool) (s : State) :
    (reJudge z before s).startUp = s.startUp ∧ (reJudge z before s).clock = s.clock ∧ (reJudge z before s).pins = s.pins ∧
      (reJudge z before s).settings = s.settings ∧ (reJudge z before s).freeCount = s.freeCount ∧
      (reJudge z before s).pending = s.pending := by
  unfold reJudge
  try simp only []
  refine ⟨?_, ?_, ?_, ?_, ?_, ?_⟩ <;> ((repeat' split) <;> simp)

@[simp] theorem endEntryTiming_keeps (z : Fin 16) (s : State) :
    (endEntryTiming z s).startUp = s.startUp ∧ (endEntryTiming z s).clock = s.clock ∧ (endEntryTiming z s).pins = s.pins ∧
      (endEntryTiming z s).position = s.position ∧ (endEntryTiming z s).settings = s.settings ∧
      (endEntryTiming z s).claim = s.claim ∧ (endEntryTiming z s).path = s.path ∧
      (endEntryTiming z s).dispenses = s.dispenses ∧ (endEntryTiming z s).escrow = s.escrow ∧
      (endEntryTiming z s).depository = s.depository ∧ (endEntryTiming z s).journal = s.journal ∧
      (endEntryTiming z s).ports = s.ports ∧ (endEntryTiming z s).freeCount = s.freeCount ∧
      (endEntryTiming z s).pending = s.pending := by
  unfold endEntryTiming
  try simp only []
  refine ⟨?_, ?_, ?_, ?_, ?_, ?_, ?_, ?_, ?_, ?_, ?_, ?_, ?_, ?_⟩ <;> ((repeat' split) <;> simp)

@[simp] theorem raiseAlarmChange_keeps (s : State) :
    (raiseAlarmChange s).startUp = s.startUp ∧ (raiseAlarmChange s).clock = s.clock ∧ (raiseAlarmChange s).pins = s.pins ∧
      (raiseAlarmChange s).position = s.position ∧ (raiseAlarmChange s).settings = s.settings ∧
      (raiseAlarmChange s).claim = s.claim ∧ (raiseAlarmChange s).path = s.path ∧
      (raiseAlarmChange s).dispenses = s.dispenses ∧ (raiseAlarmChange s).escrow = s.escrow ∧
      (raiseAlarmChange s).depository = s.depository ∧ (raiseAlarmChange s).alarm = s.alarm ∧
      (raiseAlarmChange s).journal = s.journal ∧ (raiseAlarmChange s).freeCount = s.freeCount ∧
      (raiseAlarmChange s).pending = s.pending := by
  unfold raiseAlarmChange
  try simp only []
  refine ⟨?_, ?_, ?_, ?_, ?_, ?_, ?_, ?_, ?_, ?_, ?_, ?_, ?_, ?_⟩ <;> ((repeat' split) <;> simp)

@[simp] theorem flushAlarm_keeps (s : State) :
    (flushAlarm s).startUp = s.startUp ∧ (flushAlarm s).clock = s.clock ∧ (flushAlarm s).pins = s.pins ∧
      (flushAlarm s).position = s.position ∧ (flushAlarm s).settings = s.settings ∧ (flushAlarm s).claim = s.claim ∧
      (flushAlarm s).path = s.path ∧ (flushAlarm s).dispenses = s.dispenses ∧ (flushAlarm s).escrow = s.escrow ∧
      (flushAlarm s).depository = s.depository ∧ (flushAlarm s).journal = s.journal ∧ (flushAlarm s).freeCount = s.freeCount ∧
      (flushAlarm s).pending = s.pending := by
  unfold flushAlarm
  try simp only []
  refine ⟨?_, ?_, ?_, ?_, ?_, ?_, ?_, ?_, ?_, ?_, ?_, ?_, ?_⟩ <;> ((repeat' split) <;> simp)

@[simp] theorem monitorHeard_keeps (s : State) :
    (monitorHeard s).startUp = s.startUp ∧ (monitorHeard s).clock = s.clock ∧ (monitorHeard s).pins = s.pins ∧
      (monitorHeard s).settings = s.settings ∧ (monitorHeard s).freeCount = s.freeCount ∧ (monitorHeard s).pending = s.pending := by
  unfold monitorHeard
  try simp only []
  refine ⟨?_, ?_, ?_, ?_, ?_, ?_⟩ <;> ((repeat' split) <;> simp)

@[simp] theorem settle_keeps (s : State) :
    (settle s).startUp = s.startUp ∧ (settle s).clock = s.clock ∧ (settle s).pins = s.pins ∧ (settle s).settings = s.settings ∧
      (settle s).pending = s.pending := by
  unfold settle
  try simp only []
  refine ⟨?_, ?_, ?_, ?_, ?_⟩ <;> ((repeat' split) <;> simp)

@[simp] theorem hold_keeps (code : Byte) (f : Frame) (s : State) :
    (hold code f s).startUp = s.startUp ∧ (hold code f s).clock = s.clock ∧ (hold code f s).pins = s.pins ∧
      (hold code f s).position = s.position ∧ (hold code f s).settings = s.settings ∧ (hold code f s).claim = s.claim ∧
      (hold code f s).path = s.path ∧ (hold code f s).dispenses = s.dispenses ∧ (hold code f s).escrow = s.escrow ∧
      (hold code f s).depository = s.depository ∧ (hold code f s).alarm = s.alarm ∧ (hold code f s).journal = s.journal ∧
      (hold code f s).freeCount = s.freeCount ∧ (hold code f s).pending = s.pending := by
  unfold hold
  try simp only []
  refine ⟨?_, ?_, ?_, ?_, ?_, ?_, ?_, ?_, ?_, ?_, ?_, ?_, ?_, ?_⟩ <;> ((repeat' split) <;> simp)

@[simp] theorem consumeApproval_keeps (r : Request) (p : Port) (s : State) :
    (consumeApproval r p s).2.startUp = s.startUp ∧ (consumeApproval r p s).2.clock = s.clock ∧
      (consumeApproval r p s).2.pins = s.pins ∧ (consumeApproval r p s).2.position = s.position ∧
      (consumeApproval r p s).2.settings = s.settings ∧ (consumeApproval r p s).2.claim = s.claim ∧
      (consumeApproval r p s).2.path = s.path ∧ (consumeApproval r p s).2.dispenses = s.dispenses ∧
      (consumeApproval r p s).2.escrow = s.escrow ∧ (consumeApproval r p s).2.depository = s.depository ∧
      (consumeApproval r p s).2.alarm = s.alarm ∧ (consumeApproval r p s).2.journal = s.journal ∧
      (consumeApproval r p s).2.freeCount = s.freeCount ∧ (consumeApproval r p s).2.pending = s.pending := by
  unfold consumeApproval
  try simp only []
  refine ⟨?_, ?_, ?_, ?_, ?_, ?_, ?_, ?_, ?_, ?_, ?_, ?_, ?_, ?_⟩ <;> ((repeat' split) <;> simp)

@[simp] theorem touchIdle_keeps (r : Request) (p : Port) (s : State) :
    (touchIdle r p s).startUp = s.startUp ∧ (touchIdle r p s).clock = s.clock ∧ (touchIdle r p s).pins = s.pins ∧
      (touchIdle r p s).position = s.position ∧ (touchIdle r p s).settings = s.settings ∧ (touchIdle r p s).path = s.path ∧
      (touchIdle r p s).dispenses = s.dispenses ∧ (touchIdle r p s).escrow = s.escrow ∧
      (touchIdle r p s).depository = s.depository ∧ (touchIdle r p s).alarm = s.alarm ∧ (touchIdle r p s).journal = s.journal ∧
      (touchIdle r p s).ports = s.ports ∧ (touchIdle r p s).freeCount = s.freeCount ∧ (touchIdle r p s).pending = s.pending := by
  unfold touchIdle
  try simp only []
  refine ⟨?_, ?_, ?_, ?_, ?_, ?_, ?_, ?_, ?_, ?_, ?_, ?_, ?_, ?_⟩ <;> ((repeat' split) <;> simp)

@[simp] theorem hearFrame_keeps (p : Port) (s : State) :
    (hearFrame p s).startUp = s.startUp ∧ (hearFrame p s).clock = s.clock ∧ (hearFrame p s).pins = s.pins ∧
      (hearFrame p s).settings = s.settings ∧ (hearFrame p s).freeCount = s.freeCount ∧ (hearFrame p s).pending = s.pending := by
  unfold hearFrame
  try simp only []
  refine ⟨?_, ?_, ?_, ?_, ?_, ?_⟩ <;> ((repeat' split) <;> simp)

end Sys2Proof.Machine
end

