-- ==== Sys2Proof/Laws/Settle.lean ====
section
/-!
SUPPORT. What the end of a step does when nothing waits to be taken up, and how a request comes to its owning block and is answered.
-/
namespace Sys2Proof.Machine

/-! ## Ports -/

@[simp] theorem Ports.get_set_self (ps : Ports) (p : Port) (x : PortState) : (ps.set p x).get p = x := by
  cases p <;> rfl

theorem Ports.get_set_other (ps : Ports) (p q : Port) (x : PortState) (h : q ≠ p) : (ps.set p x).get q = ps.get q := by
  cases p <;> cases q <;> first | rfl | exact absurd rfl h

@[simp] theorem onPort_get_self (s : State) (p : Port) (f : PortState → PortState) :
    (s.onPort p f).ports.get p = f (s.ports.get p) := by
  simp [State.onPort]

theorem onPort_get_other (s : State) (p q : Port) (f : PortState → PortState) (h : q ≠ p) :
    (s.onPort p f).ports.get q = s.ports.get q := by
  simp [State.onPort, Ports.get_set_other _ _ _ _ h]

/-- The marks of a port that only its own rules change. -/
def PortState.marks (q : PortState) : Bool × Bool × Option ApprovalClass × Bool × Nat :=
  (q.frameFlag, q.overrunFlag, q.approval, q.duressPending, q.duressDue)

/-- A notice leaves every port's marks and held request as they were. -/
theorem raise_port (p q : Port) (x : Notice) (s : State) :
    ((raise p x s).ports.get q).marks = (s.ports.get q).marks ∧
      ((raise p x s).ports.get q).held = (s.ports.get q).held ∧
      ((raise p x s).ports.get q).transmitter = (s.ports.get q).transmitter := by
  unfold raise
  by_cases h : q = p
  · subst h; simp [PortState.marks]
  · simp [onPort_get_other _ _ _ _ h]

/-- Notices to several ports likewise. -/
theorem raiseTo_port (ps : List Port) (q : Port) (x : Notice) (s : State) :
    ((raiseTo ps x s).ports.get q).marks = (s.ports.get q).marks ∧
      ((raiseTo ps x s).ports.get q).held = (s.ports.get q).held ∧
      ((raiseTo ps x s).ports.get q).transmitter = (s.ports.get q).transmitter := by
  unfold raiseTo
  induction ps generalizing s with
  | nil => simp
  | cons p ps ih => simp [ih, raise_port]

/-- A transmitter that looks for something to send leaves every port's marks and every formed reply as they were. -/
theorem pump_port (p q : Port) (s : State) :
    ((pump p s).ports.get q).marks = (s.ports.get q).marks ∧
      (∀ r, s.answered q = some r → (pump p s).answered q = some r) := by
  unfold pump State.answered
  by_cases h : q = p
  · subst h
    simp only []
    repeat' split
    all_goals simp_all [PortState.marks]
  · simp only []
    repeat' split
    all_goals simp_all [onPort_get_other, PortState.marks]

/-- All four transmitters likewise. -/
theorem pumpAll_port (q : Port) (s : State) :
    ((pumpAll s).ports.get q).marks = (s.ports.get q).marks ∧
      (∀ r, s.answered q = some r → (pumpAll s).answered q = some r) := by
  unfold pumpAll
  refine ⟨by simp [(pump_port _ _ _).1], fun r h => ?_⟩
  exact (pump_port _ _ _).2 r ((pump_port _ _ _).2 r ((pump_port _ _ _).2 r ((pump_port _ _ _).2 r h)))

/-! ## The end of a step -/

/-- With nothing waiting, the two hand-ons do nothing. -/
theorem quiet_proceed (s : State) (h : Quiet s) :
    proceedDeferred .b (proceedDeferred .a (proceedRetract .b (proceedRetract .a s))) = s := by
  have ha := h .a
  have hb := h .b
  have da : proceedDeferred .a s = s := by
    unfold proceedDeferred; simp only []; split
    · exact absurd ‹_› ha.1
    · rfl
  have db : proceedDeferred .b s = s := by
    unfold proceedDeferred; simp only []; split
    · exact absurd ‹_› hb.1
    · rfl
  have ra : proceedRetract .a s = s := by
    unfold proceedRetract; split
    · rw [ha.2 ‹_›]
    · rfl
  have rb : proceedRetract .b s = s := by
    unfold proceedRetract; split
    · rw [hb.2 ‹_›]
    · rfl
  rw [ra, rb, da, db]

/-- The end of a step with nothing waiting: the idle timer, the display, ALARM_CHANGE, the transmitters. -/
theorem settle_quiet (s : State) (h : Quiet s) (hp : s.powered = true) :
    settle s = pumpAll (flushAlarm (rewriteDisplay (watchIdle s))) := by
  unfold settle
  rw [if_pos hp]
  simp only []
  rw [quiet_proceed s h]

theorem watchIdle_claim (s : State) :
    (watchIdle s).claim.owner = s.claim.owner ∧ (watchIdle s).claim.waiting = s.claim.waiting := by
  unfold watchIdle
  repeat' split
  all_goals simp

theorem rewriteDisplay_depository (s : State) (line : List Char) :
    { (rewriteDisplay s).depository with display := line } = { s.depository with display := line } := by
  simp [rewriteDisplay]

theorem flushAlarm_alarm (s : State) (b : Bool) :
    { (flushAlarm s).alarm with changed := b } = { s.alarm with changed := b } := by
  unfold flushAlarm
  split <;> simp

theorem flushAlarm_port (q : Port) (s : State) :
    ((flushAlarm s).ports.get q).marks = (s.ports.get q).marks ∧
      ((flushAlarm s).ports.get q).held = (s.ports.get q).held ∧
      ((flushAlarm s).ports.get q).transmitter = (s.ports.get q).transmitter := by
  unfold flushAlarm raiseAlarmChange
  split
  · have := raise_port .m q (State.alarmNotice (s.onAlarm fun u => { u with changed := false }))
      (s.onAlarm fun u => { u with changed := false })
    simpa using this
  · simp

/-- Everything the end of a step keeps when nothing waits. -/
theorem settle_keeps_quiet (s : State) (h : Quiet s) (hp : s.powered = true) : KeptBut [] s (settle s) := by
  rw [settle_quiet s h hp]
  intro b _
  cases b
  case claim => simpa [Kept] using watchIdle_claim s
  case depository => simp [Kept, rewriteDisplay]
  case alarm =>
    have := flushAlarm_alarm (rewriteDisplay (watchIdle s)) s.alarm.changed
    simp [Kept, this]
  case ports =>
    intro p
    have h1 := (pumpAll_port p (flushAlarm (rewriteDisplay (watchIdle s)))).1
    have h2 := (flushAlarm_port p (rewriteDisplay (watchIdle s))).1
    rw [h2] at h1
    simp [PortState.marks] at h1
    simp [h1]
  case journal => simp [Kept]
  all_goals simp [Kept]

/-- A reply formed before the end of a quiet step is still the port's reply after it. -/
theorem settle_answered (s : State) (h : Quiet s) (hp : s.powered = true) (p : Port) (r : Reply)
    (ha : s.answered p = some r) : (settle s).answered p = some r := by
  rw [settle_quiet s h hp]
  refine (pumpAll_port p _).2 r ?_
  have h2 := flushAlarm_port p (rewriteDisplay (watchIdle s))
  unfold State.answered at ha ⊢
  rw [h2.2.1, h2.2.2]
  simpa using ha

/-- Whether anything waits depends on the dispenses, the note path and the escrow operation alone. -/
theorem quiet_of_eq (s t : State) (h : Quiet s) (hd : t.dispenses = s.dispenses) (hp : t.path = s.path)
    (he : t.escrow.op = s.escrow.op) : Quiet t := by
  intro w
  have := h w
  simpa [Quiet, State.dispense, State.opInFlight, State.dispenseInFlight, State.retractWaits, hd, hp, he] using this

/-- What is kept twice is kept. -/
theorem KeptBut.trans {xs : List Block} {s t u : State} (h : KeptBut xs s t) (k : KeptBut xs t u) : KeptBut xs s u := by
  intro b hb
  have h1 := h b hb
  have h2 := k b hb
  cases b <;> simp only [Kept] at h1 h2 ⊢
  case claim => exact ⟨h2.1.trans h1.1, h2.2.trans h1.2⟩
  case depository =>
    have e : { t.depository with display := s.depository.display } = s.depository := h1
    have k : { u.depository with display := s.depository.display } =
        { { u.depository with display := t.depository.display } with display := s.depository.display } := rfl
    rw [k, h2, e]
  case alarm =>
    have k : { u.alarm with changed := s.alarm.changed } =
        { { u.alarm with changed := t.alarm.changed } with changed := s.alarm.changed } := rfl
    rw [k, h2, h1]
  case ports =>
    intro p
    have a := h1 p
    have b := h2 p
    exact ⟨b.1.trans a.1, b.2.1.trans a.2.1, b.2.2.1.trans a.2.2.1, b.2.2.2.trans a.2.2.2⟩
  all_goals exact h2.trans h1

/-- What is kept but for fewer blocks is kept but for more. -/
theorem KeptBut.mono {xs ys : List Block} {s t : State} (h : KeptBut xs s t) (hs : ∀ b, b ∈ xs → b ∈ ys) :
    KeptBut ys s t := fun b hb => h b (fun hx => hb (hs b hx))

/-! ## Requests -/

/-- The state in which a request's owning block is asked: the frame held, the approval consumed, the idle timer restarted. -/
def reached (r : Request) (f : Frame) (s : State) : State :=
  touchIdle r f.port (consumeApproval r f.port (hold r.code f (hearFrame f.port s))).2

/-- Whether the request found an approval of its class to consume. -/
def consumed (r : Request) (f : Frame) (s : State) : Bool :=
  match Request.consumes r with
  | none => false
  | some c => (s.ports.get f.port).approval == some c

theorem hearFrame_taken (r : Request) (f : Frame) (s : State) (h : Taken r f s) :
    hearFrame f.port s = s := by
  obtain ⟨-, -, -, -, -, hm⟩ := h
  unfold hearFrame
  split
  · rename_i e
    have := hm e
    unfold monitorHeard
    rw [if_pos (by simp [this.1])]
    unfold setInput
    rw [if_pos]
    · have e' : { s.alarm with monitorTimer := some Config.monitorTime } = s.alarm := by rw [← this.1]
      simp [State.onAlarm, e']
    · simpa [State.zone, AlarmUnit.zone] using this.2
  · rfl

/-- The owning block is asked in a state that differs from the one before in the ports and the idle timer alone. -/
theorem reached_keeps (r : Request) (f : Frame) (s : State) (h : Taken r f s) :
    (reached r f s).startUp = s.startUp ∧ (reached r f s).clock = s.clock ∧ (reached r f s).pins = s.pins ∧
      (reached r f s).position = s.position ∧ (reached r f s).settings = s.settings ∧
      (reached r f s).claim.owner = s.claim.owner ∧ (reached r f s).claim.waiting = s.claim.waiting ∧
      (reached r f s).path = s.path ∧ (reached r f s).dispenses = s.dispenses ∧ (reached r f s).escrow = s.escrow ∧
      (reached r f s).depository = s.depository ∧ (reached r f s).alarm = s.alarm ∧
      (reached r f s).journal = s.journal ∧ (reached r f s).freeCount = s.freeCount ∧
      (reached r f s).pending = s.pending := by
  unfold reached
  rw [hearFrame_taken r f s h]
  have e : ∀ x : State, (touchIdle r f.port x).claim.owner = x.claim.owner ∧
      (touchIdle r f.port x).claim.waiting = x.claim.waiting := by
    intro x; unfold touchIdle; split <;> simp
  simp [e]

/-- The request in hand at its port while the block is asked. -/
theorem reached_port (r : Request) (f : Frame) (s : State) (h : Taken r f s) :
    ((reached r f s).ports.get f.port).held = some ⟨r.code, f.tag, f.duress, .awaiting 0⟩ ∧
      ((reached r f s).ports.get f.port).frameFlag = (s.ports.get f.port).frameFlag ∧
      ((reached r f s).ports.get f.port).overrunFlag = (s.ports.get f.port).overrunFlag := by
  unfold reached
  rw [hearFrame_taken r f s h]
  simp only [touchIdle_keeps]
  unfold consumeApproval hold
  repeat' split
  all_goals simp

/-- A reply formed for a held request. -/
theorem formReply_answered (p : Port) (st : Status) (reason : Option Reason) (res : Results) (s : State) (h : Held)
    (hh : (s.ports.get p).held = some h) :
    (formReply p st reason res s).answered p =
      some ⟨h.tag, h.code, st, reason, (s.ports.get p).faultsPending, res⟩ := by
  unfold formReply State.answered
  simp [hh]

/-- Forming a reply in READY leaves the sticky flags, the approval and the duress pending mark of every port. -/
theorem formReply_keeps_ready (p : Port) (st : Status) (reason : Option Reason) (res : Results) (s : State)
    (hp : s.startUp.phase = .ready) : KeptBut [] s (formReply p st reason res s) := by
  intro b _
  cases b
  case ports =>
    intro q
    unfold formReply
    by_cases e : q = p
    · subst e
      simp only [onPort_get_self]
      split <;> simp [hp]
    · simp [onPort_get_other _ _ _ _ e]
  all_goals simp [Kept]

/-- A request that reaches its block is answered with what the block answers. -/
theorem taken_forms (r : Request) (f : Frame) (owner : Bool → State → Answer × State) (s : State) (h : Taken r f s) :
    takeConsuming r f owner s = giveAnswer f.port (owner (consumed r f s) (reached r f s)) := by
  obtain ⟨hp, hheld, hperm, hlen, -, -⟩ := id h
  have hpow : s.powered = true := by simp [State.powered, hp]
  unfold takeConsuming takeFrame
  rw [if_pos hpow]
  have hh0 : ((hearFrame f.port s).ports.get f.port).held = none := by
    rw [hearFrame_taken r f s h]; simpa using hheld
  have hp0 : (hold r.code f (hearFrame f.port s)).startUp.phase = .ready := by
    rw [hearFrame_taken r f s h]; simpa using hp
  have hc : (consumeApproval r f.port (hold r.code f (hearFrame f.port s))).1 = consumed r f s := by
    rw [hearFrame_taken r f s h]
    unfold consumeApproval consumed hold
    cases Request.consumes r with
    | none => rfl
    | some c =>
      simp only [onPort_get_self]
      by_cases e : (s.ports.get f.port).approval = some c <;> simp [e]
  simp only [hh0, Option.isSome_none, Bool.false_eq_true, if_false, hp0, if_true]
  unfold passPort
  simp only [hperm, hlen, Bool.not_true, Bool.false_eq_true, if_false]
  rw [hc]
  rfl

/-- A request that reaches its block and is answered at once: what the block answers is the port's reply, and the block's state
is the next state but for the end of the step. -/
theorem taken_answers (r : Request) (f : Frame) (s s' : State) (st : Status) (reason : Option Reason) (res : Results)
    (h : Taken r f s) (hq : Quiet s') (hr : s'.startUp.phase = .ready)
    (hh : (s'.ports.get f.port).held = ((reached r f s).ports.get f.port).held)
    (hf : (s'.ports.get f.port).faultsPending = (s.ports.get f.port).faultsPending) :
    Answers r f st reason res s (settle (formReply f.port st reason res s')) ∧
      KeptBut [] s' (settle (formReply f.port st reason res s')) := by
  have hport := reached_port r f s h
  have hp' : (formReply f.port st reason res s').powered = true := by simp [State.powered, hr]
  have hq' : Quiet (formReply f.port st reason res s') := quiet_of_eq s' _ hq (by simp) (by simp) (by simp)
  refine ⟨?_, ?_⟩
  · refine settle_answered _ hq' hp' _ _ ?_
    rw [formReply_answered f.port st reason res s' ⟨r.code, f.tag, f.duress, .awaiting 0⟩ (by rw [hh, hport.1]), hf]
  · exact (formReply_keeps_ready _ _ _ _ _ hr).trans (settle_keeps_quiet _ hq' hp')

/-- Where a request is asked, the ports differ in the approval it consumed alone. -/
theorem reached_used (r : Request) (f : Frame) (s : State) (h : Taken r f s) : ApprovalUsed r f s (reached r f s) := by
  unfold reached
  rw [hearFrame_taken r f s h]
  intro q
  simp only [touchIdle_keeps]
  unfold consumeApproval hold
  by_cases e : q = f.port
  · subst e
    cases hc : Request.consumes r with
    | none => simp
    | some c =>
      by_cases ha : (s.ports.get f.port).approval = some c
      · simp [ha]
      · simp [ha]
  · cases hc : Request.consumes r with
    | none => simp [onPort_get_other _ _ _ _ e, e]
    | some c =>
      by_cases ha : (s.ports.get f.port).approval = some c
      · simp [ha, onPort_get_other _ _ _ _ e, e]
      · simp [ha, onPort_get_other _ _ _ _ e, e]

/-- Where a request is asked, every block but the ports is as before. -/
theorem reached_keptBut (r : Request) (f : Frame) (s : State) (h : Taken r f s) : KeptBut [.ports] s (reached r f s) := by
  have k := reached_keeps r f s h
  intro b hb
  cases b
  case ports => simp at hb
  all_goals simp [Kept, k]

/-- A request without approval class leaves every block as before. -/
theorem reached_kept (r : Request) (f : Frame) (s : State) (h : Taken r f s) (hc : Request.consumes r = none) :
    KeptBut [] s (reached r f s) := by
  have k := reached_used r f s h
  intro b hb
  cases b
  case ports =>
    intro q
    have := k q
    simp [hc] at this
    simp [this]
  all_goals exact reached_keptBut r f s h _ (by simp)

end Sys2Proof.Machine
end

