-- ==== Sys2Proof/Laws/Completion.lean ====
section
/-!
SUPPORT. How a proof that a command completes begins: from what the command itself does to what holds at the end of the step.
-/
namespace Sys2Proof.Machine

/-! ## Notices on their way -/

theorem NoticeSet.get_set_self (n : NoticeSet) (k : NoticeKind) (x : Option Pending) : (n.set k x).get k = x := by
  cases k <;> rfl

theorem NoticeSet.get_set_other (n : NoticeSet) (k l : NoticeKind) (x : Option Pending) (h : l ≠ k) :
    (n.set k x).get l = n.get l := by
  cases k <;> cases l <;> first | rfl | exact absurd rfl h

/-- A notice put into a set stands in its slot. -/
theorem NoticeSet.get_put (n : NoticeSet) (x : Notice) : ∃ m, (n.put x).get x.kind = some ⟨x, m⟩ := by
  unfold NoticeSet.put
  split <;> exact ⟨_, NoticeSet.get_set_self _ _ _⟩

/-- The slots of the other kinds stay. -/
theorem NoticeSet.get_put_other (n : NoticeSet) (x : Notice) (k : NoticeKind) (h : k ≠ x.kind) :
    (n.put x).get k = n.get k := by
  unfold NoticeSet.put
  split <;> exact NoticeSet.get_set_other _ _ _ _ h

/-- A raised notice has been raised. -/
theorem raise_told (p : Port) (n : Notice) (s : State) : Told p n (raise p n s) := by
  obtain ⟨m, hm⟩ := NoticeSet.get_put (s.ports.get p).notices n
  exact .inl ⟨m, by unfold raise; simpa using hm⟩

/-- A notice raised stays raised when another kind is raised, or another port is told. -/
theorem raise_told_other (p q : Port) (n x : Notice) (s : State) (h : Told p n s) (hk : p ≠ q ∨ n.kind ≠ x.kind) :
    Told p n (raise q x s) := by
  unfold Told raise at *
  by_cases e : p = q
  · subst e
    have hk : n.kind ≠ x.kind := hk.resolve_left (fun h => h rfl)
    simp only [onPort_get_self]
    rw [NoticeSet.get_put_other _ _ _ hk]
    exact h
  · simp only [onPort_get_other _ _ _ _ e]
    exact h

/-- What is told depends on the ports alone. -/
theorem told_of_ports (p : Port) (n : Notice) (s t : State) (h : Told p n s) (e : t.ports = s.ports) : Told p n t := by
  unfold Told at *
  rw [e]
  exact h

/-- What a transmitter that looks for something to send does to its port. -/
theorem pump_cases (p : Port) (s : State) :
    (∀ q, q ≠ p → (pump p s).ports.get q = s.ports.get q) ∧
      ((pump p s).ports.get p = s.ports.get p ∨
        (∃ h r k, (s.ports.get p).transmitter = .idle ∧
          (pump p s).ports.get p = { s.ports.get p with held := h, transmitter := .reply r k }) ∨
        ∃ (k : NoticeKind) (n : Pending), (s.ports.get p).transmitter = .idle ∧ (s.ports.get p).notices.get k = some n ∧
          (pump p s).ports.get p =
            { s.ports.get p with
              notices := (s.ports.get p).notices.set k none
              noticeNumber := (s.ports.get p).noticeNumber + 1
              transmitter := .notice n.notice (s.ports.get p).noticeNumber (s.ports.get p).faultsPending n.merged }) := by
  constructor
  · intro q hq
    unfold pump
    simp only []
    repeat' split
    all_goals simp [onPort_get_other _ _ _ _ hq]
  · unfold pump
    simp only []
    split
    · exact .inl rfl
    · exact .inl rfl
    · rename_i hi
      split
      · rename_i code tag duress r _
        right; left
        exact ⟨some ⟨code, tag, duress, .sending⟩, r, r.partsAfter, hi, by simp⟩
      · split
        · split
          · exact .inl rfl
          · rename_i k n hf
            right; right
            unfold NoticeSet.first at hf
            obtain ⟨l, -, hl⟩ := List.exists_of_findSome?_eq_some hf
            simp only [Option.map_eq_some_iff, Prod.mk.injEq] at hl
            obtain ⟨x, hx, rfl, rfl⟩ := hl
            exact ⟨_, _, hi, hx, by simp⟩
        · exact .inl rfl

/-- A notice raised is still told after a transmitter has looked for something to send: sent, or still waiting. -/
theorem pump_told (p q : Port) (n : Notice) (s : State) (h : Told p n s) : Told p n (pump q s) := by
  obtain ⟨ho, hc⟩ := pump_cases q s
  by_cases e : p = q
  · subst e
    unfold Told at *
    rcases hc with hc | ⟨x, r, k, hi, hc⟩ | ⟨k, x, hi, hx, hc⟩
    · rw [hc]; exact h
    · rw [hc]
      rcases h with h | ⟨a, b, c, h⟩
      · exact .inl h
      · rw [hi] at h; cases h
    · rw [hc]
      rcases h with ⟨m, h⟩ | ⟨a, b, c, h⟩
      · by_cases ek : n.kind = k
        · right
          rw [← ek, h] at hx
          cases hx
          exact ⟨_, _, _, rfl⟩
        · left
          exact ⟨m, by simpa [NoticeSet.get_set_other _ _ _ _ ek] using h⟩
      · rw [hi] at h; cases h
  · unfold Told at *
    rw [ho p e]
    exact h

/-- A notice raised before the end of a quiet step has been raised at its end; ALARM_CHANGE apart, which the end of the step may raise
anew. -/
theorem settle_told (p : Port) (n : Notice) (s : State) (h : Quiet s) (hp : s.powered = true) (ht : Told p n s)
    (hn : n.kind ≠ .alarmChange) : Told p n (settle s) := by
  rw [settle_quiet s h hp]
  have h1 : Told p n (flushAlarm (rewriteDisplay (watchIdle s))) := by
    have t0 : Told p n (rewriteDisplay (watchIdle s)) := told_of_ports p n s _ ht (by simp)
    unfold flushAlarm raiseAlarmChange
    split
    · exact raise_told_other _ _ _ _ _ (told_of_ports p n _ _ t0 (by simp)) (.inr hn)
    · exact t0
  unfold pumpAll
  exact pump_told _ _ _ _ (pump_told _ _ _ _ (pump_told _ _ _ _ (pump_told _ _ _ _ h1)))

/-! ## Events -/

/-- A command whose effect leaves nothing waiting completes with that effect, and the end of the step keeps every block and every
notice raised. -/
theorem does_done (c : Instr) (changed : List Block) (s x : State) (effect : State → Prop) (he : exec c s = done x)
    (hq : Quiet x) (hp : x.powered = true) (hk : KeptBut changed s x)
    (hx : ∀ t, KeptBut [] x t → (∀ p n, Told p n x → n.kind ≠ .alarmChange → Told p n t) → effect t) :
    Does c changed s effect := by
  refine ⟨settle x, he, ?_, ?_⟩
  · exact hk.trans ((settle_keeps_quiet x hq hp).mono (by simp))
  · exact hx _ (settle_keeps_quiet x hq hp) (fun p n ht hn => settle_told p n x hq hp ht hn)

/-- An event while the blocks run. -/
theorem event_running (f : State → State) (s : State) (h : s.running = true) : event f s = f s := if_pos h

/-- The blocks run only with supply. -/
theorem powered_of_running (s : State) (h : s.running = true) : s.powered = true := by
  unfold State.running at h
  unfold State.powered
  cases e : s.startUp.phase <;> simp_all

/-! ## Requests -/

/-- Forming a reply leaves every notice raised. -/
theorem formReply_told (p q : Port) (n : Notice) (st : Status) (reason : Option Reason) (res : Results) (s : State)
    (h : Told p n s) : Told p n (formReply q st reason res s) := by
  unfold Told formReply at *
  by_cases e : p = q
  · subst e
    simp only [onPort_get_self]
    split <;> simpa using h
  · simpa [onPort_get_other _ _ _ _ e] using h

/-- A request answered at once completes: its block's state is the next state but for the end of the step. -/
theorem replies_of (c : Instr) (r : Request) (f : Frame) (owner : Bool → State → Answer × State) (st : Status)
    (res : Results) (changed : List Block) (s s' : State) (effect : State → Prop)
    (he : exec c s = done (takeConsuming r f owner s)) (h : Taken r f s)
    (ho : owner (consumed r f s) (reached r f s) = (.reply st none res, s')) (hq : Quiet s')
    (hr : s'.startUp.phase = .ready)
    (hh : (s'.ports.get f.port).held = ((reached r f s).ports.get f.port).held)
    (hf : (s'.ports.get f.port).faultsPending = (s.ports.get f.port).faultsPending) (hk : KeptBut changed s s')
    (hx : ∀ t, KeptBut [] s' t → (∀ p n, Told p n s' → n.kind ≠ .alarmChange → Told p n t) → effect t) :
    Replies c r f st res changed s effect := by
  obtain ⟨ha, hkept⟩ := taken_answers r f s s' st none res h hq hr hh hf
  refine ⟨settle (formReply f.port st none res s'), ?_, ha, hk.trans (hkept.mono (by simp)), hx _ hkept ?_⟩
  · rw [he, taken_forms r f owner s h, ho]; rfl
  · intro p n ht hn
    refine settle_told p n _ (quiet_of_eq s' _ hq (by simp) (by simp) (by simp)) (by simp [State.powered, hr]) ?_ hn
    exact formReply_told _ _ _ _ _ _ _ ht

/-- A request refused without effect. -/
theorem refuses_of (c : Instr) (r : Request) (f : Frame) (owner : Bool → State → Answer × State) (why : Reason)
    (res : Results) (s : State) (he : exec c s = done (takeConsuming r f owner s)) (h : Taken r f s)
    (hc : Request.consumes r = none)
    (ho : owner (consumed r f s) (reached r f s) = (.reply .refused (some why) res, reached r f s)) :
    Refuses c r f why res s := by
  have k := reached_keeps r f s h
  have hp := reached_port r f s h
  have hq : Quiet (reached r f s) := quiet_of_eq s _ h.2.2.2.2.1 (by simp [k]) (by simp [k]) (by simp [k])
  obtain ⟨ha, hkept⟩ := taken_answers r f s (reached r f s) .refused (some why) res h hq (by rw [k.1]; exact h.1) rfl
    (by simp [PortState.faultsPending, hp])
  refine ⟨_, ?_, ha, (reached_kept r f s h hc).trans hkept⟩
  rw [he, taken_forms r f owner s h, ho]; rfl

end Sys2Proof.Machine
end

