-- ==== Sys2Proof/Laws/Operations.lean ====
section
/-!
SUPPORT. What each shared operation does, said once: the journal's staging and reservations, the audit causes and check words, the
bookings of the position store, the claim's owner, the ends of operations, the open permit, a zone's state.
-/
namespace Sys2Proof.Machine

/-! ## The journal (R160 to R166) -/

@[simp] theorem raiseJournalHigh_journal (s : State) : (raiseJournalHigh s).journal = s.journal := by
  simp [raiseJournalHigh]

@[simp] theorem watchExhausted_journal (s : State) : (watchExhausted s).journal = s.journal := by
  unfold watchExhausted; split <;> simp

theorem watchHighWater_journal (s : State) (b : Bool) :
    { (watchHighWater s).journal with highMark := b } = { s.journal with highMark := b } := by
  unfold watchHighWater; split <;> simp [State.onJournal]

@[simp] theorem watchHighWater_promised (s : State) : (watchHighWater s).journal.promised = s.journal.promised := by
  unfold watchHighWater; split <;> simp

/-- With a number left, a record staged takes it, and what the queue, the number, the write state and the high mark say is all that
changes in the journal (R160, R165, R166). -/
theorem stage_some (d : Draft) (s : State) (n : Nat) (h : s.journal.next = some n) :
    (stage d s).1 = some n ∧ Staged (d.record n s.clock) s (stage d s).2 ∧
      (stage d s).2.journal.reservations = s.journal.reservations ∧ (stage d s).2.journal.endHold = s.journal.endHold ∧
        (stage d s).2.journal.waitingDone = s.journal.waitingDone := by
  have k := watchHighWater_journal (s.onJournal (fun j =>
      { j with
        staging := j.staging ++ [d.record n s.clock]
        next := if n < Config.lastSequence then some (n + 1) else none
        write := if j.write = .idle then .writing else j.write
        writing := j.writing || j.write == .idle })) false
  simp only [Journal.mk.injEq, State.onJournal_journal] at k
  obtain ⟨kr, ks, kn, kd, kt, kv, ke, kl, -, -, -, -, kw, -⟩ := k
  have e : stage d s =
      (some n, watchExhausted (watchHighWater (s.onJournal (fun j =>
        { j with
          staging := j.staging ++ [d.record n s.clock]
          next := if n < Config.lastSequence then some (n + 1) else none
          write := if j.write = .idle then .writing else j.write
          writing := j.writing || j.write == .idle })))) := by
    unfold stage; simp only [h]
  rw [e]
  refine ⟨rfl, ⟨h, rfl, rfl, ?_, ?_, ?_, ?_, ?_, ?_⟩, ?_, ?_, ?_⟩ <;> rw [watchExhausted_journal]
  exacts [ks, kr, kd, kt, kl, kn, kv, ke, kw]

/-- With the sequence space exhausted nothing is staged (R160). -/
theorem stage_none (d : Draft) (s : State) (h : s.journal.next = none) : stage d s = (none, s) := by
  unfold stage; simp only [h]

/-- An event record is lost: the lost-event count alone changes in the journal (R163). -/
theorem loseRecord_journal (s : State) :
    (loseRecord s).journal = { s.journal with lost := min Config.lostMax (s.journal.lost + 1) } := by
  unfold loseRecord
  dsimp only
  split <;> simp

/-- An event record is written where there is room (R163). -/
theorem eventRecord_room (d : Draft) (s : State) (h : s.journal.eventRoom = true) : eventRecord d s = stage d s := by
  unfold eventRecord; simp [h]

/-- An event record is lost where there is none (R163). -/
theorem eventRecord_lost (d : Draft) (s : State) (h : s.journal.eventRoom = false) :
    eventRecord d s = (none, loseRecord s) := by
  unfold eventRecord; simp [h]

/-- An event record is written with the next number, or lost and counted (R163). -/
theorem eventRecord_written (d : Draft) (s : State) (holds : Record → Prop) (h : ∀ n : Nat, holds (d.record n s.clock)) :
    EventWritten holds s (eventRecord d s).2 := by
  constructor
  · intro room n hn
    rw [eventRecord_room d s room]
    obtain ⟨_, hs, hr, he, hw⟩ := stage_some d s n hn
    exact ⟨_, rfl, hs, hr, he, hw, h n⟩
  · intro room
    rw [eventRecord_lost d s room]
    exact loseRecord_journal s

/-- Where an event record has room a number is left (R161, R163). -/
theorem next_of_eventRoom (j : Journal) (h : j.eventRoom = true) : ∃ n, j.next = some n := by
  cases e : j.next with
  | some n => exact ⟨n, rfl⟩
  | none =>
    simp [Journal.eventRoom, Journal.room, Journal.unassigned, e] at h

/-- An entry promised to the record of the request in hand is not free (R162). -/
theorem promiseEntry_journal (s : State) :
    (promiseEntry s).journal = { s.journal with promised := true } ∧
      (promiseEntry s).journal.stagingFree = Config.stagingEntries - (s.journal.staging.length + 1) := ⟨rfl, rfl⟩

/-- Staging a record leaves a promise as it stands. -/
@[simp] theorem stage_promised (d : Draft) (s : State) : (stage d s).2.journal.promised = s.journal.promised := by
  unfold stage
  split
  · rfl
  · simp only [watchExhausted_journal, watchHighWater_promised, State.onJournal_journal]

/-- With a number left, the record that an entry was promised to takes it, and the promise is kept (R160, R162). -/
theorem stagePromised_some (d : Draft) (s : State) (n : Nat) (h : s.journal.next = some n) :
    (stagePromised d s).1 = some n ∧ (stagePromised d s).2.journal.promised = false ∧
      (stagePromised d s).2.journal.staging = s.journal.staging ++ [d.record n s.clock] ∧
      (stagePromised d s).2.journal.next = (if n < Config.lastSequence then some (n + 1) else none) := by
  obtain ⟨e, ⟨-, -, -, hs, -, -, -, -, hn⟩, -⟩ := stage_some d (s.onJournal (fun j => { j with promised := false })) n h
  exact ⟨e, stage_promised d _, hs, hn⟩

/-- An event record leaves a promised entry free, whether it is written or lost (R162, R163). -/
theorem eventRecord_leaves_promised (d : Draft) (s : State) (hp : s.journal.promised = true)
    (hf : s.journal.staging.length < Config.stagingEntries) :
    (eventRecord d s).2.journal.promised = true ∧ (eventRecord d s).2.journal.staging.length < Config.stagingEntries := by
  cases room : s.journal.eventRoom with
  | false =>
    rw [eventRecord_lost d s room, loseRecord_journal]
    exact ⟨hp, hf⟩
  | true =>
    obtain ⟨n, hn⟩ := next_of_eventRoom s.journal room
    obtain ⟨-, ⟨-, -, -, hs, -⟩, -⟩ := stage_some d s n hn
    rw [eventRecord_room d s room, stage_promised, hs]
    simp only [Journal.eventRoom, Bool.and_eq_true, decide_eq_true_eq, Journal.stagingFree, hp, Bool.toNat_true] at room
    exact ⟨hp, by simp only [List.length_append, List.length_singleton]; omega⟩

/-- The last-applied sequence becomes a record's number (R13). -/
theorem applyTo_position (n : Option Nat) (s : State) :
    (applyTo n s).position = { s.position with lastApplied := n.getD s.position.lastApplied } := by
  cases n <;> rfl

/-- A reservation is made at the back of the list (R161). -/
theorem reserve_journal (p : Port) (k : OpKind) (n : Nat) (s : State) :
    (reserve p k n s).journal = { s.journal with reservations := s.journal.reservations ++ [{ port := p, kind := k, startSequence := n, jammed := false }] } := rfl

/-- The operation's entry leaves the list (R161). -/
theorem release_journal (p : Port) (k : OpKind) (s : State) :
    (release p k s).journal =
      { s.journal with
        reservations := removeFirst (fun r => r.port == p && r.kind == k && !r.jammed) s.journal.reservations } := rfl

/-- The operation's entry is marked closed by a jam (R62, R161). -/
theorem markJammed_journal (p : Port) (k : OpKind) (marks : Marks) (unpaid : Nat) (s : State) :
    (markJammed p k marks unpaid s).journal =
      { s.journal with
        reservations :=
          markFirst (fun r => r.port == p && r.kind == k && !r.jammed) marks unpaid s.journal.reservations } := rfl

/-- The first entry that meets the test is the one marked. -/
theorem markFirst_first (test : Reservation → Bool) (marks : Marks) (unpaid : Nat) (before after : List Reservation)
    (r : Reservation) (hb : ∀ x ∈ before, test x = false) (hr : test r = true) :
    markFirst test marks unpaid (before ++ r :: after) =
      before ++ { r with jammed := true, marks := marks, unpaid := unpaid } :: after := by
  induction before with
  | nil => simp [markFirst, hr]
  | cons x xs ih =>
    have hx := hb x (by simp)
    simp [markFirst, hx, ih (fun y hy => hb y (by simp [hy]))]

/-- The first timer that meets the test is the one stopped (R62). -/
theorem stopTimer_first (test : NoteTimer → Bool) (before after : List NoteTimer) (n : NoteTimer)
    (hb : ∀ x ∈ before, test x = false) (hn : test n = true) : stopTimer test (before ++ n :: after) = before ++ after := by
  induction before with
  | nil => simp [stopTimer, hn]
  | cons x xs ih =>
    have hx := hb x (by simp)
    simp [stopTimer, hx, ih (fun y hy => hb y (by simp [hy]))]

/-- The first timer that meets the test is the one last seen elsewhere (R62). -/
theorem moveTimer_first (test : NoteTimer → Bool) (at_ : Sensor) (before after : List NoteTimer) (n : NoteTimer)
    (hb : ∀ x ∈ before, test x = false) (hn : test n = true) :
    moveTimer test at_ (before ++ n :: after) = before ++ { n with lastSeen := at_ } :: after := by
  induction before with
  | nil => simp [moveTimer, hn]
  | cons x xs ih =>
    have hx := hb x (by simp)
    simp [moveTimer, hx, ih (fun y hy => hb y (by simp [hy]))]

/-- The dispense's first unchecked note is the one checked, and is timed from the path sensor (R59, R62). -/
theorem checkTimers_first (w : Teller) (before after : List NoteTimer) (n : NoteTimer)
    (hb : ∀ x ∈ before, x.owner ≠ .dispense w ∨ x.checked = true) (ho : n.owner = .dispense w) (hn : n.checked = false) :
    checkTimers w (before ++ n :: after) = before ++ { n with lastSeen := .path, checked := true } :: after := by
  induction before with
  | nil => simp [checkTimers, ho, hn]
  | cons x xs ih =>
    have hx := hb x (by simp)
    have hc : (x.owner == .dispense w && !x.checked) = false := by
      rcases hx with h | h <;> simp [h]
    simp [checkTimers, hc, ih (fun y hy => hb y (by simp [hy]))]

/-- With every note of the dispense checked, no timer changes. -/
theorem checkTimers_none (w : Teller) (timers : List NoteTimer) (h : ∀ x ∈ timers, x.owner ≠ .dispense w ∨ x.checked = true) :
    checkTimers w timers = timers := by
  induction timers with
  | nil => rfl
  | cons x xs ih =>
    have hc : (x.owner == .dispense w && !x.checked) = false := by
      rcases h x (by simp) with h | h <;> simp [h]
    simp [checkTimers, hc, ih (fun y hy => h y (by simp [hy]))]

/-- A record that closes an operation makes its OP_DONE wait (R92, R166). -/
theorem awaitDurable_journal (p : Port) (n : Nat) (d : OpDone) (s : State) :
    (awaitDurable p (some n) d s).journal =
      { s.journal with waitingDone := s.journal.waitingDone ++ [⟨p, { d with closing := n }⟩] } := rfl

/-! ## Audit and check words (R9, R10) -/

/-- An audit cause changes the cause set alone (R10). -/
theorem addCause_position (c : AuditCause) (s : State) :
    (addCause c s).position = { s.position with causes := s.position.causes.add c } := by
  unfold addCause
  dsimp only
  split <;> simp

/-- The first cause is told to ports A, B and S (R10). -/
theorem addCause_first (c : AuditCause) (s : State) (h : s.auditRequired = false) :
    addCause c s = raiseRestriction (s.onPosition (fun p => { p with causes := p.causes.add c })) := by
  unfold addCause; simp [h]

/-- A record whose check word matches is read without effect (R9). -/
@[simp] theorem verifyCassette_intact (k : Ix) (s : State) (h : (s.position.cassettes.get k).intact = true) :
    verifyCassette k s = (true, s) := by
  unfold verifyCassette; simp [h]

@[simp] theorem verifyAccount_intact (a : AccountId) (s : State) (h : (s.position.account a).intact = true) :
    verifyAccount a s = (true, s) := by
  unfold verifyAccount; simp [h]

/-- Where every check word matches, reading all four records has no effect (R36). -/
theorem verifyCassettes_intact (s : State) (h : ∀ k : Ix, (s.position.cassettes.get k).intact = true) :
    verifyCassettes s = (true, s) := by
  unfold verifyCassettes
  simp only [Ix.all, List.foldl_cons, List.foldl_nil, verifyCassette_intact _ _ (h _), Bool.and_self]

/-- A check word that fails adds INTEGRITY, and an empty integrity fault record takes the record and the time (R9). -/
theorem integrityFailure_position (which : GuardedRecord) (s : State) :
    (integrityFailure which s).position =
      { s.position with
        causes := { s.position.causes with integrity := true }
        integrityFault :=
          match s.position.integrityFault with
          | some f => some f
          | none => some ⟨which, s.clock.count⟩ } := by
  unfold integrityFailure
  rw [addCause_position]
  rfl

/-! ## Bookings (R3, R5, R35) -/

@[simp] theorem watchLow_position (k : Ix) (before : CassetteState) (s : State) :
    (watchLow k before s).position = s.position := by
  unfold watchLow
  dsimp only
  split <;> simp

/-- A cassette record is written: its state derived anew and its check word made good; nothing else in the position (R4, R5). -/
theorem writeCassette_position (k : Ix) (c : Cassette) (s : State) :
    (writeCassette k c s).position =
      { s.position with cassettes := s.position.cassettes.set k { c.rederive with intact := true } } := by
  unfold writeCassette; simp [State.onPosition, Position.setCassette]

theorem writeCassetteAs_position (k : Ix) (c : Cassette) (s : State) :
    (writeCassetteAs k c s).position =
      { s.position with cassettes := s.position.cassettes.set k { c with intact := true } } := by
  unfold writeCassetteAs; simp [State.onPosition, Position.setCassette]

theorem writeAccount_position (a : AccountId) (b : Int) (c : Nat) (s : State) :
    (writeAccount a b c s).position = s.position.setAccount a ⟨b, c, true⟩ := rfl

@[simp] theorem Position.stored_setStored_self (p : Position) (x : Store) (q : Quad Nat) :
    (p.setStored x q).stored x = q := by
  cases x with
  | pocket t => exact Pair.get_set_self _ _ _
  | _ => rfl

theorem Position.stored_setStored_other (p : Position) (x y : Store) (q : Quad Nat) (h : y ≠ x) :
    (p.setStored x q).stored y = p.stored y := by
  cases x with
  | pocket t =>
    cases y with
    | pocket u => exact Pair.get_set_other _ _ _ _ (fun e => h (by rw [e]))
    | _ => rfl
  | _ => cases y <;> first | rfl | exact absurd rfl h

/-- A booking from a place to a place keeps the notes of every denomination the two hold together (R3). -/
theorem Position.move_keeps_sum (p : Position) (src dst : Store) (d e : Ix) (n : Nat) (h : dst ≠ src) :
    ((p.move src dst d n).stored src).get e + ((p.move src dst d n).stored dst).get e =
      (p.stored src).get e + (p.stored dst).get e := by
  have hs : (p.move src dst d n).stored src = Quad.minus (p.stored src) d (min n ((p.stored src).get d)) := by
    unfold Position.move
    rw [Position.stored_setStored_other _ _ _ _ (Ne.symm h), Position.stored_setStored_self]
  have hd : (p.move src dst d n).stored dst = Quad.plus (p.stored dst) d (min n ((p.stored src).get d)) := by
    unfold Position.move
    rw [Position.stored_setStored_self, Position.stored_setStored_other _ _ _ _ h]
  rw [hs, hd]
  unfold Quad.minus Quad.plus
  by_cases he : e = d
  · subst he
    simp only [Quad.get_set_self]
    omega
  · simp only [Quad.get_set_other _ _ _ _ he]

/-- An amount added to a balance in full (R35). -/
theorem bookBalance_full (a : AccountId) (v : Int) (s : State) (hv : v ≠ 0) (hi : (s.position.account a).intact = true)
    (hr : balanceInRange ((s.position.account a).balance + v) = true) :
    bookBalance a v s =
      (0, writeAccount a ((s.position.account a).balance + v) (s.position.account a).coinDue s) := by
  unfold bookBalance; simp [hv, hi, hr]

/-- A remainder added to a coin due in full (R35). -/
theorem bookCoinDue_full (a : AccountId) (n : Nat) (s : State) (hn : n ≠ 0) (hi : (s.position.account a).intact = true)
    (hr : (s.position.account a).coinDue + n ≤ Config.coinDueMax) :
    bookCoinDue a n s =
      (0, writeAccount a (s.position.account a).balance ((s.position.account a).coinDue + n) s) := by
  unfold bookCoinDue; simp [hn, hi, hr]

/-! ## The lines (R176) -/

/-- A line's event changes the port's receiver and the queue alone. -/
@[simp] theorem State.onLine_keeps (p : Port) (e : LineEvent) (s : State) :
    (s.onLine p e).startUp = s.startUp ∧ (s.onLine p e).clock = s.clock ∧ (s.onLine p e).pins = s.pins ∧
      (s.onLine p e).position = s.position ∧ (s.onLine p e).settings = s.settings ∧ (s.onLine p e).claim = s.claim ∧
      (s.onLine p e).path = s.path ∧ (s.onLine p e).dispenses = s.dispenses ∧ (s.onLine p e).escrow = s.escrow ∧
      (s.onLine p e).depository = s.depository ∧ (s.onLine p e).alarm = s.alarm ∧ (s.onLine p e).journal = s.journal ∧
      (s.onLine p e).freeCount = s.freeCount := by
  unfold State.onLine
  split <;> simp

/-- A hunting receiver ignores every byte but the start byte (R176). -/
theorem Receiver.take_junk (p : Port) (b : Byte) (h : b ≠ 0xA5#8) :
    Receiver.take p .hunting b = (.hunting, none) := by
  simp [Receiver.take, h]

/-- The bytes of a line come in one after the other. -/
theorem State.onBytes_append (p : Port) (a b : List Byte) (s : State) :
    s.onBytes p (a ++ b) = (s.onBytes p a).onBytes p b := List.foldl_append ..

/-! ## The claim (R51, R53, R97) -/

/-- The owner changes, the idle timer stops, and the record of an empty escrow closes unless the new owner is its owner port. -/
theorem setOwner_spec (o : Owner) (s : State) :
    (setOwner o s).claim = ⟨o, s.claim.waiting, none⟩ ∧
      (setOwner o s).escrow =
        { s.escrow with
          isOpen :=
            if s.escrow.isOpen = true ∧ s.escrow.stack = [] ∧ o ≠ ownerOf s.escrow.owner.port then false
            else s.escrow.isOpen } := by
  unfold setOwner
  split
  · rename_i h; simp only [State.onEscrow, if_pos h, and_self]
  · rename_i h; simp only [if_neg h, and_self]

/-- With nobody waiting, a freed claim has no owner (R51). -/
theorem freeClaim_alone (s : State) (h : s.claim.waiting = []) : freeClaim s = setOwner .none s := by
  unfold freeClaim handOn
  have := (setOwner_spec .none s).1
  rw [this]
  simp only [h]

/-! ## Ends (R163) -/

/-- With nothing in the end hold and a staging entry free, an end is made at once (R163). -/
theorem holdOrFinish_now (e : HeldEnd) (s : State) (h : s.journal.endHold = []) (hf : 0 < s.journal.stagingFree) :
    holdOrFinish e s = finishEnd e s := by
  unfold holdOrFinish; simp [h, hf]

/-- Otherwise it waits at the back of the end hold (R163). -/
theorem holdOrFinish_waits (e : HeldEnd) (s : State) (h : s.journal.endHold ≠ [] ∨ s.journal.stagingFree = 0) :
    holdOrFinish e s = s.onJournal (fun j => { j with endHold := j.endHold ++ [e] }) := by
  unfold holdOrFinish
  rw [if_neg]
  rintro ⟨h1, h2⟩
  rcases h with h | h
  · exact h h1
  · omega

/-! ## The envelope slot (R118) -/

/-- The open permit judged: the envelope controller alone changes, as Depository.judged says. -/
theorem judgePermit_spec (s : State) : judgePermit s = { s with depository := s.depository.judged s.permit } := by
  unfold judgePermit Depository.judged
  cases h : s.depository.slot <;> simp only [] <;> (try rfl)
  · cases s.permit
    · simp only [Bool.false_eq_true, if_false, ← h]
    · rfl
  · cases s.permit <;> rfl

/-! ## Zones (R135, R143, R144) -/

@[simp] theorem onZone_zone_self (z : Fin 16) (f : Zone → Zone) (s : State) : (onZone z f s).zone z = f (s.zone z) :=
  AlarmUnit.zone_setZone_self _ _ _

theorem onZone_zone_other (z y : Fin 16) (f : Zone → Zone) (s : State) (h : y ≠ z) : (onZone z f s).zone y = s.zone y :=
  AlarmUnit.zone_setZone_other _ _ _ _ h

/-- A zone's state is set, and with it nothing in the alarm unit but the mark of a due ALARM_CHANGE. -/
theorem setZoneState_alarm (z : Fin 16) (x : ZoneState) (s : State) (b : Bool) :
    { (setZoneState z x s).alarm with changed := b } =
      { s.alarm.setZone z { s.zone z with state := x } with changed := b } := by
  unfold setZoneState
  split
  · rename_i h
    have : { s.zone z with state := x } = s.zone z := by rw [← h]
    rw [this]
    have : s.alarm.setZone z (s.zone z) = s.alarm := by
      unfold AlarmUnit.setZone State.zone AlarmUnit.zone
      congr 1
      apply Vector.ext
      intro i hi
      simp only [Vector.get_eq_getElem, Vector.getElem_set]
      split <;> rename_i h
      · subst h; rfl
      · rfl
    rw [this]
  · rfl

/-- The level is what the zones give (R151). -/
theorem recomputeLevel_level (s : State) : (recomputeLevel s).alarm.level = s.alarm.activeLevel := by
  unfold recomputeLevel
  split
  · rename_i h; exact h.symm
  · rfl

end Sys2Proof.Machine
end

