-- ==== Sys2Proof/Laws/Alarm.lean ====
section
/-!
SUPPORT. What the alarm unit's operations make of the zones, said once for each: an activation, a restore, an input's value, a judged
reading and a momentary raise change their own zone as Zone.activated and Zone.restored say, and no other zone, arm state or monitor timer
(R139, R142 to R144); and what a valid frame at port M does first (R140).
-/
namespace Sys2Proof.Machine

/-- The zones of s become those of u in t, and the arm state and the monitor timer are u's. -/
abbrev ZonesAre (u : AlarmUnit) (t : State) : Prop :=
  t.alarm.zones = u.zones ∧ t.alarm.armed = u.armed ∧ t.alarm.monitorTimer = u.monitorTimer

@[simp] theorem AlarmUnit.setZone_keeps (u : AlarmUnit) (z : Fin 16) (r : Zone) :
    (u.setZone z r).armed = u.armed ∧ (u.setZone z r).monitorTimer = u.monitorTimer := ⟨rfl, rfl⟩

theorem AlarmUnit.setZone_same (u : AlarmUnit) (z : Fin 16) : u.setZone z (u.zone z) = u := by
  unfold AlarmUnit.setZone AlarmUnit.zone
  congr 1
  apply Vector.ext
  intro i hi
  simp only [Vector.get_eq_getElem, Vector.getElem_set]
  split <;> rename_i h
  · subst h; rfl
  · rfl

@[simp] theorem AlarmUnit.setZone_setZone (u : AlarmUnit) (z : Fin 16) (q r : Zone) :
    (u.setZone z q).setZone z r = u.setZone z r := by
  unfold AlarmUnit.setZone
  simp only
  congr 1
  apply Vector.ext
  intro i hi
  simp only [Vector.getElem_set]
  split <;> rfl

/-- What depends on the zones alone is the same where the zones are. -/
theorem AlarmUnit.zone_of_zones {u v : AlarmUnit} (h : u.zones = v.zones) (z : Fin 16) : u.zone z = v.zone z := by
  unfold AlarmUnit.zone; rw [h]

theorem AlarmUnit.setZone_zones {u v : AlarmUnit} (h : u.zones = v.zones) (z : Fin 16) (r : Zone) :
    (u.setZone z r).zones = (v.setZone z r).zones := by unfold AlarmUnit.setZone; simp only [h]

/-- Eligibility is read from the arm state and the zone's configuration and bypass mark (R135). -/
theorem AlarmUnit.eligible_setZone (u : AlarmUnit) (z : Fin 16) (r : Zone) (hc : r.config = (u.zone z).config)
    (hb : r.bypassed = (u.zone z).bypassed) (y : Fin 16) : (u.setZone z r).eligible y = u.eligible y := by
  unfold AlarmUnit.eligible
  by_cases h : y = z
  · subst h; simp [hc, hb]
  · simp [AlarmUnit.zone_setZone_other _ _ _ _ h]

/-! ## The level and the set -/

@[simp] theorem newRestriction_zones (before after : Effects) (s : State) :
    ZonesAre s.alarm (newRestriction before after s) := by
  unfold newRestriction
  simp only []
  refine ⟨?_, ?_, ?_⟩ <;> ((repeat' split) <;> simp [sounderOff])

@[simp] theorem recomputeLevel_zones (s : State) : ZonesAre s.alarm (recomputeLevel s) := by
  unfold recomputeLevel
  split <;> exact ⟨rfl, rfl, rfl⟩

/-- The level and the set computed anew leave the zones (R151, R153). -/
@[simp] theorem recompute_zones (s : State) : ZonesAre s.alarm (recompute s) := by
  unfold recompute
  simp only []
  split
  · exact recomputeLevel_zones s
  · obtain ⟨h1, h2, h3⟩ := newRestriction_zones (recomputeLevel s).alarm.restriction (recomputeLevel s).alarm.latchedEffects
      (recomputeLevel s)
    obtain ⟨k1, k2, k3⟩ := recomputeLevel_zones s
    exact ⟨h1.trans k1, h2.trans k2, h3.trans k3⟩

theorem setZoneState_zones (z : Fin 16) (x : ZoneState) (s : State) :
    ZonesAre (s.alarm.setZone z { s.zone z with state := x }) (setZoneState z x s) := by
  have h := setZoneState_alarm z x s false
  have hz := congrArg AlarmUnit.zones h
  have ha := congrArg AlarmUnit.armed h
  have hm := congrArg AlarmUnit.monitorTimer h
  exact ⟨hz, ha, hm⟩

/-- Two changes of the zones, one after the other. -/
theorem ZonesAre.trans {u : AlarmUnit} {s t : State} (h : ZonesAre u s) (k : ZonesAre s.alarm t) : ZonesAre u t :=
  ⟨k.1.trans h.1, k.2.1.trans h.2.1, k.2.2.trans h.2.2⟩

/-- A zone's record changed twice. -/
theorem ZonesAre.next {u : AlarmUnit} {s t : State} {z : Fin 16} {q r : Zone} (h : ZonesAre (u.setZone z q) s)
    (k : ZonesAre (s.alarm.setZone z r) t) : ZonesAre (u.setZone z r) t :=
  ⟨by rw [k.1, AlarmUnit.setZone_zones h.1 z, AlarmUnit.setZone_setZone], k.2.1.trans h.2.1, k.2.2.trans h.2.2⟩

/-- The record of the zone that was set. -/
theorem ZonesAre.zone {u : AlarmUnit} {s : State} {z : Fin 16} {q : Zone} (h : ZonesAre (u.setZone z q) s) : s.zone z = q := by
  have e := AlarmUnit.zone_of_zones h.1 z
  rw [AlarmUnit.zone_setZone_self] at e
  exact e

/-- The other zones' records. -/
theorem ZonesAre.other {u : AlarmUnit} {s : State} {z y : Fin 16} {q : Zone} (h : ZonesAre (u.setZone z q) s) (n : y ≠ z) :
    s.zone y = u.zone y := by
  have e := AlarmUnit.zone_of_zones h.1 y
  rw [AlarmUnit.zone_setZone_other _ _ _ _ n] at e
  exact e

/-- Eligibility where one zone's reading, input, trouble mark or state has changed. -/
theorem ZonesAre.eligible {u : AlarmUnit} {s : State} {z : Fin 16} {q : Zone} (h : ZonesAre (u.setZone z q) s)
    (hc : q.config = (u.zone z).config) (hb : q.bypassed = (u.zone z).bypassed) (y : Fin 16) :
    s.alarm.eligible y = u.eligible y := by
  rw [← AlarmUnit.eligible_setZone u z q hc hb y]
  unfold AlarmUnit.eligible
  rw [AlarmUnit.zone_of_zones h.1 y, h.2.1]

/-! ## Activations and restores -/

/-- A restore changes its own zone alone, as Zone.restored says (R144). -/
theorem restore_zones (z : Fin 16) (s : State) : ZonesAre (s.alarm.setZone z (s.zone z).restored) (restore z s) := by
  have same : ZonesAre (s.alarm.setZone z (s.zone z)) s := by
    have e : s.alarm.setZone z (s.zone z) = s.alarm := AlarmUnit.setZone_same _ _
    rw [e]; exact ⟨rfl, rfl, rfl⟩
  unfold restore Zone.restored
  cases h : (s.zone z).state <;> simp only []
  · exact same
  · exact same
  · exact (setZoneState_zones z _ s).trans (recompute_zones _)
  · exact same
  · exact (setZoneState_zones z _ s).trans (recompute_zones _)

@[simp] theorem soundFor_zones (z : Fin 16) (s : State) : ZonesAre s.alarm (soundFor z s) := by
  unfold soundFor
  split <;> exact ⟨rfl, rfl, rfl⟩

/-- A latch changes its own zone alone (R143, R145). -/
theorem latch_zones (z : Fin 16) (port : Option Port) (entry : Bool) (s : State) :
    ZonesAre
      (s.alarm.setZone z
        { s.zone z with state := .pendingActive, entryTimer := none, marked := none, lastActivation := s.clock.count })
      (latch z port entry s) := by
  have clock : (setZoneState z .pendingActive s).clock = s.clock := by
    unfold setZoneState; split <;> simp [markChanged, onZone]
  have h := setZoneState_zones z .pendingActive s
  have hz : (setZoneState z .pendingActive s).zone z = { s.zone z with state := .pendingActive } := by
    have e := AlarmUnit.zone_of_zones h.1 z
    rw [AlarmUnit.zone_setZone_self] at e
    exact e
  have k : ZonesAre
      (s.alarm.setZone z
        { s.zone z with state := .pendingActive, entryTimer := none, marked := none, lastActivation := s.clock.count })
      (onZone z
        (fun r =>
          { r with
            entryTimer := none, marked := none, lastActivation := (setZoneState z .pendingActive s).clock.count })
        (setZoneState z .pendingActive s)) := by
    refine ⟨?_, h.2.1, h.2.2⟩
    unfold onZone
    simp only [State.onAlarm_alarm]
    rw [AlarmUnit.setZone_zones h.1 z, AlarmUnit.setZone_setZone]
    have : (setZoneState z .pendingActive s).alarm.zone z = { s.zone z with state := .pendingActive } := hz
    rw [this, clock]
  unfold latch
  simp only []
  refine ZonesAre.trans (ZonesAre.trans k ?_) (recompute_zones _)
  refine ⟨?_, ?_, ?_⟩ <;> simp

/-- An activation changes its own zone alone, as Zone.activated says, where it is eligible (R143). -/
theorem activate_zones (z : Fin 16) (port : Option Port) (s : State) :
    ZonesAre
      (s.alarm.setZone z
        (if s.alarm.eligible z then
          (s.zone z).activated s.alarm.armed s.settings.entryDelay s.clock.count port
        else s.zone z))
      (activate z port s) := by
  have same : ZonesAre (s.alarm.setZone z (s.zone z)) s := by
    have e : s.alarm.setZone z (s.zone z) = s.alarm := AlarmUnit.setZone_same _ _
    rw [e]; exact ⟨rfl, rfl, rfl⟩
  unfold activate Zone.activated
  by_cases he : s.alarm.eligible z = true
  · simp only [he, if_true]
    cases h : (s.zone z).state <;> simp only []
    · split
      · have k := setZoneState_zones z .entryTiming
          (onZone z (fun r => { r with entryTimer := some s.settings.entryDelay, marked := port }) s)
        simpa [onZone, State.zone] using k
      · exact latch_zones z port false s
    · exact same
    · exact same
    · exact ((setZoneState_zones z .pendingActive s).trans (soundFor_zones z _)).trans (recompute_zones _)
    · exact same
  · simp only [he, Bool.false_eq_true, if_false]
    exact same

/-- An input takes its value: a change is an activation or a restore of its own zone alone (R139, R140). -/
theorem setInput_zones (z : Fin 16) (active : Bool) (s : State) :
    let r := s.zone z
    let x : Zone := { r with inputActive := active }
    ZonesAre
      (s.alarm.setZone z
        (if r.inputActive = active then r
        else if active then
          (if s.alarm.eligible z then x.activated s.alarm.armed s.settings.entryDelay s.clock.count none else x)
        else x.restored))
      (setInput z active s) := by
  intro r x
  have same : s.alarm.setZone z r = s.alarm := AlarmUnit.setZone_same _ _
  have step (u : State → State) (v : Zone)
      (h : ZonesAre ((onZone z (fun r => { r with inputActive := active }) s).alarm.setZone z v)
        (u (onZone z (fun r => { r with inputActive := active }) s))) :
      ZonesAre (s.alarm.setZone z v) (u (onZone z (fun r => { r with inputActive := active }) s)) := by
    simpa [onZone] using h
  unfold setInput
  by_cases e : (s.zone z).inputActive = active
  · simp only [e, if_true, r]
    rw [show s.alarm.setZone z (s.zone z) = s.alarm from same]
    exact ⟨rfl, rfl, rfl⟩
  · have elig : (onZone z (fun r => { r with inputActive := active }) s).alarm.eligible z = s.alarm.eligible z := by
      exact AlarmUnit.eligible_setZone s.alarm z { s.alarm.zone z with inputActive := active } rfl rfl z
    simp only [e, if_false, r]
    cases active
    · exact step _ _ (by simpa [x, r] using restore_zones z (onZone z (fun r => { r with inputActive := false }) s))
    · have k := activate_zones z none (onZone z (fun r => { r with inputActive := true }) s)
      rw [elig, onZone_zone_self] at k
      exact step _ _ k

/-- The trouble mark of an enabled zone, and nothing else of the zones (R139). -/
theorem setTrouble_zones (z : Fin 16) (mark : Bool) (s : State) :
    ZonesAre
      (s.alarm.setZone z
        { s.zone z with trouble := if (s.zone z).config.enabled then mark else (s.zone z).trouble })
      (setTrouble z mark s) := by
  have same : s.alarm.setZone z (s.zone z) = s.alarm := AlarmUnit.setZone_same _ _
  have kept (h : (s.zone z).config.enabled = false ∨ (s.zone z).trouble = mark) :
      ({ s.zone z with trouble := if (s.zone z).config.enabled then mark else (s.zone z).trouble } : Zone) = s.zone z := by
    generalize s.zone z = r at h
    obtain ⟨c, _, _, _, _, tr, _, _, _, _⟩ := r
    cases h with
    | inl h => simp only [] at h; simp [h]
    | inr h => simp only [] at h; simp [h]
  unfold setTrouble
  simp only []
  by_cases h : (s.zone z).config.enabled = false ∨ (s.zone z).trouble = mark
  · rw [kept h, same, if_pos h]
    exact ⟨rfl, rfl, rfl⟩
  · rw [if_neg h]
    have e : (s.zone z).config.enabled = true := by
      cases k : (s.zone z).config.enabled
      · exact absurd (Or.inl k) h
      · rfl
    rw [if_pos e]
    cases mark
    · exact ⟨rfl, rfl, rfl⟩
    · refine ⟨?_, ?_, ?_⟩ <;> simp [markChanged, onZone, State.zone]

/-- A debounced reading is judged: NORMAL, and ACTIVE or a cut on a tamper or attack zone, clear the trouble mark of an enabled zone and set
the input; another cut sets the mark. Its own zone alone changes (R139). -/
theorem judgeReading_zones (z : Fin 16) (x : Reading) (s : State) :
    let read : Zone := { s.zone z with reading := x }
    let calm : Zone := { read with trouble := if read.config.enabled then false else read.trouble }
    let up : Zone := { calm with inputActive := true }
    let raised : Zone :=
      if calm.inputActive = true then calm
      else if s.alarm.eligible z then up.activated s.alarm.armed s.settings.entryDelay s.clock.count none else up
    ZonesAre
      (s.alarm.setZone z
        (match x with
          | .normal => if calm.inputActive = false then calm else { calm with inputActive := false }.restored
          | .active => raised
          | .open_ | .short =>
            if read.config.type.cutActivates then raised
            else { read with trouble := if read.config.enabled then true else read.trouble }))
      (judgeReading z x s) := by
  intro read calm up raised
  let s1 := onZone z (fun r => { r with reading := x }) s
  have h1 : ZonesAre (s.alarm.setZone z read) s1 := ⟨rfl, rfl, rfl⟩
  have hz1 : s1.zone z = read := h1.zone
  have trouble (mark : Bool) :
      ZonesAre (s.alarm.setZone z { read with trouble := if read.config.enabled then mark else read.trouble })
        (setTrouble z mark s1) := by
    have k := setTrouble_zones z mark s1
    rw [hz1] at k
    exact h1.next k
  have hset : (setTrouble z false s1).settings = s.settings := by simp [s1, onZone]
  have hclk : (setTrouble z false s1).clock = s.clock := by simp [s1, onZone]
  have input (active : Bool) :
      ZonesAre
        (s.alarm.setZone z
          (if calm.inputActive = active then calm
          else if active then
            (if s.alarm.eligible z then
              { calm with inputActive := active }.activated s.alarm.armed s.settings.entryDelay s.clock.count none
            else { calm with inputActive := active })
          else { calm with inputActive := active }.restored))
        (setInput z active (setTrouble z false s1)) := by
    have k := setInput_zones z active (setTrouble z false s1)
    simp only [] at k
    rw [(trouble false).zone, hset, hclk, (trouble false).eligible rfl rfl, (trouble false).2.1] at k
    exact (trouble false).next k
  have cut (t u : State) (p : Prop) [Decidable p] (q r : Zone) (h : ZonesAre (s.alarm.setZone z q) t)
      (k : ZonesAre (s.alarm.setZone z r) u) :
      ZonesAre (s.alarm.setZone z (if p then q else r)) (if p then t else u) := by
    by_cases c : p
    · rw [if_pos c, if_pos c]; exact h
    · rw [if_neg c, if_neg c]; exact k
  unfold judgeReading
  cases x <;> simp only []
  · exact input false
  · exact input true
  · show ZonesAre _ (if (s1.zone z).config.type.cutActivates = true then _ else _)
    rw [hz1]
    exact cut _ _ _ _ _ (input true) (trouble true)
  · show ZonesAre _ (if (s1.zone z).config.type.cutActivates = true then _ else _)
    rw [hz1]
    exact cut _ _ _ _ _ (input true) (trouble true)

/-- A momentary raise, with the input NORMAL, is an activation followed at once by a restore of its own zone alone (R142). -/
theorem momentary_zones (z : Fin 16) (port : Option Port) (s : State) :
    let r := s.zone z
    let raised : Zone :=
      if s.alarm.eligible z then r.activated s.alarm.armed s.settings.entryDelay s.clock.count port else r
    ZonesAre (s.alarm.setZone z (if r.inputActive then r else raised.restored)) (momentary z port s) := by
  intro r raised
  unfold momentary
  split
  · rename_i h
    rw [show s.alarm.setZone z r = s.alarm from AlarmUnit.setZone_same _ _]
    exact ⟨rfl, rfl, rfl⟩
  · rename_i h
    have a := activate_zones z port s
    have b := restore_zones z (activate z port s)
    have hz : (activate z port s).zone z = raised := by
      have e := AlarmUnit.zone_of_zones a.1 z
      rw [AlarmUnit.zone_setZone_self] at e
      exact e
    rw [hz] at b
    refine ⟨?_, b.2.1.trans a.2.1, b.2.2.trans a.2.2⟩
    rw [b.1, AlarmUnit.setZone_zones a.1 z, AlarmUnit.setZone_setZone]

/-! ## A valid frame at port M (R140) -/

/-- Once port M's monitor has heard a frame, its timer runs for 60 s and zone 14's input is NORMAL, unless the timer has not been started
yet, and then the input was NORMAL. -/
theorem monitorHeard_heard (s : State) :
    ((monitorHeard s).zone 14).inputActive = false ∧
      (monitorHeard s).alarm.monitorTimer =
        if s.alarm.monitorTimer.isSome ∨ (s.zone 14).inputActive then some Config.monitorTime else s.alarm.monitorTimer := by
  unfold monitorHeard
  split
  · have h := setInput_zones 14 false (s.onAlarm (fun u => { u with monitorTimer := some Config.monitorTime }))
    simp only [] at h
    refine ⟨?_, h.2.2⟩
    have e := AlarmUnit.zone_of_zones h.1 14
    rw [AlarmUnit.zone_setZone_self] at e
    have hr : ∀ r : Zone, r.restored.inputActive = r.inputActive := by
      intro r; unfold Zone.restored; cases r.state <;> rfl
    unfold State.zone at e ⊢
    rw [e]
    split
    · rename_i k; exact k
    · simp [hr]
  · rename_i h
    refine ⟨?_, rfl⟩
    cases k : (s.zone 14).inputActive
    · rfl
    · exact absurd (Or.inr k) h

/-- What has been heard once is not heard again: a second frame finds nothing to change. -/
theorem monitorHeard_twice (s : State) : monitorHeard (monitorHeard s) = monitorHeard s := by
  obtain ⟨h1, h2⟩ := monitorHeard_heard s
  by_cases c : s.alarm.monitorTimer.isSome ∨ (s.zone 14).inputActive
  · rw [if_pos c] at h2
    generalize monitorHeard s = x at h1 h2
    have e : x.onAlarm (fun u => { u with monitorTimer := some Config.monitorTime }) = x := by
      unfold State.onAlarm
      rw [← h2]
    unfold monitorHeard
    rw [if_pos (Or.inl (by rw [h2]; rfl)), e]
    unfold setInput
    rw [if_pos h1]
  · have e : monitorHeard s = s := by unfold monitorHeard; rw [if_neg c]
    rw [e, e]

/-- Hearing a frame does not touch the supply. -/
@[simp] theorem monitorHeard_powered (s : State) : (monitorHeard s).powered = s.powered := by
  unfold State.powered; simp

/-- A request frame at port M does what it does to the state as the monitor leaves it. -/
theorem takeFrame_heard (code : Byte) (f : Frame) (answer : State → Answer × State) (s : State) (h : f.port = .m)
    (p : s.powered = true) : takeFrame code f answer (monitorHeard s) = takeFrame code f answer s := by
  unfold takeFrame
  simp only [monitorHeard_powered, p, if_true, hearFrame, h, monitorHeard_twice]

/-- A request frame is taken at its port, whatever the request, with an answer that depends on the frame alone (R178, R179). -/
theorem request_frame (r : Request) (f : Frame) :
    ∃ answer : State → Answer × State, ∀ s : State, exec (r.instr f) s = done (takeFrame r.code f answer s) := by
  cases r
  case unload => unfold Request.instr; dsimp only; split <;> exact ⟨_, fun _ => rfl⟩
  case jamClear => unfold Request.instr; dsimp only; split <;> exact ⟨_, fun _ => rfl⟩
  all_goals exact ⟨_, fun _ => rfl⟩

/-- Every valid frame at port M does what it does to the state as the monitor leaves it, which keeps the port's buffer (R140). -/
theorem exec_heard (c : Instr) (s : State) (p : s.powered = true) (h : HeardAtM c s)
    (hk : (monitorHeard s).ports.m.held = s.ports.m.held) : exec c (monitorHeard s) = exec c s := by
  rcases h with ⟨r, f, hf, rfl⟩ | ⟨code, f, hf, rfl⟩ | rfl | ⟨rfl, hb⟩
  · obtain ⟨answer, k⟩ := request_frame r f
    rw [k, k, takeFrame_heard _ _ _ _ hf p]
  · exact congrArg done (takeFrame_heard _ _ _ _ hf p)
  · show done (whenPowered _ _) = done (whenPowered _ _)
    unfold whenPowered
    rw [monitorHeard_powered, if_pos p, if_pos p]
    simp only [frameDiscarded, hearFrame, if_true, monitorHeard_twice]
  · have hb' : ((monitorHeard s).ports.get .m).held.isSome = true := by
      show (monitorHeard s).ports.m.held.isSome = true
      rw [hk]; exact hb
    have hb2 : (s.ports.get .m).held.isSome = true := hb
    show done (whenPowered _ _) = done (whenPowered _ _)
    unfold whenPowered
    rw [monitorHeard_powered, if_pos p, if_pos p]
    simp only [overran, hearFrame, if_true, monitorHeard_twice, hb', hb2]

end Sys2Proof.Machine
end

