-- ==== Sys2Proof/Laws/Layouts.lean ====
section
/-!
SUPPORT. How many bytes the figures of a reply take, and the parts of a POSITION_READ reply that follow from them (R12, R95, R202).
-/
namespace Sys2Proof.Machine

@[simp] theorem bytesOf_length (n v : Nat) : (bytesOf n v).length = n := by
  induction n with
  | zero => rfl
  | succ n ih => simp [bytesOf, ih]

@[simp] theorem packDigits_length (n v : Nat) : (packDigits n v).length = n := by
  induction n with
  | zero => rfl
  | succ n ih => simp [packDigits, ih]

/-- A bundle record takes 21 bytes, a stack a byte more than its bundles (R95, R202). -/
theorem stackBytes_length (stack : List Bundle) : (stackBytes stack).length = 1 + 21 * stack.length := by
  have all (l : List Bundle) : (l.flatMap Bundle.bytes).length = 21 * l.length := by
    induction l with
    | nil => rfl
    | cons b bs ih =>
      simp [Bundle.bytes, counts2, flag1] at ih ⊢
      omega
  simp [stackBytes, all]

@[simp] theorem counts2_length (q : Quad Nat) : (counts2 q).length = 8 := by simp [counts2]
@[simp] theorem counts4_length (q : Quad Nat) : (counts4 q).length = 16 := by simp [counts4]
@[simp] theorem signedCounts_length (q : Quad Int) : (signedCounts q).length = 16 := by simp [signedCounts, signed4]
@[simp] theorem Causes.bytes_length (c : Causes) : c.bytes.length = 2 := by simp [Causes.bytes, flag1]
@[simp] theorem Cassette.bytes_length (c : Cassette) : c.bytes.length = 16 := by simp [Cassette.bytes, named, flag1]
@[simp] theorem Account.bytes_length (a : Account) : a.bytes.length = 9 := by simp [Account.bytes, writeS5, writeU4]
@[simp] theorem Flows.bytes_length (f : Flows) : f.bytes.length = 96 := by simp [Flows.bytes]
@[simp] theorem PositionReport.placeBytes_length (x : PositionReport) : x.placeBytes.length = 96 := by
  simp [PositionReport.placeBytes]

/-- The report of POSITION_READ takes 311 bytes, and 5 more with an integrity fault recorded (R12, R202). -/
theorem PositionReport.bytes_length (x : PositionReport) :
    x.bytes.length = 311 + (if x.position.integrityFault.isSome then 5 else 0) := by
  have flag (b : Bool) : (flag1 b).length = 1 := by simp [flag1]
  have code {α : Type} (y : α) : (named y).length = 1 := rfl
  have fault (y : Option IntegrityFault) :
      (optional (fun f => named f.which ++ bytesOf 4 f.time.toNat) y).length = 1 + (if y.isSome then 5 else 0) := by
    cases y <;> simp [optional, flag1, named]
  unfold PositionReport.bytes
  simp only [List.length_append, bytesOf_length, Flows.bytes_length, Cassette.bytes_length,
    Account.bytes_length, Causes.bytes_length, PositionReport.placeBytes_length, flag, code, fault]
  generalize (if x.position.integrityFault.isSome = true then 5 else 0) = n
  omega

theorem cutResults_nil (n : Nat) : cutResults n [] = [] := by cases n <;> simp [cutResults]

/-- Results of 250 to 498 bytes cut are two pieces. -/
theorem cutResults_two (n : Nat) (results : List Byte) (h1 : 249 < results.length) (h2 : results.length ≤ 498) :
    (cutResults (n + 2) results).length = 2 := by
  have e1 : results ≠ [] := by intro e; simp [e] at h1
  have e2 : results.drop 249 ≠ [] := by simpa using h1
  have e3 : (results.drop 249).drop 249 = [] := by simpa using h2
  rw [cutResults, if_neg e1, cutResults, if_neg e2, e3, cutResults_nil]
  rfl

/-- A reply with the report of POSITION_READ is always cut, in two parts (R202). -/
theorem Reply.partsAfter_position (x : PositionReport) (r : Reply) (h : r.results = .position x) : r.partsAfter = 1 := by
  have hx := PositionReport.bytes_length x
  have lo : 250 < x.bytes.length := by omega
  have hi : x.bytes.length ≤ 498 := by split at hx <;> omega
  obtain ⟨n, hn⟩ : ∃ n, x.bytes.length = n + 2 := ⟨x.bytes.length - 2, by omega⟩
  have two : (cutResults x.bytes.length x.bytes).length = 2 := by
    rw [hn]
    exact cutResults_two n x.bytes (by omega) hi
  have cut : ¬x.bytes.length ≤ 250 := by omega
  simp only [Reply.partsAfter, Reply.parts, h, Results.bytes, if_neg cut, two]

end Sys2Proof.Machine
end

