-- ==== Sys2Proof/Laws/PerInstr.lean ====
section
/-!
SUPPORT. The per-command family FrameLength: what 11.1 says of every request frame, one lemma for each constructor.
-/
namespace Sys2Proof.Laws

/-- A frame on the line is at most 68 bytes, for a request whose operands fit (11.1). -/
theorem requestBytes_length (code : Byte) (f : Frame) (h : f.wellFormed = true) : (requestBytes code f).length ≤ 68 := by
  have h : f.operands.length ≤ 61 := by simpa [Frame.wellFormed] using h
  simp only [requestBytes, frameBytes, checkBytes, List.length_cons, List.length_append, List.length_nil]
  omega

/-- A well-formed command that is a request frame is at most 68 bytes on the line: a start byte, a length byte, a body of at most 64
bytes, two check bytes (R177, 11.1). -/
def FrameLength.Statement (i : Instr) : Prop :=
  ∀ (code : Byte) (f : Frame), i.request? = some (code, f) → i.wellFormed = true → (requestBytes code f).length ≤ 68

namespace FrameLength

theorem dispense (f : Frame) : Statement (.dispense f) := by
  intro c g h w
  cases h
  exact requestBytes_length _ _ w

theorem cancel (f : Frame) : Statement (.cancel f) := by
  intro c g h w
  cases h
  exact requestBytes_length _ _ w

theorem claim (f : Frame) : Statement (.claim f) := by
  intro c g h w
  cases h
  exact requestBytes_length _ _ w

theorem release (f : Frame) : Statement (.release f) := by
  intro c g h w
  cases h
  exact requestBytes_length _ _ w

theorem depositOpen (f : Frame) : Statement (.depositOpen f) := by
  intro c g h w
  cases h
  exact requestBytes_length _ _ w

theorem depositClose (f : Frame) : Statement (.depositClose f) := by
  intro c g h w
  cases h
  exact requestBytes_length _ _ w

theorem insertNotes (f : Frame) : Statement (.insertNotes f) := by
  intro c g h w
  cases h
  exact requestBytes_length _ _ w

theorem returnLast (f : Frame) : Statement (.returnLast f) := by
  intro c g h w
  cases h
  exact requestBytes_length _ _ w

theorem returnAll (f : Frame) : Statement (.returnAll f) := by
  intro c g h w
  cases h
  exact requestBytes_length _ _ w

theorem compareEscrow (f : Frame) : Statement (.compareEscrow f) := by
  intro c g h w
  cases h
  exact requestBytes_length _ _ w

theorem commit (f : Frame) : Statement (.commit f) := by
  intro c g h w
  cases h
  exact requestBytes_length _ _ w

theorem post (f : Frame) : Statement (.post f) := by
  intro c g h w
  cases h
  exact requestBytes_length _ _ w

theorem handover (f : Frame) : Statement (.handover f) := by
  intro c g h w
  cases h
  exact requestBytes_length _ _ w

theorem load (f : Frame) : Statement (.load f) := by
  intro c g h w
  cases h
  exact requestBytes_length _ _ w

theorem unload (f : Frame) : Statement (.unload f) := by
  intro c g h w
  cases h
  exact requestBytes_length _ _ (Bool.and_eq_true_iff.1 w).1

theorem unloadBin (f : Frame) : Statement (.unloadBin f) := by
  intro c g h w
  cases h
  exact requestBytes_length _ _ (Bool.and_eq_true_iff.1 w).1

theorem reconcile (f : Frame) : Statement (.reconcile f) := by
  intro c g h w
  cases h
  exact requestBytes_length _ _ w

theorem jamClearModule (f : Frame) : Statement (.jamClearModule f) := by
  intro c g h w
  cases h
  exact requestBytes_length _ _ (Bool.and_eq_true_iff.1 w).1

theorem jamClearSlot (f : Frame) : Statement (.jamClearSlot f) := by
  intro c g h w
  cases h
  exact requestBytes_length _ _ (Bool.and_eq_true_iff.1 w).1

theorem slotOpen (f : Frame) : Statement (.slotOpen f) := by
  intro c g h w
  cases h
  exact requestBytes_length _ _ w

theorem slotClose (f : Frame) : Statement (.slotClose f) := by
  intro c g h w
  cases h
  exact requestBytes_length _ _ w

theorem binEmptied (f : Frame) : Statement (.binEmptied f) := by
  intro c g h w
  cases h
  exact requestBytes_length _ _ w

theorem zoneSet (f : Frame) : Statement (.zoneSet f) := by
  intro c g h w
  cases h
  exact requestBytes_length _ _ w

theorem arm (f : Frame) : Statement (.arm f) := by
  intro c g h w
  cases h
  exact requestBytes_length _ _ w

theorem disarm (f : Frame) : Statement (.disarm f) := by
  intro c g h w
  cases h
  exact requestBytes_length _ _ w

theorem bypass (f : Frame) : Statement (.bypass f) := by
  intro c g h w
  cases h
  exact requestBytes_length _ _ w

theorem alarmAck (f : Frame) : Statement (.alarmAck f) := by
  intro c g h w
  cases h
  exact requestBytes_length _ _ w

theorem alarmList (f : Frame) : Statement (.alarmList f) := by
  intro c g h w
  cases h
  exact requestBytes_length _ _ w

theorem silence (f : Frame) : Statement (.silence f) := by
  intro c g h w
  cases h
  exact requestBytes_length _ _ w

theorem journalRead (f : Frame) : Statement (.journalRead f) := by
  intro c g h w
  cases h
  exact requestBytes_length _ _ w

theorem journalScan (f : Frame) : Statement (.journalScan f) := by
  intro c g h w
  cases h
  exact requestBytes_length _ _ w

theorem trim (f : Frame) : Statement (.trim f) := by
  intro c g h w
  cases h
  exact requestBytes_length _ _ w

theorem sync (f : Frame) : Statement (.sync f) := by
  intro c g h w
  cases h
  exact requestBytes_length _ _ w

theorem status (f : Frame) : Statement (.status f) := by
  intro c g h w
  cases h
  exact requestBytes_length _ _ w

theorem positionRead (f : Frame) : Statement (.positionRead f) := by
  intro c g h w
  cases h
  exact requestBytes_length _ _ w

theorem clearFaults (f : Frame) : Statement (.clearFaults f) := by
  intro c g h w
  cases h
  exact requestBytes_length _ _ w

theorem approve (f : Frame) : Statement (.approve f) := by
  intro c g h w
  cases h
  exact requestBytes_length _ _ w

theorem clockSet (f : Frame) : Statement (.clockSet f) := by
  intro c g h w
  cases h
  exact requestBytes_length _ _ w

theorem setSetting (f : Frame) : Statement (.setSetting f) := by
  intro c g h w
  cases h
  exact requestBytes_length _ _ w

theorem restart (f : Frame) : Statement (.restart f) := by
  intro c g h w
  cases h
  exact requestBytes_length _ _ w

theorem unknownRequest (code : Byte) (f : Frame) : Statement (.unknownRequest code f) := by
  intro c g h w
  cases h
  exact requestBytes_length _ _ (Bool.and_eq_true_iff.1 w).1

theorem invalidFrame (p : Port) (why : FrameFault) : Statement (.invalidFrame p why) := by
  intro c g h
  cases h

theorem frameGapTimeout (p : Port) : Statement (.frameGapTimeout p) := by
  intro c g h
  cases h

theorem overrun (p : Port) : Statement (.overrun p) := by
  intro c g h
  cases h

theorem frameSent (p : Port) : Statement (.frameSent p) := by
  intro c g h
  cases h

theorem duressRaise (t : Teller) : Statement (.duressRaise t) := by
  intro c g h
  cases h

theorem claimIdleExpiry : Statement (.claimIdleExpiry) := by
  intro c g h
  cases h

theorem delayEnd (t : Teller) : Statement (.delayEnd t) := by
  intro c g h
  cases h

theorem presentTimerExpiry (t : Teller) : Statement (.presentTimerExpiry t) := by
  intro c g h
  cases h

theorem pocketEmpty (t : Teller) : Statement (.pocketEmpty t) := by
  intro c g h
  cases h

theorem pickEvent (m : Multiplicity) : Statement (.pickEvent m) := by
  intro c g h
  cases h

theorem noteCheck (r : NoteCheck) : Statement (.noteCheck r) := by
  intro c g h
  cases h

theorem noteSensorArrival (a : Arrival) : Statement (.noteSensorArrival a) := by
  intro c g h
  cases h

theorem noteJam (lastSeen : Sensor) : Statement (.noteJam lastSeen) := by
  intro c g h
  cases h

theorem retractNoteCounted (d : Option Ix) : Statement (.retractNoteCounted d) := by
  intro c g h
  cases h

theorem drawSourceEmpty : Statement (.drawSourceEmpty) := by
  intro c g h
  cases h

theorem cassetteRemoval (k : Ix) : Statement (.cassetteRemoval k) := by
  intro c g h
  cases h

theorem cassetteInsertion (k : Ix) : Statement (.cassetteInsertion k) := by
  intro c g h
  cases h

theorem feedTake : Statement (.feedTake) := by
  intro c g h
  cases h

theorem feedMiss : Statement (.feedMiss) := by
  intro c g h
  cases h

theorem insertVerdict (v : NoteVerdict) : Statement (.insertVerdict v) := by
  intro c g h
  cases h

theorem drumEntry : Statement (.drumEntry) := by
  intro c g h
  cases h

theorem compartmentEntry : Statement (.compartmentEntry) := by
  intro c g h
  cases h

theorem returnPocketEntry : Statement (.returnPocketEntry) := by
  intro c g h
  cases h

theorem intakeEmpty (t : Teller) : Statement (.intakeEmpty t) := by
  intro c g h
  cases h

theorem drumExit : Statement (.drumExit) := by
  intro c g h
  cases h

theorem drumEmpty : Statement (.drumEmpty) := by
  intro c g h
  cases h

theorem cassetteEntry (k : Ix) : Statement (.cassetteEntry k) := by
  intro c g h
  cases h

theorem gripOn : Statement (.gripOn) := by
  intro c g h
  cases h

theorem gripOff : Statement (.gripOff) := by
  intro c g h
  cases h

theorem imprintReport : Statement (.imprintReport) := by
  intro c g h
  cases h

theorem intakeTimerExpiry : Statement (.intakeTimerExpiry) := by
  intro c g h
  cases h

theorem reverseTimerExpiry : Statement (.reverseTimerExpiry) := by
  intro c g h
  cases h

theorem imprinterReport (r : ImprintResult) : Statement (.imprinterReport r) := by
  intro c g h
  cases h

theorem imprinterTimeout : Statement (.imprinterTimeout) := by
  intro c g h
  cases h

theorem dropReport : Statement (.dropReport) := by
  intro c g h
  cases h

theorem dropTimerExpiry : Statement (.dropTimerExpiry) := by
  intro c g h
  cases h

theorem clearRunExpiry : Statement (.clearRunExpiry) := by
  intro c g h
  cases h

theorem mouthClear : Statement (.mouthClear) := by
  intro c g h
  cases h

theorem keyDigit (d : Fin 10) : Statement (.keyDigit d) := by
  intro c g h
  cases h

theorem keyEnter : Statement (.keyEnter) := by
  intro c g h
  cases h

theorem keyClear : Statement (.keyClear) := by
  intro c g h
  cases h

theorem keypadTimerExpiry : Statement (.keypadTimerExpiry) := by
  intro c g h
  cases h

theorem receiptPrinterReport (r : ReceiptResult) : Statement (.receiptPrinterReport r) := by
  intro c g h
  cases h

theorem paperLoaded : Statement (.paperLoaded) := by
  intro c g h
  cases h

theorem loopReading (z : Fin 14) (r : Reading) : Statement (.loopReading z r) := by
  intro c g h
  cases h

theorem debouncedReadingChange (z : Fin 14) : Statement (.debouncedReadingChange z) := by
  intro c g h
  cases h

theorem entryTimerExpiry (z : Fin 16) : Statement (.entryTimerExpiry z) := by
  intro c g h
  cases h

theorem monitorTimerExpiry : Statement (.monitorTimerExpiry) := by
  intro c g h
  cases h

theorem sounderTimerExpiry : Statement (.sounderTimerExpiry) := by
  intro c g h
  cases h

theorem approvalExpiry (p : Port) : Statement (.approvalExpiry p) := by
  intro c g h
  cases h

theorem syncTimeout (p : Port) : Statement (.syncTimeout p) := by
  intro c g h
  cases h

theorem writeComplete : Statement (.writeComplete) := by
  intro c g h
  cases h

theorem writeFailed : Statement (.writeFailed) := by
  intro c g h
  cases h

theorem stalledRetry : Statement (.stalledRetry) := by
  intro c g h
  cases h

theorem clockTick : Statement (.clockTick) := by
  intro c g h
  cases h

theorem clockCalendarEnd : Statement (.clockCalendarEnd) := by
  intro c g h
  cases h

theorem supplyApplied (memoryGood drumNotes envelopeInPath : Bool) : Statement (.supplyApplied memoryGood drumNotes envelopeInPath) := by
  intro c g h
  cases h

theorem powerLoss : Statement (.powerLoss) := by
  intro c g h
  cases h

theorem resetLine : Statement (.resetLine) := by
  intro c g h
  cases h

theorem restartReset : Statement (.restartReset) := by
  intro c g h
  cases h

theorem startUpReady : Statement (.startUpReady) := by
  intro c g h
  cases h

end FrameLength

end Sys2Proof.Laws
end

