-- ==== Sys2Proof/Tests/Slice0.lean ====
section
/-!
SUPPORT. Our own tests: the spec's worked figures, the ill-formed terms, and for each statement a state and operands that meet its
hypotheses.
-/
namespace Sys2Proof.Machine

set_option Elab.async false

/-! ## Helpers -/

/-- The state after a list of commands; every command of the part answers a next state. -/
def after : List Instr → State → State
  | [], s => s
  | c :: cs, s =>
    match exec c s with
    | .next t => after cs t
    | .fault x => nomatch x
    | .refused _ => s

/-- Quiet, as a check. -/
def quietCheck (s : State) : Bool :=
  allTellers.all (fun t =>
    !((s.dispense t).state == .queued && (s.dispense t).deferred && !s.opInFlight t.other.port) &&
      (!s.retractWaits t || s.path.state == .purging))

theorem quiet_of_check (s : State) (h : quietCheck s = true) : Quiet s := by
  intro t
  have : t ∈ allTellers := by cases t <;> decide
  have k := List.all_eq_true.1 h t this
  simp only [Bool.and_eq_true, Bool.not_eq_true', Bool.or_eq_true, Bool.and_eq_false_iff, beq_iff_eq] at k
  constructor
  · intro hx
    rcases k.1 with h1 | h1
    · rcases h1 with h1 | h1
      · simp [hx.1] at h1
      · rw [hx.2.1] at h1; cases h1
    · simp [hx.2.2] at h1
  · intro hx
    rcases k.2 with h1 | h1
    · rw [hx] at h1; cases h1
    · exact h1

/-- Taken, as a check. -/
def takenCheck (r : Request) (f : Frame) (s : State) : Bool :=
  s.startUp.phase == .ready && (s.ports.get f.port).held.isNone && Request.permitted r f.port &&
    Request.lengthOk r f.operands.length && quietCheck s &&
    (f.port != .m || (s.alarm.monitorTimer == some Config.monitorTime && !(s.zone 14).inputActive))

theorem taken_of_check (r : Request) (f : Frame) (s : State) (h : takenCheck r f s = true) : Taken r f s := by
  unfold takenCheck at h
  simp only [Bool.and_eq_true, beq_iff_eq, Option.isNone_iff_eq_none, Bool.or_eq_true, bne_iff_ne, ne_eq,
    Bool.not_eq_true'] at h
  obtain ⟨⟨⟨⟨⟨h1, h2⟩, h3⟩, h4⟩, h5⟩, h6⟩ := h
  refine ⟨h1, h2, h3, h4, quiet_of_check s h5, fun hm => ?_⟩
  rcases h6 with h6 | h6
  · exact absurd hm h6
  · exact h6

/-- The reset state after a RECONCILE by hand: a denomination table, three counted cassettes, notes in the bins, no audit
cause. -/
def stocked : State :=
  { State.reset with
    settings := { Settings.defaults with denominations := ⟨2000, 5000, 1000, 500⟩ }
    position :=
      { State.reset.position with
        cassettes :=
          ⟨{ Cassette.cold .recycle (some .i1) .loaded with counts := ⟨60, 0, 0, 0⟩ },
            { Cassette.cold .recycle (some .i2) .low with counts := ⟨0, 12, 0, 0⟩ },
            { Cassette.cold .recycle (some .i3) .loaded with counts := ⟨0, 0, 80, 0⟩ },
            { Cassette.cold .deposit none .loaded with counts := ⟨1, 2, 3, 4⟩ }⟩
        reject := ⟨1, 0, 2, 0⟩
        retract := ⟨0, 1, 0, 0⟩
        drawerA := ⟨12345, 7, true⟩
        flows := { Flows.zero with opening := ⟨62, 15, 85, 4⟩ }
        causes := Causes.empty }
    ports := ⟨PortState.reset, PortState.reset, PortState.reset, PortState.reset⟩ }

/-- A frame from a port. -/
def fr (p : Port) (ops : List Byte) : Frame := ⟨p, false, 7#8, ops⟩

/-- Taken, with a claim about the state beside it. -/
theorem taken_and {r : Request} {f : Frame} {s : State} {p : Prop} (h : takenCheck r f s = true) (k : p) : Taken r f s ∧ p :=
  ⟨taken_of_check r f s h, k⟩

/-! ## Well-formed terms -/

theorem test_refuses_long_frame : (Instr.claim (fr .a (List.replicate 62 0#8))).wellFormed = false := by decide
theorem test_admits_longest_frame : (Instr.claim (fr .a (List.replicate 61 0#8))).wellFormed = true := by decide
theorem test_refuses_unload_of_bin : (Instr.unload (fr .s [5])).wellFormed = false := by decide
theorem test_refuses_unload_bin_of_cassette : (Instr.unloadBin (fr .s [4])).wellFormed = false := by decide
theorem test_refuses_jam_clear_module_of_slot : (Instr.jamClearModule (fr .s [2])).wellFormed = false := by decide
theorem test_refuses_jam_clear_slot_of_module : (Instr.jamClearSlot (fr .s [1])).wellFormed = false := by decide
theorem test_refuses_unknown_of_known_code : (Instr.unknownRequest 0x12#8 (fr .a [])).wellFormed = false := by decide
theorem test_refuses_arrival_of_own_row : (Instr.noteSensorArrival ⟨.path, .drumEntry⟩).wellFormed = false := by decide
theorem test_refuses_approval_expiry_of_panel : (Instr.approvalExpiry .m).wellFormed = false := by decide

/-! ## Frames: the check word, and words written out from 11.1 and 11.2 -/

/-- The check value of the nine characters "123456789" for the polynomial and the initial value of R177 is 29B1h. -/
theorem test_crc_of_digits : crc16 [0x31#8, 0x32#8, 0x33#8, 0x34#8, 0x35#8, 0x36#8, 0x37#8, 0x38#8, 0x39#8] = 0x29B1#16 := by
  decide +kernel

/-- The commands that frame bodies, kind, tag, code and operands, are. -/
theorem test_bodies_are_their_commands :
    commandOfBody .a 0x81#8 7#8 0x10#8 [0#8] = .dispense ⟨.a, true, 7#8, [0#8]⟩ ∧
      commandOfBody .s 0x01#8 1#8 0x33#8 [7#8] = .unloadBin ⟨.s, false, 1#8, [7#8]⟩ ∧
      commandOfBody .s 0x01#8 1#8 0x33#8 [4#8] = .unload ⟨.s, false, 1#8, [4#8]⟩ ∧
      commandOfBody .s 0x01#8 1#8 0x40#8 [2#8] = .jamClearSlot ⟨.s, false, 1#8, [2#8]⟩ ∧
      commandOfBody .m 0x01#8 1#8 0x54#8 [0xFF#8] = .alarmAck ⟨.m, false, 1#8, [0xFF#8]⟩ ∧
      commandOfBody .b 0x01#8 9#8 0x63#8 [] = .sync ⟨.b, false, 9#8, []⟩ ∧
      commandOfBody .b 0x01#8 9#8 0x77#8 [] = .unknownRequest 0x77#8 ⟨.b, false, 9#8, []⟩ ∧
      commandOfBody .b 0x02#8 9#8 0x63#8 [] = .invalidFrame .b .notRequest := by decide

/-- Length bytes below 3 and above 64 discard the frame (R177). -/
theorem test_length_bytes :
    commandOfFrame .a [0xA5#8, 2#8, 1#8, 1#8, 0#8, 0#8] = some (.invalidFrame .a .badLength) ∧
      commandOfFrame .a [0xA5#8, 65#8] = some (.invalidFrame .a .badLength) ∧ commandOfFrame .a [0xA4#8, 3#8] = none := by
  decide

/-- The table gives no row any bits. -/
theorem test_no_word_spells_a_command : decodeTableWord 8 0x10 = none := by decide

/-! ## Figures of the spec -/

/-- The least remainder wins, and among equals the greatest vector in preference order (R41): 285.40 from C2, C1, C4, C3 with
50.00, 20.00, 5.00 and 10.00, first by availability, then with a cap of ten notes. -/
theorem test_best_mix :
    bestMix ⟨2000, 5000, 1000, 500⟩ ⟨37, 3, 0, 50⟩ [.i2, .i1, .i4, .i3] 40 28540 = (⟨6, 3, 0, 3⟩, 40) ∧
      bestMix ⟨2000, 5000, 1000, 500⟩ ⟨37, 3, 0, 50⟩ [.i2, .i1, .i4, .i3] 10 28540 = (⟨6, 3, 0, 1⟩, 1040) := by
  constructor <;> decide +kernel

/-- A digit above 9 fails with its position, the amount's leftmost being 1 (R29, R202). -/
theorem test_bad_digit_position : readU4 [0x00#8, 0x1A#8, 0x00#8, 0x00#8] = .error 4 := by decide

/-- ZERO_FILL and its overflow (R45). -/
theorem test_zero_fill : renderZeroFill 4 42 = ['0', '0', '4', '2'] ∧ renderZeroFill 2 100 = ['*', '*'] := by decide

/-- The editing examples of MONEY: a comma, leading spaces, a full field, and one character too many (R46, R47). -/
theorem test_money :
    renderMoney 12 125000 = "    1,250.00".toList ∧ renderMoney 8 5 = "    0.05".toList ∧
      renderMoney 10 99999999 = "999,999.99".toList ∧ renderMoney 8 1000000 = "********".toList := by decide +kernel

/-! ## Reset -/

/-- The state right after reset is what the first cold start leaves (10.2, 10.3). -/
theorem test_reset_is_first_cold_start :
    after [.supplyApplied false false false, .drawSourceEmpty, .startUpReady] State.manufactured = State.reset := by
  decide +kernel

theorem test_supply_begins_purge :
    (after [.supplyApplied false false false] State.manufactured).startUp = ⟨.purge, .cold⟩ := by decide +kernel

theorem test_reset_takes_claim : Taken .claim (fr .b []) { State.reset with ports := stocked.ports } :=
  taken_of_check _ _ _ (by decide +kernel)

theorem test_reset_meets_conserved : Conserved State.reset := by
  constructor <;> intro k <;> cases k <;> decide

theorem test_reset_alarm_derived : AlarmDerived State.reset := by
  unfold AlarmDerived; decide +kernel

theorem test_reset_in_order : InOrder State.reset.journal := by
  refine ⟨⟨by decide, trivial⟩, by decide +kernel, by decide +kernel, fun r h => ?_, fun r h => ?_, by decide +kernel,
    by decide +kernel⟩
  · have h : (none : Option Record) = some r := h
    cases h
  · have h : some (resetRecord 1 .purge 1 0) = some r := h
    cases h; decide

theorem test_step_takes_front :
    step { stocked with pending := [.clockTick, .keyClear] } = exec .clockTick { stocked with pending := [.keyClear] } := rfl

/-! ## Scenario states -/

/-- Window A owns the module. -/
def owned : State := after [.claim (fr .a []), .frameSent .a] stocked

/-- The operands of a DISPENSE of 280.00, at most 40 notes, from C2, C1, C4, C3, for the drawer. -/
def opsD : List Byte := [0#8, 2#8, 0x80#8, 0#8, 40#8, 2#8, 1#8, 4#8, 3#8, 0#8]

/-- Its mix: one of 20.00, five of 50.00, one of 10.00. -/
def mixD : MixResult := ⟨⟨1, 5, 1, 0⟩, 7, 28000, 0, 28000, 0⟩

/-- The same with a delay threshold of 1.00. -/
def delayable : State := { owned with settings := { owned.settings with delayThreshold := 100 } }

def picking : State := after [.dispense (fr .a opsD), .frameSent .a] owned
def delaying : State := after [.dispense (fr .a opsD), .frameSent .a] delayable
/-- The delay has just run its 60 s. -/
def due : State := { delaying with clock := ⟨60, true⟩ }
def dueOwned : State := { due with claim := ⟨.portB, [.claim .s], none⟩ }
def dueOther : State := { due with dispenses := due.dispenses.set .b { due.dispense .b with state := .presenting } }
def dueLocked : State := { due with alarm := { due.alarm with restriction := 0b001000#6 } }
def queued : State := after [.delayEnd .a] dueOwned
/-- Nothing left to deliver: the seven notes are in the pocket, 30 s are left to take them. -/
def presenting : State :=
  { owned with
    position := { owned.position with pockets := ⟨⟨1, 5, 1, 0⟩, Quad.zero⟩ }
    dispenses :=
      owned.dispenses.set .a
        { acceptedRecord owned (dispenseOperands opsD) 28000 mixD 3 with
          state := .presenting, delivered := ⟨1, 5, 1, 0⟩, presented := ⟨1, 5, 1, 0⟩, presentTimer := some 30
          shutterOpen := true, changed := true }
    journal := { owned.journal with reservations := [{ port := .a, kind := .dispense, startSequence := 3, jammed := false }], next := some 4 } }
def retracting : State := after [.presentTimerExpiry .a] presenting
/-- A note has just left the picker. -/
def checking : State := after [.pickEvent .m1] picking
def checkingTwo : State := after [.pickEvent .m2] picking
/-- The last note of the mix is on its way. -/
def checkingLast : State :=
  { checking with
    dispenses := checking.dispenses.set .a { checking.dispense .a with delivered := ⟨1, 4, 1, 0⟩ } }
/-- CANCEL came during the pick. -/
def checkingStopped : State := after [.cancel (fr .a []), .pickEvent .m1] picking
def stopTransit : State := after [.noteCheck .long] checkingStopped
def stopPocket : State := after [.drawSourceEmpty] stopTransit
def jammedModule : State :=
  { stocked with path := NotePath.clear .jammed, position := { stocked.position with transit := ⟨0, 0, 2, 0⟩ } }
def purgingModule : State := after [.jamClearModule (fr .s [1#8]), .frameSent .s] jammedModule
/-- The purge stands at its last source, with nothing left uncounted. -/
def purgeLast : State :=
  { jammedModule with
    path :=
      { jammedModule.path with
        state := .purging, draw := some ⟨.pocket .b, .purge, Quad.zero, Quad.zero⟩
        purge := some ⟨false, [], ⟨0, 0, 2, 0⟩, false, none⟩ } }
/-- Port S owns the module. -/
def ownedS : State := after [.claim (fr .s []), .frameSent .s] stocked

/-- The state with window A's record, a cassette's record, or the RETRACT BIN changed. -/
def withA (f : Dispense → Dispense) (s : State) : State := { s with dispenses := s.dispenses.set .a (f (s.dispense .a)) }
def withCassette (k : Ix) (f : Cassette → Cassette) (s : State) : State :=
  { s with
    position := { s.position with cassettes := s.position.cassettes.set k (f (s.position.cassettes.get k)) } }
def withBin (n : Nat) (s : State) : State := { s with position := { s.position with retract := ⟨0, n, 0, 0⟩ } }
/-- MODULE_LOCK stands. -/
def lockedBy (s : State) : State := { s with alarm := { s.alarm with restriction := 0b010000#6 } }
/-- A purge by request draws the two notes of TRANSIT; window B's dispense and a commit of window A have ended JAMMED, the commit with one
note of D3 delivered, and a return of port S is in flight. -/
def purgeCloses : State :=
  { jammedModule with
    path :=
      { jammedModule.path with
        state := .purging, draw := some ⟨.transit, .purge, ⟨0, 0, 2, 0⟩, Quad.zero⟩
        timers := [⟨.purge, .transit, false⟩], purge := some ⟨false, [.pocket .a, .pocket .b], Quad.zero, false, none⟩ }
    escrow := { jammedModule.escrow with tally := ⟨⟨0, 0, 1, 0⟩, ⟨0, 0, 1, 0⟩, Quad.zero, .drawer, .a⟩ }
    journal :=
      { jammedModule.journal with
        reservations :=
          [{ port := .b, kind := .dispense, startSequence := 2, jammed := true, marks := { capped := true }, unpaid := 700 },
            { port := .a, kind := .commit, startSequence := 0, jammed := true },
            { port := .s, kind := .return_, startSequence := 0, jammed := false }] } }
/-- Its purge. -/
def closing : Purge := ⟨false, [.pocket .a, .pocket .b], Quad.zero, false, none⟩
theorem closing_room (q : Purge) (h : q.startUp = false) (r : Nat) : PurgeRoom q 3 (withBin r purgeCloses) := by
  have k : PurgeRoom { closing with startUp := q.startUp } 3 purgeCloses := by
    rw [h]; unfold PurgeRoom; decide +kernel
  exact k

theorem wit_dispense_taken : Taken .dispense (fr .a opsD) owned := taken_of_check _ _ _ (by decide +kernel)

/-! ## Witnesses: what meets the hypotheses of each statement -/

/-! ### Claims -/

theorem wit_ClaimFollowsItsTable_granted : Taken .claim (fr .a []) stocked ∧ stocked.claim.owner = .none :=
  taken_and (by decide +kernel) (by decide +kernel)
theorem wit_ClaimFollowsItsTable_halted : Taken .claim (fr .a []) dueLocked ∧ dueLocked.restricted .moduleLock = false :=
  taken_and (by decide +kernel) (by decide +kernel)
theorem wit_ClaimFollowsItsTable_lock :
    let s := { stocked with alarm := { stocked.alarm with restriction := 0b010000#6 } }
    Taken .claim (fr .a []) s ∧ s.restricted .moduleLock = true :=
  taken_and (by decide +kernel) (by decide +kernel)
theorem wit_ClaimFollowsItsTable_busy : Taken .claim (fr .a []) delaying ∧ delaying.waitsForModule .a = true :=
  taken_and (by decide +kernel) (by decide +kernel)
theorem wit_ClaimFollowsItsTable_again : Taken .claim (fr .a []) owned ∧ owned.claim.owner.ownedBy .a = true :=
  taken_and (by decide +kernel) (by decide +kernel)
theorem wit_ClaimFollowsItsTable_waiting :
    let s := { owned with claim := ⟨.portA, [.claim .s], none⟩ }
    Taken .claim (fr .b []) s ∧ s.isWaiting .b = false ∧ Taken .claim (fr .s []) s ∧ s.isWaiting .s = true :=
  taken_and (by decide +kernel) ⟨by decide +kernel, taken_of_check _ _ _ (by decide +kernel), by decide +kernel⟩

theorem wit_ReleaseAndIdleExpiryHandOn_refused :
    Taken .release (fr .b []) owned ∧ owned.claim.owner.ownedBy .b = false ∧ owned.waitsForModule .b = false ∧
      .claim .b ∉ owned.claim.waiting ∧ Taken .release (fr .a []) delaying ∧ delaying.waitsForModule .a = true :=
  taken_and (by decide +kernel)
    ⟨by decide +kernel, by decide +kernel, by decide +kernel, taken_of_check _ _ _ (by decide +kernel), by decide +kernel⟩
theorem wit_ReleaseAndIdleExpiryHandOn_withdrawn :
    let s := { owned with claim := ⟨.portA, [.claim .b], none⟩ }
    Taken .release (fr .b []) s ∧ .claim .b ∈ s.claim.waiting ∧ s.claim.owner.ownedBy .b = false :=
  taken_and (by decide +kernel) ⟨by decide +kernel, by decide +kernel⟩
theorem wit_ReleaseAndIdleExpiryHandOn_owner :
    Taken .release (fr .a []) owned ∧ owned.opInFlight .a = false ∧ owned.waitsForModule .a = false ∧
      owned.escrow.stack = [] ∧ owned.claim.waiting = [] ∧ Taken .release (fr .a []) picking ∧ picking.opInFlight .a = true :=
  taken_and (by decide +kernel)
    ⟨by decide +kernel, by decide +kernel, by decide +kernel, by decide +kernel, taken_of_check _ _ _ (by decide +kernel),
      by decide +kernel⟩
theorem wit_ReleaseAndIdleExpiryHandOn_next :
    let s := { owned with claim := ⟨.portA, [.claim .s, .claim .b], none⟩ }
    Taken .release (fr .a []) s ∧ s.claim.waiting = .claim .s :: [.claim .b] :=
  taken_and (by decide +kernel) rfl
theorem wit_ReleaseAndIdleExpiryHandOn_idle :
    owned.running = true ∧ Quiet owned ∧ owned.claim.idle.isSome ∧ owned.claim.owner.port? = some .a ∧
      owned.escrow.stack = [] ∧ owned.claim.waiting = [] :=
  ⟨by decide +kernel, quiet_of_check _ (by decide +kernel), by decide +kernel, by decide +kernel, by decide +kernel,
    by decide +kernel⟩
/-- One note in escrow under the claim of window A. -/
def oneNote : State :=
  { owned with
    claim := ⟨.portA, [.claim .s], some 90⟩
    escrow :=
      { owned.escrow with
        isOpen := true, stack := [⟨⟨1, 0, 0, 0⟩, Quad.zero, 0, 0, false, false⟩] } }
theorem wit_ReleaseAndIdleExpiryHandOn_notes :
    oneNote.running = true ∧ Quiet oneNote ∧ oneNote.claim.idle.isSome ∧ oneNote.claim.owner.port? = some .a ∧
      oneNote.escrow.stack ≠ [] ∧ Port.a.teller?.isSome ∧ Taken .release (fr .a []) oneNote :=
  ⟨by decide +kernel, quiet_of_check _ (by decide +kernel), by decide +kernel, by decide +kernel, by decide +kernel,
    by decide +kernel, taken_of_check _ _ _ (by decide +kernel)⟩
theorem wit_ReleaseAndIdleExpiryHandOn_idle_next :
    let s := { owned with claim := ⟨.portA, [.claim .s], some 90⟩ }
    s.running = true ∧ Quiet s ∧ s.escrow.stack = [] ∧ s.claim.waiting = .claim .s :: [] :=
  ⟨by decide +kernel, quiet_of_check _ (by decide +kernel), by decide +kernel, rfl⟩
/-- Window A's dispense is at the head of the list while window B owns the module: it is granted, and its pick is commanded. -/
theorem wit_ReleaseAndIdleExpiryHandOn_delayed :
    Taken .release (fr .b []) queued ∧ queued.claim.waiting = .delayed .a :: [.claim .s] ∧
      (queued.dispense .a).state = .queued ∧ queued.opInFlight .a = false ∧
      (after [.release (fr .b [])] queued).path.pick = some ⟨.a, .i2, .i2, .commanded⟩ :=
  taken_and (by decide +kernel) ⟨by decide +kernel, by decide +kernel, by decide +kernel, by decide +kernel⟩
theorem wit_ReleaseAndIdleExpiryHandOn_idle_delayed :
    queued.running = true ∧ Quiet queued ∧ queued.claim.idle.isSome ∧ queued.claim.owner.port? = some .b ∧
      queued.escrow.stack = [] ∧ (after [.claimIdleExpiry] queued).path.pick = some ⟨.a, .i2, .i2, .commanded⟩ :=
  ⟨by decide +kernel, quiet_of_check _ (by decide +kernel), by decide +kernel, by decide +kernel, by decide +kernel,
    by decide +kernel⟩
/-- The same grant with the module JAMMED fails with its reason, 14 of 11.4. -/
theorem wit_ReleaseAndIdleExpiryHandOn_fails :
    let s := { queued with path := { queued.path with state := .jammed } }
    Taken .release (fr .b []) s ∧ EndRoom 4 s ∧
      (after [.release (fr .b [])] s).journal.waitingDone.map (fun d => (d.done.outcome, d.done.reason)) =
        [(14, some .jammed)] :=
  taken_and (by decide +kernel) ⟨by decide +kernel, by decide +kernel⟩

/-! ### Dispensing -/

theorem wit_DispenseIsAccepted_picks :
    Port.a = Teller.a.port ∧ Taken .dispense (fr .a opsD) owned ∧
      DispensePasses .a (dispenseOperands opsD) 28000 mixD 3 owned ∧ owned.delayApplies 28000 false = false :=
  ⟨rfl, wit_dispense_taken, by decide +kernel, by decide +kernel⟩
theorem wit_DispenseIsAccepted_delays :
    Taken .dispense (fr .a opsD) delayable ∧ DispensePasses .a (dispenseOperands opsD) 28000 mixD 3 delayable ∧
      delayable.delayApplies 28000 (Approved .dispense (fr .a opsD) delayable) = true ∧ delayable.escrow.stack = [] ∧
      delayable.claim.waiting = [] :=
  taken_and (by decide +kernel) ⟨by decide +kernel, by decide +kernel, by decide +kernel, by decide +kernel⟩
/-- A DISPENSE in every state that an early check refuses, and with operands that the others do. -/
theorem wit_DispenseChecksInOrder :
    Taken .dispense (fr .a opsD) picking ∧ (picking.dispense .a).state ≠ .idle ∧ Taken .dispense (fr .b opsD) owned ∧
      owned.claim.owner.ownedBy .b = false ∧ Taken .dispense (fr .a (0#8 :: 2#8 :: 0xC0#8 :: opsD.drop 3)) owned ∧
      Taken .dispense (fr .a (0#8 :: 0#8 :: 0#8 :: opsD.drop 3)) owned ∧
      requestMix .a 28000 1 (dispenseOperands opsD).preference .own owned =
        (.failed .inexact (.inexact ⟨0, 1, 0, 0⟩ 1 5000 23000 28000), owned) :=
  ⟨taken_of_check _ _ _ (by decide +kernel), by decide +kernel, taken_of_check _ _ _ (by decide +kernel), by decide +kernel,
    taken_of_check _ _ _ (by decide +kernel), taken_of_check _ _ _ (by decide +kernel), by decide +kernel⟩

/-- STALE with every check word matching, and with one that fails: AUDIT, with its fault record. -/
theorem wit_DispenseChecksInOrder_stale :
    let f := fr .a (opsD ++ bytesOf 4 5)
    let s := withCassette .i1 (fun c => { c with intact := false }) owned
    Taken .dispense f owned ∧ Ix.all.all (fun k => (owned.position.cassettes.get k).intact) = true ∧ Taken .dispense f s ∧
      (dispenseOperands f.operands).generation = some 5 ∧ owned.position.generation = 0 ∧
      ((after [.dispense f] s).answered .a).map (fun r => r.reason) = some (some .audit) ∧
      (after [.dispense f] s).position.integrityFault.isSome :=
  taken_and (by decide +kernel)
    ⟨by decide +kernel, taken_of_check _ _ _ (by decide +kernel), by decide +kernel, by decide +kernel, by decide +kernel,
      by decide +kernel⟩
/-- The mix reads the word that fails (R36). -/
theorem wit_DispenseChecksInOrder_audit :
    let s := withCassette .i1 (fun c => { c with intact := false }) owned
    Taken .dispense (fr .a opsD) s ∧
      (requestMix .a 28000 40 (dispenseOperands opsD).preference .own s).1 = .failed .audit .none :=
  taken_and (by decide +kernel) (by decide +kernel)
/-- The claim lent to a CLAIM entry, and to window B's queued dispense, whose pick is commanded. -/
theorem wit_DispenseIsAccepted_lends :
    let s := { delayable with claim := ⟨.portA, [.claim .s, .claim .b], none⟩ }
    Taken .dispense (fr .a opsD) s ∧ DispensePasses .a (dispenseOperands opsD) 28000 mixD 3 s ∧
      s.delayApplies 28000 (Approved .dispense (fr .a opsD) s) = true ∧ s.claim.waiting = .claim .s :: [.claim .b] ∧
      (after [.dispense (fr .a opsD)] s).claim.owner = .portS :=
  taken_and (by decide +kernel) ⟨by decide +kernel, by decide +kernel, by decide +kernel, by decide +kernel⟩
/-- Window B's dispense, accepted with start record 2, waits at the head. -/
def lendsToB : State :=
  { delayable with
    claim := ⟨.portA, [.delayed .b, .claim .s], none⟩
    dispenses := ⟨Dispense.idle, { acceptedRecord owned (dispenseOperands opsD) 28000 mixD 2 with state := .queued }⟩
    journal :=
      { delayable.journal with
        reservations := [{ port := .b, kind := .dispense, startSequence := 2, jammed := false }] } }
theorem wit_DispenseIsAccepted_grants :
    Taken .dispense (fr .a opsD) lendsToB ∧ DispensePasses .a (dispenseOperands opsD) 28000 mixD 3 lendsToB ∧
      lendsToB.delayApplies 28000 (Approved .dispense (fr .a opsD) lendsToB) = true ∧ lendsToB.escrow.stack = [] ∧
      lendsToB.claim.waiting = .delayed Teller.a.other :: [.claim .s] ∧
      (lendsToB.dispense Teller.a.other).state = .queued ∧
      (after [.dispense (fr .a opsD)] lendsToB).path.pick = some ⟨.b, .i2, .i2, .commanded⟩ :=
  taken_and (by decide +kernel)
    ⟨by decide +kernel, by decide +kernel, by decide +kernel, by decide +kernel, by decide +kernel, by decide +kernel⟩

theorem wit_CancelActsByState_idle : Taken .cancel (fr .a []) owned ∧ (owned.dispense .a).state = .idle :=
  taken_and (by decide +kernel) (by decide +kernel)
theorem wit_CancelActsByState_delaying :
    Taken .cancel (fr .a []) delaying ∧ (delaying.dispense .a).state = .delaying ∧ EndRoom 4 delaying :=
  taken_and (by decide +kernel) ⟨by decide +kernel, by decide +kernel⟩
theorem wit_CancelActsByState_queued :
    Taken .cancel (fr .a []) queued ∧ (queued.dispense .a).state = .queued ∧ EndRoom 4 queued :=
  taken_and (by decide +kernel) ⟨by decide +kernel, by decide +kernel⟩
theorem wit_CancelActsByState_picking :
    Taken .cancel (fr .a []) picking ∧ (picking.dispense .a).state = .picking ∧ (picking.dispense .a).stop = none ∧
      picking.path.pick.isSome ∧ Taken .cancel (fr .a []) (after [.frameSent .a] checkingStopped) :=
  taken_and (by decide +kernel)
    ⟨by decide +kernel, by decide +kernel, by decide +kernel, taken_of_check _ _ _ (by decide +kernel)⟩
theorem wit_CancelActsByState_picking_between :
    let s := { picking with path := { picking.path with pick := none } }
    Taken .cancel (fr .a []) s ∧ s.path.pick.isSome = false ∧ s.position.retractFull = false :=
  taken_and (by decide +kernel) ⟨by decide +kernel, by decide +kernel⟩
theorem wit_CancelActsByState_presenting :
    Taken .cancel (fr .a []) presenting ∧ (presenting.dispense .a).state = .presenting ∧ presenting.path.state = .ready ∧
      presenting.path.draw = none ∧ presenting.position.retractFull = false ∧
      Taken .cancel (fr .a []) { presenting with path := { presenting.path with state := .purging } } ∧
      Taken .cancel (fr .a []) retracting ∧ (retracting.dispense .a).state = .retracting :=
  taken_and (by decide +kernel)
    ⟨by decide +kernel, by decide +kernel, by decide +kernel, by decide +kernel, taken_of_check _ _ _ (by decide +kernel),
      taken_of_check _ _ _ (by decide +kernel), by decide +kernel⟩
/-- A present while the module is JAMMED (R86). -/
def presentingJammed : State := { presenting with path := { presenting.path with state := .jammed } }
theorem wit_CancelActsByState_jammed :
    Taken .cancel (fr .a []) presentingJammed ∧ presentingJammed.path.draw = none ∧ OtherAtRest .a presentingJammed ∧
      (after [.cancel (fr .a [])] presentingJammed).dispense .a = Dispense.idle ∧
      (after [.cancel (fr .a [])] presentingJammed).journal.reservations.map (fun r => r.jammed) = [true] :=
  taken_and (by decide +kernel) (by decide +kernel)
theorem wit_CancelActsByState_ending :
    let s := { presenting with dispenses := presenting.dispenses.set .a { presenting.dispense .a with ending := true } }
    Taken .cancel (fr .a []) s ∧ (s.dispense .a).ending = true :=
  taken_and (by decide +kernel) (by decide +kernel)

/-- The stop's draw is under way: OK; a stop is fixed and the pick is still in hand: ACCEPTED (R88, R89). -/
theorem wit_CancelActsByState_stopping :
    let s := after [.frameSent .a] stopTransit
    let x := after [.frameSent .a, .cancel (fr .a [])] checkingStopped
    Taken .cancel (fr .a []) s ∧ s.stopDraws .a = true ∧
      Taken .cancel (fr .a []) (after [.frameSent .a] checkingStopped) ∧ checkingStopped.stopDraws .a = false ∧
      (checkingStopped.dispense .a).stop = some .cancelled ∧ checkingStopped.path.pick.isSome ∧
      (x.answered .a).map (fun r => r.status) = some .accepted :=
  taken_and (by decide +kernel)
    ⟨by decide +kernel, taken_of_check _ _ _ (by decide +kernel), by decide +kernel, by decide +kernel, by decide +kernel,
      by decide +kernel⟩

/-- What the branches of DelayEndGoesOn share. -/
def delayOver (s : State) : Bool :=
  s.running && quietCheck s && (s.dispense .a).state == .delaying && !(s.dispense .a).ending && !(s.dispense .a).deferred &&
    delayReached s.clock.count (s.dispense .a).delayEnd
theorem wit_DelayEndGoesOn_halted : delayOver dueLocked = true ∧ dueLocked.restricted .dispenseHalt = true ∧ EndRoom 4 dueLocked := by
  decide +kernel
theorem wit_DelayEndGoesOn_queued : delayOver dueOwned = true ∧ dueOwned.claim.owner ≠ .none := by decide +kernel
theorem wit_DelayEndGoesOn_deferred :
    delayOver dueOther = true ∧ dueOther.claim.owner = .none ∧ dueOther.opInFlight Teller.a.other.port = true := by
  decide +kernel
theorem wit_DelayEndGoesOn_granted :
    delayOver due = true ∧ due.claim.owner = .none ∧ due.path.state = .ready ∧ due.auditRequired = false ∧
      (let d := due.dispense .a; requestMix .a d.amount d.cap d.preference d.target due = (.payable mixD, due)) ∧
      due.position.binsFull = false ∧ (due.dispense .a).preference.Perm Ix.all ∧ (due.dispense .a).delivered = Quad.zero := by
  decide +kernel
/-- The grant checks in the order of R78: each state fails the one its outcome code names (11.4). -/
theorem wit_DelayEndGoesOn_fails :
    [({ due with path := { due.path with state := .jammed } }, 14), ({ due with path := { due.path with state := .purging } }, 13),
      ({ due with position := { due.position with causes := { due.position.causes with gap := true } } }, 8),
      (withCassette .i2 (fun c => { c with intact := false }) due, 8), (withA (fun d => { d with amount := 100 }) due, 9),
      (withBin 200 due, 12)].all
      (fun x =>
        delayOver x.1 && decide (EndRoom 4 x.1) &&
          ((after [.delayEnd .a] x.1).journal.waitingDone.map (fun d => d.done.outcome) == [x.2])) = true := by
  decide +kernel
/-- One second before its end the delay has not ended. -/
theorem test_delay_not_reached_a_second_before : delayReached 59#32 60#32 = false ∧ delayReached 60#32 60#32 = true := by decide

theorem wit_PresentEndsTakenOrRetracted_expiry :
    presenting.running = true ∧ Quiet presenting ∧ presenting.presents .a = true ∧ presenting.path.state = .ready ∧
      presenting.path.draw = none ∧ presenting.position.retractFull = false :=
  ⟨by decide +kernel, quiet_of_check _ (by decide +kernel), by decide +kernel, by decide +kernel, by decide +kernel,
    by decide +kernel⟩
theorem wit_PresentEndsTakenOrRetracted_purging :
    let s := { presenting with path := { presenting.path with state := .purging } }
    s.running = true ∧ Quiet s ∧ s.presents .a = true :=
  ⟨by decide +kernel, quiet_of_check _ (by decide +kernel), by decide +kernel⟩
theorem wit_PresentEndsTakenOrRetracted_jammed :
    presentingJammed.running = true ∧ Quiet presentingJammed ∧ presentingJammed.presents .a = true ∧
      presentingJammed.path.draw = none ∧ OtherAtRest .a presentingJammed ∧
      (after [.presentTimerExpiry .a] presentingJammed).dispense .a = Dispense.idle ∧
      (after [.presentTimerExpiry .a] presentingJammed).position.pockets = presentingJammed.position.pockets :=
  ⟨by decide +kernel, quiet_of_check _ (by decide +kernel), by decide +kernel⟩
/-- The pocket holds what was presented, as a check. -/
def pocketHolds (w : Teller) (taken : Quad Nat) (s : State) : Bool :=
  Ix.all.all (fun k => decide (taken.get k ≤ (s.position.pockets.get w).get k))
theorem wit_PresentEndsTakenOrRetracted_taken :
    OtherAtRest .a presenting ∧ presenting.presents .a = true ∧ EndRoom 4 presenting ∧
      pocketHolds .a (presenting.dispense .a).presented presenting = true := by decide +kernel
/-- The state with drawer A's record changed. -/
def withDrawer (f : Account → Account) (s : State) : State :=
  { s with position := { s.position with drawerA := f s.position.drawerA } }
/-- A drawer too full for the value taken, and one whose check word fails, are left as they are, and the end carries UNBOOKED with the
280.00 (R9, R35). -/
theorem wit_PresentEndsTakenOrRetracted_unbooked :
    [withDrawer (fun a => { a with balance := 999999999 }) presenting, withDrawer (fun a => { a with intact := false }) presenting].all
      (fun s =>
        decide (EndRoom 4 s) && s.presents .a &&
          ((after [.pocketEmpty .a] s).journal.waitingDone.map (fun d => (d.done.outcome, d.done.unbooked, d.done.marks.unbooked)) ==
            [(1, 28000, true)]) &&
          (after [.pocketEmpty .a] s).position.drawerA == s.position.drawerA &&
          (after [.pocketEmpty .a] s).position.flows.taken == ⟨1, 5, 1, 0⟩ &&
          (after [.pocketEmpty .a] s).position.causes.integrity == !s.position.drawerA.intact) = true := by decide +kernel
/-- DISPENSE_END's detail has zero in the five bytes of M and the preference order (R91, R159, 11.4). -/
theorem test_dispense_end_detail :
    (after [.pocketEmpty .a] presenting).journal.staging.getLast?.map
      (fun r => (r.kind, r.detail.bytes.length, (r.detail.bytes.drop 20).take 5)) =
      some (.dispenseEnd, 27, [0#8, 0#8, 0#8, 0#8, 0#8]) := by decide +kernel

/-! ### The note path -/

/-- Running, with nothing waiting to be taken up. -/
def runs (s : State) : Bool := s.running && quietCheck s

theorem wit_PickMovesNotesToTransit :
    runs picking = true ∧ picking.path.pick = some ⟨.a, .i2, .i2, .commanded⟩ ∧
      (picking.position.cassettes.get .i2).intact = true := by decide +kernel
/-- The word of the cassette picked fails at the booking: the notes are booked, the word is rewritten, and picking is to stop (R9, R83). -/
theorem wit_PickMovesNotesToTransit_word :
    let s := withCassette .i2 (fun c => { c with intact := false }) picking
    let t := after [.pickEvent .m1] s
    runs s = true ∧ s.path.pick = some ⟨.a, .i2, .i2, .commanded⟩ ∧ (t.dispense .a).stop = some .audit ∧
      t.position.integrityFault.map (fun x => x.which) = some (.cassette .i2) ∧ t.position.causes.integrity = true ∧
      (t.position.cassettes.get .i2).intact = true ∧ t.position.transit = Quad.plus s.position.transit .i2 1 := by decide +kernel
/-- A pick of two from a cassette that shows one: one note is a surplus. -/
theorem test_pick_beyond_count :
    let c := { picking.position.cassettes.get .i2 with counts := ⟨0, 1, 0, 0⟩ }
    let s := { picking with position := { picking.position with cassettes := picking.position.cassettes.set .i2 c } }
    (after [.pickEvent .m2] s).position.discrepancy = ⟨0, -1, 0, 0⟩ := by decide +kernel

theorem wit_EmptyPicksFailCassette_first :
    runs picking = true ∧ picking.path.pick = some ⟨.a, .i2, .i2, .commanded⟩ ∧ picking.cassetteLost .i2 = false ∧
      (picking.dispense .a).misses.get .i2 + 1 < Config.pickFailures ∧ (picking.dispense .a).stop = none ∧
      (picking.dispense .a).nextCassette = some .i2 ∧ (picking.dispense .a).diverted < Config.rejectLimit ∧
      picking.commandPick .i2 = .started .i2 := by decide +kernel
theorem wit_EmptyPicksFailCassette_third :
    let s := { picking with dispenses := picking.dispenses.set .a { picking.dispense .a with misses := ⟨0, 2, 0, 0⟩ } }
    runs s = true ∧ s.path.pick = some ⟨.a, .i2, .i2, .commanded⟩ ∧ s.cassetteLost .i2 = false ∧
      (s.dispense .a).misses.get .i2 + 1 = Config.pickFailures ∧
      Ix.all.all (fun j => (s.position.cassettes.get j).intact) = true := by decide +kernel

/-- After the third empty pick in a row five notes of D2 are lost to the mix: the re-mix pays otherwise, or picking stops short, ending with
an empty pocket or presenting what it holds; a check word that fails stops it AUDIT, and MODULE_LOCK LOCKED. -/
def thirdMiss : State := withA (fun d => { d with misses := ⟨0, 2, 0, 0⟩ }) picking
/-- C1 and C3 hold two notes each. -/
def fewNotes (s : State) : State :=
  withCassette .i1 (fun c => { c with counts := ⟨2, 0, 0, 0⟩ }) (withCassette .i3 (fun c => { c with counts := ⟨0, 0, 2, 0⟩ }) s)
theorem wit_EmptyPicksFailCassette_goes_on :
    [thirdMiss, fewNotes thirdMiss, fewNotes (withA (fun d => { d with delivered := ⟨0, 2, 0, 0⟩ }) thirdMiss),
      withCassette .i1 (fun c => { c with intact := false }) thirdMiss, lockedBy thirdMiss].all
      (fun s =>
        runs s && s.path.pick == some ⟨.a, .i2, .i2, .commanded⟩ && !s.cassetteLost .i2 &&
          (s.dispense .a).misses.get .i2 + 1 == 3 && (s.position.cassettes.get .i2).intact && decide (EndRoom 4 s) &&
          decide (OtherAtRest .a s)) = true ∧
      (after [.pickEvent .m0] thirdMiss).path.pick = some ⟨.a, .i1, .i1, .commanded⟩ ∧
      (after [.pickEvent .m0] (fewNotes thirdMiss)).journal.waitingDone.map (fun d => (d.done.outcome, d.done.unpaid)) =
        [(3, 28000)] := by decide +kernel
/-- The cassette has been taken out during the pick: the miss is not counted, and its notes are re-mixed over (R61). -/
theorem wit_EmptyPicksFailCassette_lost :
    let s := withCassette .i2 (fun c => { c with counts := Quad.zero, state := .absent }) picking
    runs s = true ∧ s.path.pick = some ⟨.a, .i2, .i2, .commanded⟩ ∧ s.cassetteLost .i2 = true ∧
      ((after [.pickEvent .m0] s).dispense .a).misses = Quad.zero ∧
      (after [.pickEvent .m0] s).path.pick = some ⟨.a, .i1, .i1, .commanded⟩ := by decide +kernel

theorem wit_NoteCheckRoutesNote_more :
    runs checkingTwo = true ∧ checkingTwo.path.pick = some ⟨.a, .i2, .i2, .checking .m2 2⟩ ∧
      0 < checkingTwo.position.transit.get .i2 := by decide +kernel
theorem wit_NoteCheckRoutesNote_last :
    runs checkingLast = true ∧ checkingLast.path.pick = some ⟨.a, .i2, .i2, .checking .m1 1⟩ ∧
      0 < checkingLast.position.transit.get .i2 ∧
      (let after := { checkingLast.dispense .a with delivered := ⟨1, 5, 1, 0⟩ }
       after.stop = none ∧ after.nextCassette = none) := by decide +kernel
theorem wit_NoteCheckRoutesNote_next :
    runs checking = true ∧ checking.path.pick = some ⟨.a, .i2, .i2, .checking .m1 1⟩ ∧
      (let after := { checking.dispense .a with delivered := ⟨0, 1, 0, 0⟩ }
       after.stop = none ∧ after.nextCassette = some .i2 ∧ after.diverted < Config.rejectLimit) ∧
      checking.commandPick .i2 = .started .i2 := by decide +kernel
theorem wit_NoteCheckRoutesNote_stopped :
    runs checkingStopped = true ∧ checkingStopped.path.pick = some ⟨.a, .i2, .i2, .checking .m1 1⟩ ∧
      (checkingStopped.dispense .a).stop = some .cancelled ∧ checkingStopped.position.retractFull = false := by
  decide +kernel

/-- The tenth diverted note stops picking short, with an empty pocket or a note in it; the last note of the cassette is gone, and the
re-mix pays or does not (R80 to R82). -/
theorem wit_NoteCheckRoutesNote_short :
    let limit := withA (fun d => { d with diverted := 9 }) checking
    let empty := withCassette .i2 (fun c => { c with counts := Quad.zero }) checking
    let bare := withCassette .i3 (fun c => { c with counts := Quad.zero }) (withCassette .i1 (fun c => { c with counts := Quad.zero }) empty)
    [limit, withA (fun d => { d with delivered := ⟨0, 1, 0, 0⟩ }) limit, empty, bare].all
      (fun s =>
        runs s && s.path.pick == some ⟨.a, .i2, .i2, .checking .m1 1⟩ && decide (0 < s.position.transit.get .i2) &&
          decide (EndRoom 4 s) && decide (OtherAtRest .a s)) = true ∧
      (after [.noteCheck .long] limit).journal.waitingDone.map (fun d => (d.done.outcome, d.done.marks.short)) = [(3, true)] ∧
      (after [.noteCheck .good] empty).path.pick = some ⟨.a, .i1, .i1, .commanded⟩ ∧
      ((after [.noteCheck .good] bare).dispense .a).state = .presenting := by decide +kernel

/-- Notes of both windows on their way, and one of a purge. -/
def timed : State :=
  { picking with
    path :=
      { picking.path with
        timers :=
          [⟨.dispense .b, .path, true⟩, ⟨.dispense .a, .way 3, true⟩, ⟨.dispense .a, .way 3, false⟩,
            ⟨.dispense .a, .picker .i1, false⟩, ⟨.purge, .transit, false⟩] } }
theorem wit_NotesAreTimed_arrivals :
    runs timed = true ∧
      timed.path.timers =
        [⟨.dispense .b, .path, true⟩] ++ ⟨.dispense .a, .way 3, true⟩ ::
          [⟨.dispense .a, .way 3, false⟩, ⟨.dispense .a, .picker .i1, false⟩, ⟨.purge, .transit, false⟩] ∧
      timed.path.timers = [] ++ ⟨.dispense .b, .path, true⟩ :: timed.path.timers.drop 1 ∧
      (after [.noteSensorArrival ⟨.way 3, .pocket .a⟩] timed).path.timers.length = 4 ∧
      (after [.noteSensorArrival ⟨.way 3, .rejectBin⟩] timed).path.timers.head? = some ⟨.dispense .b, .path, true⟩ ∧
      timed.path.timers.all (fun n => n.lastSeen != .path || n.owner == .dispense .b) = true ∧
      timed.path.timers.all (fun n => n.lastSeen != .pocket .a) = true := by decide +kernel
/-- With notes at two points, the report moves the note it names, and the other's jam is still seen (R62). -/
theorem test_arrival_moves_the_note_named :
    let t := after [.noteSensorArrival ⟨.way 3, .way 4⟩] timed
    t.path.timers =
        [⟨.dispense .b, .path, true⟩, ⟨.dispense .a, .way 4, true⟩, ⟨.dispense .a, .way 3, false⟩,
          ⟨.dispense .a, .picker .i1, false⟩, ⟨.purge, .transit, false⟩] ∧
      (after [.noteJam (.picker .i1)] t).path.state = .jammed := by decide +kernel
theorem wit_NotesAreTimed_jam :
    runs timed = true ∧
      timed.path.timers.find? (fun n => n.lastSeen == .picker .i1) = some ⟨.dispense .a, .picker .i1, false⟩ ∧
      OtherAtRest .a timed ∧ timed.path.timers.all (fun n => n.lastSeen != .rejectBin) = true := by decide +kernel

/-- A drawn note leaves its source: the next is timed from there (R62). -/
theorem wit_NotesAreTimed_draw :
    runs retracting = true ∧ retracting.path.timers = [] ++ ⟨.dispense .a, .pocket .a, false⟩ :: [] ∧
      retracting.path.draw = some ⟨.pocket .a, .retract .a, ⟨1, 5, 1, 0⟩, Quad.zero⟩ ∧
      (after [.noteSensorArrival ⟨.pocket .a, .way 3⟩] retracting).path.timers =
        [⟨.dispense .a, .way 3, false⟩, ⟨.dispense .a, .pocket .a, false⟩] := by decide +kernel
/-- A jam in the purge closes the two operations that ended JAMMED and leaves the one in flight. -/
theorem wit_NotesAreTimed_purge :
    runs purgeCloses = true ∧
      purgeCloses.path.timers.find? (fun n => n.lastSeen == .transit) = some ⟨.purge, .transit, false⟩ ∧
      purgeCloses.path.purge = some closing ∧ PurgeRoom closing 3 purgeCloses ∧ OtherAtRest .a purgeCloses ∧
      OtherAtRest .b purgeCloses ∧
      (after [.noteJam .transit] purgeCloses).journal.waitingDone.map (fun d => (d.done.outcome, d.done.unpaid, d.done.value)) =
        [(14, 700, 0), (3, 0, 1000)] ∧
      (after [.noteJam .transit] purgeCloses).position.drawerA = ⟨11345, 7, true⟩ :=
  ⟨by decide +kernel, by decide +kernel, by decide +kernel, closing_room closing rfl 1, by decide +kernel,
    by decide +kernel, by decide +kernel, by decide +kernel⟩
/-- The jam of a purge lets window A's waiting retract end JAMMED, and window B's deferred checks, made when that has ended, end its
dispense JAMMED in the same step (R77, R83, R90). -/
theorem test_deferred_checks_follow_retract :
    let s :=
      { purgeCloses with
        dispenses :=
          ⟨{ presenting.dispense .a with state := .retracting, shutterOpen := false, presentTimer := none },
            { delaying.dispense .a with state := .queued, deferred := true, startSequence := 9 }⟩
        claim := ⟨.portB, [], none⟩ }
    let t := after [.noteJam .transit] s
    quietCheck s = true ∧ t.path.state = .jammed ∧ t.dispense .a = Dispense.idle ∧ t.dispense .b = Dispense.idle := by
  decide +kernel

theorem wit_DrawnNoteIsBooked :
    runs retracting = true ∧ retracting.path.draw = some ⟨.pocket .a, .retract .a, ⟨1, 5, 1, 0⟩, Quad.zero⟩ ∧
      retracting.position.retract.total + 1 < Config.retractNotes ∧
      0 < (retracting.position.stored (.pocket .a)).get .i3 ∧
      Ix.all.all (fun y => y == .i3 || decide (retracting.settings.denominations.get .i3 < retracting.settings.denominations.get y) ||
        y == .i4) = true := by decide +kernel
/-- With 199 notes in the RETRACT BIN the next is booked and fills it; with 200 the next is not booked. Both stop the draw, JAMMED. -/
theorem wit_DrawnNoteIsBooked_full :
    [withBin 199 retracting, withBin 200 retracting].all
      (fun s =>
        runs s && s.path.draw == some ⟨.pocket .a, .retract .a, ⟨1, 5, 1, 0⟩, Quad.zero⟩ && decide (OtherAtRest .a s) &&
          decide (0 < (s.position.stored (.pocket .a)).get .i2) &&
          (after [.retractNoteCounted (some .i2)] s).path.state == .jammed &&
          (after [.retractNoteCounted (some .i2)] s).position.retract == ⟨0, 200, 0, 0⟩) = true := by decide +kernel
/-- The same in a purge: it ends BIN_FULL, and the record counts the note booked. -/
theorem wit_DrawnNoteIsBooked_purge :
    [(withBin 199 purgeCloses, (⟨0, 0, 1, 0⟩ : Quad Nat)), (withBin 200 purgeCloses, Quad.zero)].all
      (fun x =>
        runs x.1 && x.1.path.draw == some ⟨.transit, .purge, ⟨0, 0, 2, 0⟩, Quad.zero⟩ && x.1.path.purge == some closing &&
          decide (OtherAtRest .a x.1) && decide (OtherAtRest .b x.1) && decide (0 < x.1.position.transit.get .i3) &&
          ((after [.retractNoteCounted (some .i3)] x.1).journal.staging.getLast?.map (fun r => (r.outcome, r.counts)) ==
            some (4, x.2.toInt))) = true ∧
      PurgeRoom closing 3 (withBin 199 purgeCloses) ∧
      PurgeRoom closing 3 (withBin 200 purgeCloses) :=
  ⟨by decide +kernel, closing_room _ rfl _, closing_room _ rfl _⟩
/-- The debit of the commit that a purge closes meets a failing check word: it is UNBOOKED in the PURGE record and in OP_DONE, and
INTEGRITY is a cause (R9, R35, R65, R114). -/
theorem wit_EmptySourceEndsDraw_unbooked :
    let s := withDrawer (fun a => { a with intact := false }) purgeCloses
    let t := after [.drawSourceEmpty] s
    runs s = true ∧ s.path.purge = some closing ∧ t.position.causes.integrity = true ∧ t.position.drawerA = s.position.drawerA ∧
      t.journal.staging.getLast?.map (fun r => (r.outcome, r.marks.unbooked)) = some (2, true) ∧
      t.journal.waitingDone.map (fun d => (d.done.kind, d.done.unbooked)) = [(.dispense, 0), (.commit, 1000)] := by decide +kernel
/-- A note of a denomination with none uncounted is a surplus. -/
theorem test_drawn_surplus :
    (after [.retractNoteCounted (some .i4)] retracting).position.discrepancy = ⟨0, 0, 0, -1⟩ := by decide +kernel

theorem wit_EmptySourceEndsDraw_retract :
    runs retracting = true ∧ OtherAtRest .a retracting ∧ EndRoom 4 retracting ∧
      pocketHolds .a ⟨1, 5, 1, 0⟩ retracting = true := by decide +kernel
theorem wit_EmptySourceEndsDraw_stop :
    runs stopTransit = true ∧ stopTransit.path.draw = some ⟨.transit, .stop .a .cancelled, Quad.zero, Quad.zero⟩ ∧
      stopTransit.position.retractFull = false := by decide +kernel
theorem wit_EmptySourceEndsDraw_stop_end :
    runs stopPocket = true ∧ stopPocket.path.draw = some ⟨.pocket .a, .stop .a .cancelled, Quad.zero, Quad.zero⟩ ∧
      OtherAtRest .a stopPocket ∧ EndRoom 4 stopPocket := by decide +kernel
theorem wit_EmptySourceEndsDraw_purge :
    runs purgeLast = true ∧ purgeLast.path.purge = some ⟨false, [], ⟨0, 0, 2, 0⟩, false, none⟩ ∧
      purgeLast.journal.reservations.any (Purge.closes ⟨false, [], ⟨0, 0, 2, 0⟩, false, none⟩) = false ∧
      purgeLast.journal.eventRoom = true ∧ purgeLast.journal.next = some 3 ∧ OtherAtRest .a purgeLast ∧
      OtherAtRest .b purgeLast := by decide +kernel

/-- Two notes of TRANSIT were not found: the purge goes on to pocket B, which holds a note, and past pocket A, which is empty; with both
empty it ends SHORT and closes the two operations that had ended JAMMED (R65). -/
theorem wit_EmptySourceEndsDraw_next :
    let s := { purgeCloses with position := { purgeCloses.position with pockets := ⟨Quad.zero, ⟨0, 0, 1, 0⟩⟩ } }
    runs s = true ∧ closing.rest = [.pocket .a] ++ .pocket .b :: [] ∧ (s.position.pockets.get .a).total = 0 ∧
      (s.dispense .b).state = .idle ∧ s.position.retractFull = false ∧
      (after [.drawSourceEmpty] s).path.draw = some ⟨.pocket .b, .purge, ⟨0, 0, 1, 0⟩, Quad.zero⟩ := by decide +kernel
theorem wit_EmptySourceEndsDraw_closes :
    runs purgeCloses = true ∧ purgeCloses.path.purge = some closing ∧ PurgeRoom closing 3 purgeCloses ∧
      purgeCloses.position.pockets = ⟨Quad.zero, Quad.zero⟩ ∧
      (after [.drawSourceEmpty] purgeCloses).journal.staging.getLast?.map (fun r => (r.outcome, r.extra)) = some (2, 2) ∧
      (after [.drawSourceEmpty] purgeCloses).journal.reservations =
        [{ port := .s, kind := .return_, startSequence := 0, jammed := false }] :=
  ⟨by decide +kernel, by decide +kernel, closing_room closing rfl 1, by decide +kernel, by decide +kernel, by decide +kernel⟩

theorem wit_JamClearStartsClearing_module :
    Taken .jamClear (fr .s [1#8]) jammedModule ∧ jammedModule.path.state = .jammed ∧
      jammedModule.position.retractFull = false ∧ Taken .jamClear (fr .s [1#8]) stocked ∧
      Taken .jamClear (fr .s [1#8]) purgingModule ∧ purgingModule.path.state = .purging ∧
      Taken .jamClear (fr .s [3#8]) stocked :=
  taken_and (by decide +kernel)
    ⟨by decide +kernel, by decide +kernel, taken_of_check _ _ _ (by decide +kernel), taken_of_check _ _ _ (by decide +kernel),
      by decide +kernel, taken_of_check _ _ _ (by decide +kernel)⟩
theorem wit_JamClearStartsClearing_slot :
    let s := { stocked with depository := { stocked.depository with slot := .jammed } }
    Taken .jamClear (fr .s [2#8]) s ∧ s.depository.clearing = none ∧
      Taken .jamClear (fr .s [2#8]) (after [.jamClearSlot (fr .s [2#8]), .frameSent .s] s) ∧
      Taken .jamClear (fr .s [2#8]) stocked :=
  taken_and (by decide +kernel)
    ⟨by decide +kernel, taken_of_check _ _ _ (by decide +kernel), taken_of_check _ _ _ (by decide +kernel)⟩

/-! ### Custody -/

theorem wit_PostBooksAccount :
    Taken .post (fr .a [2#8, 0#8, 1#8, 0x23#8, 0x45#8]) stocked ∧ stocked.auditRequired = false ∧
      (stocked.position.account .drawerA).intact = true ∧ RoomFor 1 1 stocked ∧ stocked.journal.next = some 3 :=
  taken_and (by decide +kernel) (by decide +kernel)
/-- 123.45 out of a drawer that holds 123.45: the balance is zero (R14). -/
theorem test_post_out_to_zero :
    (after [.post (fr .a [2#8, 0#8, 1#8, 0x23#8, 0x45#8])] stocked).position.drawerA = ⟨0, 7, true⟩ := by decide +kernel
/-- A coin of 7 cents paid out of 7 due, and 8 refused (R14). -/
theorem test_post_coin :
    (after [.post (fr .a [3#8, 0#8, 0#8, 0#8, 7#8])] stocked).position.drawerA = ⟨12338, 0, true⟩ ∧
      (after [.post (fr .a [3#8, 0#8, 0#8, 0#8, 8#8])] stocked).position = stocked.position := by
  constructor <;> decide +kernel
theorem wit_PostBooksAccount_refused :
    Taken .post (fr .a [1#8, 0#8, 0#8, 0#8, 0#8]) stocked ∧ Taken .post (fr .a [1#8, 0#8, 0#8, 0#8, 0x0F#8]) stocked ∧
      Taken .post (fr .a [1#8, 0x99#8, 0x99#8, 0x99#8, 0x99#8]) stocked ∧
      stocked.settings.postingLimit < 99999999 ∧ Approved .post (fr .a []) stocked = false :=
  taken_and (by decide +kernel)
    ⟨taken_of_check _ _ _ (by decide +kernel), taken_of_check _ _ _ (by decide +kernel), by decide +kernel,
      by decide +kernel⟩

/-- Drawer A fails its check word: POST is refused AUDIT before its kind is looked at, and HANDOVER from it too (R9, R14, R17). -/
theorem wit_PostBooksAccount_faulted :
    let s := withDrawer (fun a => { a with intact := false }) stocked
    let f := fr .a [9#8, 0#8, 1#8, 0x23#8, 0x45#8]
    let g := fr .s [2#8, 1#8, 2#8, 0#8, 0#8, 0#8, 0#8]
    Taken .post f s ∧ Taken .handover g s ∧ s.auditRequired = false ∧
      ((after [.post f] s).answered .a).map (fun r => r.reason) = some (some .audit) ∧
      ((after [.handover g] s).answered .s).map (fun r => r.reason) = some (some .audit) ∧
      (after [.handover g] s).position.integrityFault = some ⟨.account .drawerA, s.clock.count⟩ :=
  taken_and (by decide +kernel) ⟨taken_of_check _ _ _ (by decide +kernel), by decide +kernel⟩
/-- An account code that names none is refused RANGE, in AUDIT_REQUIRED as well (R202). -/
theorem wit_HandoverMovesBalances_no_account :
    let s := { stocked with position := { stocked.position with causes := { stocked.position.causes with gap := true } } }
    let f := fr .s [4#8, 1#8, 2#8, 0#8, 0#8, 0#8, 0#8]
    Taken .handover f s ∧ accountOf (byteField f.operands 0) = none ∧
      ((after [.handover f] s).answered .s).map (fun r => r.reason) = some (some .range) :=
  taken_and (by decide +kernel) (by decide +kernel)

theorem wit_HandoverMovesBalances :
    let f := fr .s [1#8, 3#8, 3#8, 0#8, 0#8, 0x23#8, 0x45#8]
    Taken .handover f stocked ∧ accountOf (byteField f.operands 0) = some .drawerA ∧
      accountOf (byteField f.operands 1) = some .branchCash ∧ stocked.auditRequired = false ∧
      (stocked.position.account .drawerA).intact = true ∧ (stocked.position.account .branchCash).intact = true ∧
      RoomFor 1 1 stocked ∧ stocked.journal.next = some 3 ∧
      balanceInRange ((stocked.position.account .drawerA).balance - 2345) = true :=
  taken_and (by decide +kernel) (by decide +kernel)
theorem wit_HandoverMovesBalances_options :
    Taken .handover (fr .s [1#8, 2#8, 1#8, 0#8, 0#8, 0#8, 0#8]) stocked ∧
      Taken .handover (fr .s [1#8, 2#8, 2#8, 0#8, 0#8, 0#8, 0#8]) stocked ∧
      Taken .handover (fr .s [1#8, 1#8, 1#8, 0#8, 0#8, 0#8, 0#8]) stocked ∧
      Taken .handover (fr .s [1#8, 2#8, 4#8, 0#8, 0#8, 0#8, 0#8]) stocked :=
  ⟨taken_of_check _ _ _ (by decide +kernel), taken_of_check _ _ _ (by decide +kernel),
    taken_of_check _ _ _ (by decide +kernel), taken_of_check _ _ _ (by decide +kernel)⟩

/-- C3 stands uncounted under port S's claim. -/
def uncounted : State :=
  { ownedS with
    position :=
      { ownedS.position with
        cassettes := ownedS.position.cassettes.set .i3 (Cassette.cold .recycle (some .i3) .uncounted) } }
/-- LOAD of forty notes of D3 into C3. -/
def loadC3 : Frame := fr .s [3#8, 0#8, 0#8, 0#8, 0#8, 0#8, 40#8, 0#8, 0#8]
theorem wit_LoadAndUnloadBookNotes_load :
    Taken .load loadC3 uncounted ∧ ixOf (byteField loadC3.operands 0) = some .i3 ∧
      (uncounted.position.cassettes.get .i3).intact = true ∧ uncounted.claim.owner.ownedBy .s = true ∧
      uncounted.otherOpInFlight .s = false ∧ (uncounted.position.cassettes.get .i3).state = .uncounted ∧
      uncounted.position.marginsExceeded = false ∧ RoomFor 1 1 uncounted ∧ uncounted.journal.next = some 3 :=
  taken_and (by decide +kernel) (by decide +kernel)
theorem test_load_derives_low :
    (after [.load loadC3] uncounted).position.cassettes.c3.state = .low ∧
      (after [.load loadC3] uncounted).position.flows.loaded = ⟨0, 0, 40, 0⟩ := by constructor <;> decide +kernel
theorem wit_LoadAndUnloadBookNotes_unload :
    Taken .unload (fr .s [3#8]) ownedS ∧ (ownedS.position.cassettes.get .i3).intact = true ∧
      ownedS.anyOpInFlight = false ∧ (ownedS.position.cassettes.get .i3).state = .loaded :=
  taken_and (by decide +kernel) (by decide +kernel)
/-- C3 has been released, and taken out. -/
def released : State := after [.unload (fr .s [3#8]), .frameSent .s] ownedS
def gone : State := after [.cassetteRemoval .i3] released
theorem wit_LoadAndUnloadBookNotes_unload_other :
    Taken .unload (fr .s [3#8]) released ∧ (released.position.cassettes.get .i3).state = .released ∧
      Taken .unload (fr .s [3#8]) gone ∧ (gone.position.cassettes.get .i3).state = .absent ∧
      Taken .unload (fr .s [3#8]) stocked :=
  taken_and (by decide +kernel)
    ⟨by decide +kernel, taken_of_check _ _ _ (by decide +kernel), by decide +kernel, taken_of_check _ _ _ (by decide +kernel)⟩
theorem wit_LoadAndUnloadBookNotes_bins :
    Taken .unload (fr .s [5#8]) ownedS ∧ unloadPlaceOf 5 = some .reject ∧ unloadPlaceOf 6 = some .retract ∧
      unloadPlaceOf 7 = some .suspect ∧ RoomFor 1 1 ownedS ∧ ownedS.position.marginsExceeded = false :=
  taken_and (by decide +kernel) (by decide +kernel)
theorem wit_LoadAndUnloadBookNotes_range :
    Taken .load (fr .s (5#8 :: loadC3.operands.drop 1)) uncounted ∧ Taken .unload (fr .s [0#8]) ownedS ∧
      Taken .unload (fr .s [8#8]) ownedS :=
  taken_and (by decide +kernel) ⟨taken_of_check _ _ _ (by decide +kernel), taken_of_check _ _ _ (by decide +kernel)⟩
theorem test_unload_reject_bin :
    (after [.unloadBin (fr .s [5#8])] ownedS).position.reject = Quad.zero ∧
      (after [.unloadBin (fr .s [5#8])] ownedS).position.flows.unloaded = ⟨1, 0, 2, 0⟩ := by constructor <;> decide +kernel

/-- The items of a full RECONCILE of the stocked part. -/
def reconcileItems : List Byte :=
  [1#8, 0#8, 60#8, 0#8, 0#8, 0#8, 0#8, 0#8, 0#8] ++ [2#8, 0#8, 0#8, 0#8, 12#8, 0#8, 0#8, 0#8, 0#8] ++
    [3#8, 0#8, 0#8, 0#8, 0#8, 0#8, 79#8, 0#8, 0#8] ++ [4#8, 0#8, 1#8, 0#8, 2#8, 0#8, 3#8, 0#8, 4#8] ++
    [0#8, 1#8, 0#8, 0#8, 0#8, 2#8, 0#8, 0#8] ++ [0#8, 0#8, 0#8, 1#8, 0#8, 0#8, 0#8, 0#8] ++ [0#8]
theorem wit_ReconcileOpensPeriod :
    Taken .reconcile (fr .s reconcileItems) ownedS ∧ ownedS.escrow.stack = [] ∧ ownedS.anyOpInFlight = false ∧
      (ownedS.dispense .a).state = .idle ∧ (ownedS.dispense .b).state = .idle ∧ ownedS.path.state = .ready ∧
      ownedS.itemsComplete (countedOf reconcileItems) = true ∧ ownedS.countedInRange (countedOf reconcileItems) = true ∧
      RoomFor 8 8 ownedS ∧ ownedS.journal.next = some 3 :=
  taken_and (by decide +kernel) (by decide +kernel)
/-- One note of D3 fewer than booked is a discrepancy of one in the reply and then the opening of the new period (R25). -/
theorem test_reconcile_opening :
    (after [.reconcile (fr .s reconcileItems)] ownedS).position.flows.opening = ⟨62, 15, 84, 4⟩ ∧
      (after [.reconcile (fr .s reconcileItems)] ownedS).position.discrepancy = ⟨0, 0, 0, 0⟩ := by
  constructor <;> decide +kernel
/-- The places' records and the closing one: one note of D3, 10.00, was missing in C3 (R25, R203). -/
theorem test_reconcile_records :
    ((after [.reconcile (fr .s reconcileItems)] ownedS).journal.staging.drop ownedS.journal.staging.length).map
        (fun r => (r.extra, r.counts.c3, r.amount)) =
      [(1, 0, 0), (2, 0, 0), (3, 1, 1000), (4, 0, 0), (5, 0, 0), (6, 0, 0), (7, 0, 0), (0, 1, 1000)] := by decide +kernel
theorem wit_ReconcileOpensPeriod_refused :
    Taken .reconcile (fr .s reconcileItems) stocked ∧ stocked.claim.owner.ownedBy .s = false ∧
      Taken .reconcile (fr .s (reconcileItems.drop 9)) ownedS ∧
      ownedS.itemsComplete (countedOf (reconcileItems.drop 9)) = false :=
  taken_and (by decide +kernel) ⟨by decide +kernel, taken_of_check _ _ _ (by decide +kernel), by decide +kernel⟩

/-- A check word fails as the items of a refused RECONCILE are read: the refusal keeps its reason, and the fault is recorded (R9). -/
theorem wit_ReconcileOpensPeriod_faulted :
    let s := withCassette .i1 (fun c => { c with intact := false }) ownedS
    let f := fr .s (reconcileItems.drop 9)
    Taken .reconcile f s ∧ s.claim.owner.ownedBy .s = true ∧ s.itemsComplete (countedOf f.operands) = false ∧
      ((after [.reconcile f] s).answered .s).map (fun r => r.reason) = some (some .length) ∧
      (after [.reconcile f] s).position.causes.integrity = true :=
  taken_and (by decide +kernel) ⟨by decide +kernel, by decide +kernel, by decide +kernel, by decide +kernel⟩

theorem wit_CassetteSensorsBookNotes_released :
    runs released = true ∧ (released.position.cassettes.get .i3).intact = true ∧
      released.pins.cassettePresent.get .i3 = true ∧ (released.position.cassettes.get .i3).state = .released ∧
      released.journal.eventRoom = true ∧ released.journal.next = some 3 := by decide +kernel
theorem wit_CassetteSensorsBookNotes_unreleased :
    runs stocked = true ∧ stocked.pins.cassettePresent.get .i1 = true ∧
      (stocked.position.cassettes.get .i1).state = .loaded ∧ stocked.alarm.eligible 3 = true ∧
      (stocked.zone 3).config.type = .tamper ∧ (stocked.zone 3).inputActive = false ∧ (stocked.zone 3).state = .quiet ∧
      stocked.claim = ⟨.none, [], none⟩ ∧ stocked.escrow.op = none ∧ AlarmDerived stocked :=
  ⟨by decide +kernel, by decide +kernel, by decide +kernel, by decide +kernel, by decide +kernel, by decide +kernel,
    by decide +kernel, by decide +kernel, by decide +kernel, by unfold AlarmDerived; decide +kernel⟩
/-- The notes go to DISCREPANCY with the cause, and the REMOVAL record is followed by the ALARM record of zone 3 (R22, R142). -/
theorem test_removal_without_release :
    let t := after [.cassetteRemoval .i1] stocked
    t.position.discrepancy = ⟨60, 0, 0, 0⟩ ∧ t.position.causes.unauthorisedRemoval = true ∧
      (t.journal.staging.drop stocked.journal.staging.length).map (fun r => r.kind) = [.removal, .alarm] ∧
      (t.zone 3).state = .pendingRestored := by decide +kernel
theorem wit_CassetteSensorsBookNotes_inserted :
    runs gone = true ∧ gone.pins.cassettePresent.get .i3 = false ∧ (gone.position.cassettes.get .i3).state = .absent := by
  decide +kernel

/-! ### The escrow -/

/-- Window A's record is open in purpose DRAWER with 60.00 declared. -/
def opened : State := after [.depositOpen (fr .a [2#8, 0#8, 0#8, 0x60#8, 0#8]), .frameSent .a] owned
def inserting : State := after [.insertNotes (fr .a []), .frameSent .a] opened
def validating : State := after [.feedTake] inserting
def toDrum : State := after [.insertVerdict (.genuineUnfit .i1)] validating
def toCompartment : State := after [.insertVerdict .suspect] validating
def toPocket : State := after [.insertVerdict .unreadable] validating
/-- Two bundles in the stack: 60.00 fit, five notes, one of them unfit. -/
def stacked : State :=
  { opened with
    escrow :=
      { opened.escrow with
        declared := some 6500, verdict := .match_
        stack :=
          [⟨⟨1, 0, 0, 0⟩, ⟨0, 0, 1, 0⟩, 0, 0, false, false⟩, ⟨⟨1, 0, 1, 1⟩, Quad.zero, 0, 0, false, false⟩] } }
def returning : State := after [.returnAll (fr .a []), .frameSent .a] stacked
def returningOut : State := after [.drumExit] returning
def committing : State := after [.commit (fr .a []), .frameSent .a] stacked
def committingOut : State := after [.drumExit] committing
/-- The last note of the stack is on its way. -/
def committingLast : State := { committingOut with escrow := { committingOut.escrow with stack := [] } }
/-- MODULE_LOCK stands while a note is on its way. -/
def committingLocked : State := { committingOut with alarm := { committingOut.alarm with restriction := 0b010000#6 } }

theorem wit_EscrowRecordRequests_open :
    Taken .depositOpen (fr .a [2#8, 0#8, 0#8, 0x60#8, 0#8]) owned ∧ owned.ownRefusal .a = none ∧ owned.escrow.stack = [] ∧
      Taken .depositOpen (fr .a [1#8]) owned ∧ Taken .depositOpen (fr .a [3#8]) owned ∧
      Taken .depositOpen (fr .a [1#8, 0#8, 0#8, 0#8, 0x0A#8]) owned ∧ Taken .depositOpen (fr .b [1#8]) owned :=
  taken_and (by decide +kernel)
    ⟨by decide +kernel, by decide +kernel, taken_of_check _ _ _ (by decide +kernel), taken_of_check _ _ _ (by decide +kernel),
      taken_of_check _ _ _ (by decide +kernel), taken_of_check _ _ _ (by decide +kernel)⟩
theorem wit_EscrowRecordRequests_close :
    Taken .depositClose (fr .a []) opened ∧ opened.openRefusal .a = none ∧ opened.escrow.stack = [] ∧
      Taken .depositClose (fr .a []) stacked ∧ Taken .depositClose (fr .a []) owned ∧ owned.openRefusal .a = some .notOpen :=
  taken_and (by decide +kernel)
    ⟨by decide +kernel, by decide +kernel, taken_of_check _ _ _ (by decide +kernel), taken_of_check _ _ _ (by decide +kernel),
      by decide +kernel⟩
theorem wit_EscrowRecordRequests_compare :
    Taken .compareEscrow (fr .a []) stacked ∧ stacked.openRefusal .a = none ∧ stacked.escrow.declared = some 6500 ∧
      Taken .compareEscrow (fr .a [0#8, 0#8, 0x64#8, 0x99#8]) stacked :=
  taken_and (by decide +kernel) ⟨by decide +kernel, by decide +kernel, taken_of_check _ _ _ (by decide +kernel)⟩
/-- 64.99 is one cent less than the value in the stack: OVER (R110). -/
theorem test_compare_over :
    (after [.compareEscrow (fr .a [0#8, 0#8, 0x64#8, 0x99#8])] stacked).escrow.verdict = .over := by decide +kernel

/-- STATUS lists the bundles bottom to top (R94): the one bundle of three notes first. -/
theorem test_bundles_bottom_first :
    (stackBytes stacked.escrow.stack).take 9 = [2#8, 0#8, 1#8, 0#8, 0#8, 0#8, 1#8, 0#8, 1#8] := by decide +kernel

theorem wit_EscrowOperationsBegin_insert :
    Taken .insertNotes (fr .a []) opened ∧ opened.openRefusal .a = none ∧ opened.stateRefusal = none ∧
      opened.auditRequired = false ∧ opened.restricted .moduleLock = false ∧ opened.position.marginsExceeded = false ∧
      RoomFor 1 0 opened :=
  taken_and (by decide +kernel) (by decide +kernel)
theorem wit_EscrowOperationsBegin_return :
    Taken .returnLast (fr .a []) stacked ∧ Taken .returnAll (fr .a []) stacked ∧ stacked.openRefusal .a = none ∧
      stacked.stateRefusal = none ∧ stacked.escrow.stack ≠ [] ∧ RoomFor 1 0 stacked :=
  ⟨taken_of_check _ _ _ (by decide +kernel), taken_of_check _ _ _ (by decide +kernel), by decide +kernel, by decide +kernel,
    by decide +kernel, by decide +kernel⟩
theorem wit_EscrowOperationsBegin_commit :
    Taken .commit (fr .a []) stacked ∧ stacked.escrow.verdict = .match_ ∧ stacked.auditRequired = false ∧
      (stacked.position.account .drawerA).intact = true ∧
      ¬(stacked.position.account .drawerA).balance - stacked.value (stackNotes stacked.escrow.stack) < -999999999 ∧
      Ix.all.all (fun j => (stacked.position.cassettes.get j).intact) = true ∧
      stacked.escrow.stack.getLast? = some ⟨⟨1, 0, 1, 1⟩, Quad.zero, 0, 0, false, false⟩ ∧
      Bundle.next stacked.settings.denominations ⟨⟨1, 0, 1, 1⟩, Quad.zero, 0, 0, false, false⟩ = some (.i4, true) ∧
      stacked.destination .i4 true = some .i4 :=
  taken_and (by decide +kernel) (by decide +kernel)
/-- Every cassette has failed: the commit's first note has no destination. -/
def noDestination : State :=
  { stacked with
    position := { stacked.position with cassettes := stacked.position.cassettes.map (fun c => { c with state := .fault }) } }
theorem wit_EscrowOperationsBegin_no_destination :
    Taken .commit (fr .a []) noDestination ∧ RoomFor 1 0 noDestination ∧ EndRoom 3 noDestination ∧
      noDestination.destination .i4 true = none ∧
      (after [.commit (fr .a [])] noDestination).journal.waitingDone.map (fun d => (d.done.outcome, d.done.value)) =
        [(2, 0)] ∧
      (after [.commit (fr .a [])] noDestination).escrow.stack = stacked.escrow.stack :=
  taken_and (by decide +kernel) (by decide +kernel)
theorem wit_EscrowOperationsBegin_drawer_word :
    let s := { stacked with position := { stacked.position with drawerA := { stacked.position.drawerA with intact := false } } }
    Taken .commit (fr .a []) s ∧ s.escrow.purpose = .drawer ∧ (s.position.account .drawerA).intact = false ∧
      (after [.commit (fr .a [])] s).position.causes.integrity = true :=
  taken_and (by decide +kernel) (by decide +kernel)
/-- Notes of one value leave in ascending number, and unfit ones after every fit one (R95). -/
theorem test_delivery_order :
    Bundle.next ⟨500, 500, 1000, 2000⟩ ⟨⟨0, 1, 1, 0⟩, ⟨9, 0, 0, 0⟩, 0, 0, false, false⟩ = some (.i2, true) ∧
      Bundle.next ⟨500, 500, 1000, 2000⟩ ⟨Quad.zero, ⟨1, 1, 0, 0⟩, 0, 0, false, false⟩ = some (.i1, false) := by
  decide +kernel

/-- The tenth diverted note ends the dispense SHORT_PAID with the note itself still on its way (R62, R80). -/
def shortPaid : State := after [.noteCheck .long] (withA (fun d => { d with diverted := 9 }) checking)
/-- A feed has begun since. -/
def shortThenFeed : State := { toDrum with path := { toDrum.path with timers := ⟨.dispense .b, .way 2, true⟩ :: toDrum.path.timers } }
/-- The note of a dispense that is over is still timed: its jam stops the module, with the operation the transport works for, if any. -/
theorem wit_NotesAreTimed_after_the_end :
    runs shortPaid = true ∧ (shortPaid.dispense .a).state = .idle ∧ shortPaid.path.timers = [⟨.dispense .a, .path, true⟩] ∧
      OtherAtRest .a shortPaid ∧ OtherAtRest .b shortPaid ∧ (after [.noteJam .path] shortPaid).path.state = .jammed ∧
      (after [.noteJam .path] shortPaid).journal = shortPaid.journal ∧
      runs shortThenFeed = true ∧ (shortThenFeed.dispense .b).state = .idle ∧
      (match shortThenFeed.escrow.op with | some (.insert o) => o.ended == none | _ => false) = true ∧
      (after [.noteJam (.way 2)] shortThenFeed).escrow.op = none ∧
      (after [.noteJam (.way 2)] shortThenFeed).path.timers = [] := by decide +kernel

/-- What the clauses of FeedBooksNotes share. -/
def feeds (o : InsertOp) (b : Bundle) (s : State) : Bool :=
  runs s && s.escrow.op == some (.insert o) && o.ended == none && s.escrow.stack == [b]
theorem wit_FeedBooksNotes_attempts :
    feeds ⟨.a, .none, 0, false, false, none⟩ Bundle.fresh inserting = true ∧ OtherAtRest .a inserting ∧
      EndRoom 3 inserting ∧ inserting.restricted .moduleLock = false := by decide +kernel
/-- MODULE_LOCK stands and no note is in hand: the note taken next is not fed; the feed ends (R103). -/
theorem wit_FeedBooksNotes_lock :
    feeds ⟨.a, .none, 0, false, false, none⟩ Bundle.fresh (lockedBy inserting) = true ∧
      (lockedBy inserting).restricted .moduleLock = true ∧ EndRoom 3 (lockedBy inserting) ∧
      (after [.feedTake] (lockedBy inserting)).escrow.op = none := by decide +kernel
theorem wit_FeedBooksNotes_verdicts :
    feeds ⟨.a, .validating, 0, false, false, none⟩ Bundle.fresh validating = true ∧ OtherAtRest .a validating ∧
      validating.settings.denominations.get .i1 ≠ 0 ∧ validating.position.suspect < 50 := by decide +kernel
theorem wit_FeedBooksNotes_arrivals :
    feeds ⟨.a, .toDrum .i1 false, 0, false, false, none⟩ Bundle.fresh toDrum = true ∧
      0 < toDrum.position.transit.get .i1 ∧
      feeds ⟨.a, .toCompartment, 0, false, false, none⟩ { Bundle.fresh with suspect := 1 } toCompartment = true ∧
      feeds ⟨.a, .toPocket, 0, false, false, none⟩ { Bundle.fresh with returned := 1 } toPocket = true := by
  decide +kernel
/-- The hundredth note of a bundle ends the feed with the limit's cause, TRUNCATED (R102). -/
theorem test_bundle_limit :
    let b : Bundle := ⟨⟨99, 0, 0, 0⟩, Quad.zero, 0, 0, false, false⟩
    let t := after [.drumEntry] { toDrum with escrow := { toDrum.escrow with stack := [b] } }
    t.escrow.op = none ∧ t.escrow.stack = [⟨⟨99, 0, 0, 0⟩, ⟨1, 0, 0, 0⟩, 0, 0, true, false⟩] := by decide +kernel

/-- The intake is empty after one unfit and two fit notes, a suspect and a returned note, above a bundle of three: the record and OP_DONE
hold the counts apart, the position 2 and the first cause of R102's list (R102, R105). -/
theorem test_insert_detail :
    let b : Bundle := ⟨⟨2, 0, 0, 0⟩, ⟨0, 1, 0, 0⟩, 3, 1, false, true⟩
    let s := { inserting with escrow := { inserting.escrow with stack := b :: stacked.escrow.stack.take 1 } }
    let t := after [.intakeEmpty .a] s
    runs s = true ∧
      t.journal.staging.getLast?.map (fun r => (r.kind, r.counts.c2, r.amount, r.marks.suspectReturned, r.marks.truncated)) =
        some (.insert, 1, 9000, true, false) ∧
      t.journal.staging.getLast?.map (fun r => r.detail) =
        some (.deposit ⟨⟨2, 0, 0, 0⟩, ⟨0, 1, 0, 0⟩, 3, 1, 2, 0, none, none, 1, 0, none⟩) ∧
      t.journal.waitingDone.map (fun d => (d.done.cause, d.done.remaining.length)) = [(1, 2)] := by decide +kernel

/-- The operation of a return, as RETURN_ALL began it. -/
def returnOp : ReturnOp :=
  { port := .a, window := .a, underHold := false, every := true, moving := true, note := none, given := Quad.zero,
    bundlesOut := 0, fields := BundleFields.zero, first := 2, locked := false, ended := none }
theorem wit_ReturnGivesNotesBack_exit :
    runs returning = true ∧ returning.escrow.op = some (.give returnOp) ∧ OtherAtRest .a returning ∧
      OtherAtRest .b returning ∧
      returning.escrow.stack.head?.map (fun b => b.next returning.settings.denominations) = some (some (.i1, true)) := by
  decide +kernel
theorem wit_ReturnGivesNotesBack_pocket :
    runs returningOut = true ∧ returningOut.escrow.op = some (.give { returnOp with note := some .i1 }) ∧
      0 < returningOut.position.transit.get .i1 ∧ EndRoom 3 returningOut := by decide +kernel
/-- The last note of RETURN_LAST: its bundle is out, and the end is recorded. -/
theorem wit_ReturnGivesNotesBack_end :
    let o : ReturnOp := { returnOp with every := false, note := some .i1, moving := false, bundlesOut := 1 }
    let s := { returningOut with escrow := { returningOut.escrow with op := some (.give o) } }
    runs s = true ∧ EndRoom 3 s ∧ OtherAtRest .a s ∧ 0 < s.position.transit.get .i1 ∧
      (after [.returnPocketEntry] s).escrow.op = none := by decide +kernel
/-- Two bundles given back whole: the record adds their suspect and returned counts and keeps a flag that either has (R107). -/
theorem test_return_keeps_fields :
    let b (x : Bundle) (flag : Bool) : Bundle := { x with suspect := 2, returned := 3, truncated := flag }
    let s :=
      { returning with
        escrow := { returning.escrow with stack := returning.escrow.stack.zipWith b [true, false] } }
    (after [.drumEmpty, .drumEmpty] s).journal.staging.getLast?.map
        (fun r => (r.kind, r.marks.truncated, r.marks.suspectReturned,
          match r.detail with
          | .deposit x => (x.suspect, x.returned, x.bundles)
          | _ => (0, 0, 0))) =
      some (.return_, true, false, (4, 6, 2)) := by decide +kernel

theorem wit_CommitDeliversNotes_exit :
    runs committing = true ∧
      committing.escrow.stack = [⟨⟨1, 0, 0, 0⟩, ⟨0, 0, 1, 0⟩, 0, 0, false, false⟩] ++ [⟨⟨1, 0, 1, 1⟩, Quad.zero, 0, 0, false, false⟩] ∧
      (match committing.escrow.op with
        | some (.commit o) => o.ended == none && o.note == none && o.chosen == some .i4 && o.moving
        | _ => false) = true := by decide +kernel
theorem wit_CommitDeliversNotes_drum_empty :
    let s := { committing with escrow := { committing.escrow with stack := [⟨⟨1, 0, 0, 0⟩, Quad.zero, 0, 0, false, false⟩] } }
    runs s = true ∧ EndRoom 3 s ∧ OtherAtRest .a s ∧ OtherAtRest .b s := by decide +kernel
/-- The drum is empty under the bottom bundle of two: the commit goes on with the bundle above it, or ends PARTIAL (R106, R113). -/
theorem wit_CommitDeliversNotes_missed :
    [committing, lockedBy committing].all
      (fun s => runs s && decide (EndRoom 3 s) && s.escrow.stack.dropLast != []) = true ∧
      (after [.drumEmpty] committing).position.discrepancy = ⟨1, 0, 1, 1⟩ ∧
      (match (after [.drumEmpty] committing).escrow.op with
        | some (.commit o) => o.chosen == some .i1 && o.reduced && o.moving && !o.lost
        | _ => false) = true ∧
      (after [.drumEmpty] (lockedBy committing)).journal.waitingDone.map (fun d => d.done.outcome) = [2] := by decide +kernel
/-- A commit whose chosen cassette has gone chooses anew after the missed bundle, and the new choice is not lost (R112). -/
theorem test_commit_choice_anew :
    let lost : CommitOp := ⟨.a, false, some .i4, none, true, false, true, false, none⟩
    let s := { committing with escrow := { committing.escrow with op := some (.commit lost) } }
    (match (after [.drumEmpty] s).escrow.op with
      | some (.commit o) => !o.lost && o.chosen == some .i1
      | _ => false) = true := by decide +kernel
/-- What the clauses on CASSETTE_ENTRY share: a note of D4 on its way to C4. -/
def entering (s : State) : Bool :=
  runs s && s.holdsNotes .i4 && Ix.all.all (fun j => (s.position.cassettes.get j).intact) && decide (0 < s.position.transit.get .i4) &&
    (match s.escrow.op with
      | some (.commit o) => o.ended == none && o.note == some (.i4, true) && o.chosen == some .i4 && !o.lost && !o.auditStop
      | _ => false)
theorem wit_CommitDeliversNotes_entry :
    entering committingOut = true ∧ committingOut.restricted .moduleLock = false ∧
      committingOut.escrow.stack.getLast? = some ⟨⟨1, 0, 1, 0⟩, Quad.zero, 0, 0, false, false⟩ ∧
      Bundle.next committingOut.settings.denominations ⟨⟨1, 0, 1, 0⟩, Quad.zero, 0, 0, false, false⟩ = some (.i3, true) ∧
      (match (after [.cassetteEntry .i4] committingOut).escrow.op with
        | some (.commit o) => o.chosen == some .i3
        | _ => false) = true := by decide +kernel
theorem wit_CommitDeliversNotes_ends :
    entering committingLast = true ∧ committingLast.escrow.stack = [] ∧ EndRoom 3 committingLast ∧
      OtherAtRest .a committingLast ∧ OtherAtRest .b committingLast ∧ entering committingLocked = true ∧
      committingLocked.restricted .moduleLock = true ∧ committingLocked.escrow.stack ≠ [] := by decide +kernel
/-- A check word that fails stops the commit with the integrity fault found, at the choice after missed notes and after an entry; the word
of the cassette entered is rewritten, and an entry that leaves the stack empty reads no other (R9, R113). -/
theorem wit_CommitDeliversNotes_words :
    let bad (k : Ix) (s : State) : State := withCassette k (fun c => { c with intact := false }) s
    let ends (c : Instr) (s : State) : List Nat × Option GuardedRecord :=
      ((after [c] s).journal.waitingDone.map (fun d => d.done.outcome), (after [c] s).position.integrityFault.map (fun f => f.which))
    let s := bad .i2 committing
    let o : CommitOp := ⟨.a, false, some .i4, none, true, false, false, false, none⟩
    runs s = true ∧ s.escrow.op = some (.commit o) ∧
      s.escrow.stack =
        [⟨⟨1, 0, 0, 0⟩, ⟨0, 0, 1, 0⟩, 0, 0, false, false⟩] ++ [⟨⟨1, 0, 1, 1⟩, Quad.zero, 0, 0, false, false⟩] ∧
      s.restricted .moduleLock = false ∧ ¬(s.position.cassettes.get .i2).intact = true ∧ EndRoom 3 s ∧ OtherAtRest .a s ∧
      OtherAtRest .b s ∧
      [bad .i2 committingOut, bad .i4 committingOut, bad .i4 committingLast].all (fun x => runs x && decide (EndRoom 3 x)) = true ∧
      ends .drumEmpty (bad .i2 committing) = ([2], some (.cassette .i2)) ∧
      ends (.cassetteEntry .i4) (bad .i2 committingOut) = ([2], some (.cassette .i2)) ∧
      ends (.cassetteEntry .i4) (bad .i4 committingOut) = ([2], some (.cassette .i4)) ∧
      ends (.cassetteEntry .i4) (bad .i4 committingLast) = ([1], some (.cassette .i4)) ∧
      ends (.cassetteEntry .i4) (bad .i2 committingLast) = ([1], none) := by decide +kernel
/-- A commit ends PARTIAL without a destination, under MODULE_LOCK and at a failing check word: causes 1, 2 and 3 in the record and in
OP_DONE, with the bundles that remain; COMMITTED has cause 0 (R113, R114). -/
theorem test_commit_causes :
    let ends (c : Instr) (s : State) : List (Nat × Nat) × Option Nat :=
      let j := (after [c] s).journal
      (j.waitingDone.map (fun d => (d.done.cause, d.done.remaining.length)),
        j.staging.getLast?.map (fun r => match r.detail with | .deposit x => x.cause | _ => 9))
    ends (.commit (fr .a [])) noDestination = ([(1, 2)], some 1) ∧
      ends (.cassetteEntry .i4) committingLocked = ([(2, 2)], some 2) ∧
      ends (.cassetteEntry .i4) (withCassette .i2 (fun c => { c with intact := false }) committingOut) = ([(3, 2)], some 3) ∧
      ends (.cassetteEntry .i4) committingLast = ([(0, 0)], some 0) := by decide +kernel
/-- A commit's OP_DONE gives its value, here 0.01, before its counts, a dispense's the counts before the value (R92, R114). -/
theorem test_op_done_figures :
    let d (k : OpKind) : OpDone := { OpDone.zero k with counts := ⟨1, 2, 3, 4⟩, value := 1 }
    (d .commit).figures = writeS5 1 ++ [0#8, 1#8, 0#8, 2#8, 0#8, 3#8, 0#8, 4#8] ∧
      (d .dispense).figures = [0#8, 1#8, 0#8, 2#8, 0#8, 3#8, 0#8, 4#8] ++ writeS5 1 := by decide +kernel

/-! ### The envelope slot -/

/-- The slot is open. -/
def slotOpened : State := after [.slotOpen (fr .s []), .frameSent .s] stocked
/-- An amount of 1.20 is held and an envelope gripped. -/
def envelopeIn : State := after [.keyDigit 1, .keyDigit 2, .keyDigit 0, .keyEnter, .gripOn] slotOpened
def reversing : State := after [.intakeTimerExpiry] envelopeIn
def imprinting : State := after [.imprintReport] envelopeIn
def dropping : State := after [.imprinterReport .printed] imprinting
def slotJammed : State := after [.dropTimerExpiry] dropping
def clearing : State := after [.jamClearSlot (fr .s [2#8]), .frameSent .s] slotJammed

theorem wit_SlotRequestsJudgePermit :
    Taken .slotOpen (fr .s []) stocked ∧ Taken .slotClose (fr .s []) slotOpened ∧ slotOpened.depository.slot = .open_ ∧
      Taken .slotClose (fr .s []) imprinting ∧ imprinting.depository.slot = .imprint :=
  taken_and (by decide +kernel)
    ⟨taken_of_check _ _ _ (by decide +kernel), by decide +kernel, taken_of_check _ _ _ (by decide +kernel), by decide +kernel⟩
theorem wit_SlotRequestsJudgePermit_emptied :
    Taken .binEmptied (fr .s []) stocked ∧ stocked.depository.slot = .closed ∧ RoomFor 1 1 stocked ∧
      Taken .binEmptied (fr .s []) slotJammed ∧ slotJammed.depository.slot = .jammed ∧
      Taken .binEmptied (fr .s []) slotOpened :=
  taken_and (by decide +kernel)
    ⟨by decide +kernel, by decide +kernel, taken_of_check _ _ _ (by decide +kernel), by decide +kernel,
      taken_of_check _ _ _ (by decide +kernel)⟩
theorem wit_IntakeMovesEnvelope :
    runs slotOpened = true ∧ slotOpened.depository.slot = .open_ ∧ runs envelopeIn = true ∧
      envelopeIn.depository.slot = .intake ∧ envelopeIn.depository.phase = .firstPull ∧ envelopeIn.depository.intakeTimer = true ∧
      runs reversing = true ∧ reversing.depository.phase = .reverse ∧ reversing.depository.reverseTimer = true ∧
      (after [.reverseTimerExpiry] reversing).depository.phase = .secondPull := by decide +kernel
/-- The third pullback 60 s after the first is a slot tamper; 61 s after it is not (R125). -/
theorem wit_IntakeMovesEnvelope_pullbacks :
    let at_ (n : Nat) : State :=
      { envelopeIn with clock := ⟨BitVec.ofNat 32 n, true⟩, depository := { envelopeIn.depository with pullbacks := [10, 20] } }
    runs (at_ 70) = true ∧ (at_ 70).alarm.eligible 5 = true ∧ ((at_ 70).zone 5).state = .quiet ∧
      ((at_ 70).zone 5).inputActive = false ∧ (at_ 70).restricted .moduleLock = false ∧ (at_ 70).claim = ⟨.none, [], none⟩ ∧
      (at_ 70).escrow.op = none ∧
      ((after [.gripOff] (at_ 70)).zone 5).state = .pendingRestored ∧
      ((after [.gripOff] (at_ 71)).zone 5).state = .quiet := by decide +kernel
theorem wit_ImprinterMarksEnvelope :
    runs imprinting = true ∧ imprinting.depository.slot = .imprint ∧ imprinting.depository.imprinterTimer = true ∧
      imprinting.depository.imprinterFault = false := by decide +kernel
/-- The line of the envelope: its number in seven digits and the amount declared (R126). -/
theorem wit_DropCountsEnvelope :
    runs dropping = true ∧ dropping.depository.slot = .drop ∧ dropping.depository.clearing = none ∧
      dropping.depository.envelope.isSome ∧ dropping.depository.dropTimer = true ∧ dropping.journal.eventRoom = true ∧
      dropping.journal.next = some 3 ∧ runs imprinting = true ∧ imprinting.depository.envelope.isSome ∧
      runs clearing = true ∧ clearing.depository.clearing = some .byRequest ∧ clearing.depository.slot = .drop ∧
      clearing.depository.envelope.isSome := by decide +kernel
/-- The last number is followed by 1 (R128). -/
theorem test_sequence_wraps :
    (after [.dropReport] { dropping with depository := { dropping.depository with sequence := 9999999 } }).depository.sequence =
      1 := by decide +kernel
theorem wit_DropCountsEnvelope_not_found :
    let s := { clearing with depository := { clearing.depository with envelope := none } }
    runs s = true ∧ s.depository.clearing = some .byRequest ∧
      (after [.clearRunExpiry] s).depository.slot = .open_ := by decide +kernel
/-- Start-up clears the slot of an envelope found in transport. -/
def clearingAtStart (e : Option Envelope) : State :=
  { dropping with
    startUp := ⟨.purge, .powerUp⟩
    depository := { dropping.depository.clearRun with envelope := e } }
/-- It is CAPTURED with the declared amount it carried, or NONE, and the slot is CLOSED though the permit would open it; a run that finds
nothing ends so too (R134). -/
theorem wit_DropCountsEnvelope_start_up :
    let known := clearingAtStart dropping.depository.envelope
    let bin (s : State) : Nat × Nat × Nat := (s.depository.bin.declared, s.depository.bin.captured, s.depository.bin.total)
    runs known = true ∧ runs (clearingAtStart none) = true ∧ known.depository.slot = .drop ∧
      known.depository.clearing = some .atStartUp ∧ known.depository.supervisorOpen = true ∧
      (after [.dropReport] known).depository.slot = .closed ∧ bin (after [.dropReport] known) = (1, 1, 120) ∧
      (after [.dropReport] (clearingAtStart none)).depository.slot = .closed ∧
      bin (after [.dropReport] (clearingAtStart none)) = (0, 1, 0) ∧
      (after [.dropReport] known).ports.s.notices.moduleFault = none ∧
      (after [.clearRunExpiry] (clearingAtStart none)).depository.slot = .closed ∧
      (after [.clearRunExpiry] known).depository.slot = .closed := by decide +kernel
theorem wit_KeypadAndPrinter :
    runs slotOpened = true ∧ runs stocked = true ∧ stocked.depository.slot = .closed ∧
      (after [.keyDigit 3] slotOpened).depository.keypadTimer = true ∧
      (after [.dropReport] dropping).depository.receipts.length = 1 := by decide +kernel
/-- An eighth digit is not taken (R120). -/
theorem test_eighth_digit :
    (after [.keyDigit 8] { slotOpened with
        depository := { slotOpened.depository with entry := .keying [1, 2, 3, 4, 5, 6, 7] } }).depository.entry =
      .keying [1, 2, 3, 4, 5, 6, 7] := by decide +kernel

/-! ### The alarm unit -/

/-- The part with zone z's record replaced, and the level, the set and the silent line as the zones then give them. -/
def withZone (z : Fin 16) (r : Zone) (s : State) : State :=
  let u := s.alarm.setZone z r
  { s with
    alarm :=
      { u with
        level := u.activeLevel, restriction := u.latchedEffects
        silentLine := Effects.has u.latchedEffects .silentLine } }
/-- The raw reading of a loop has changed and its debounce time runs. -/
def reads (z : Fin 14) (x : Reading) (s : State) : State :=
  { withZone (wired z) { s.zone (wired z) with debounceTimer := some 200 } s with
    pins := { s.pins with loops := s.pins.loops.set z x } }
def derived (s : State) : Bool :=
  decide (s.alarm.level = s.alarm.activeLevel ∧ s.alarm.restriction = s.alarm.latchedEffects ∧
    s.alarm.silentLine = Effects.has s.alarm.latchedEffects .silentLine)
/-- What the statements on zones share. -/
def zonesReady (s : State) : Bool := runs s && derived s
theorem alarmDerived_of_check (s : State) (h : derived s = true) : AlarmDerived s := by
  unfold AlarmDerived; exact of_decide_eq_true h
/-- Zone 4 is latched with its input ACTIVE, zone 6 with its input restored. -/
def latched : State :=
  withZone 6 { stocked.zone 6 with state := .pendingRestored }
    (withZone 4 { stocked.zone 4 with state := .pendingActive, reading := .active, inputActive := true } stocked)
/-- Armed, with zone 9 in its entry delay. -/
def entering9 : State :=
  withZone 9
    { stocked.zone 9 with state := .entryTiming, entryTimer := some 30, reading := .active, inputActive := true }
    { stocked with alarm := { stocked.alarm with armed := true } }
def panel (s : State) : State :=
  { s with alarm := { s.alarm with monitorTimer := some Config.monitorTime } }

theorem wit_ReadingsMoveZones_active :
    zonesReady (reads 4 .active stocked) = true ∧ ((reads 4 .active stocked).zone (wired 4)).debounceTimer.isSome ∧
      (reads 4 .active stocked).pins.loops.get 4 = .active ∧ (reads 4 .active stocked).alarm.eligible (wired 4) = true := by
  decide +kernel
theorem wit_ReadingsMoveZones_trouble :
    zonesReady (reads 0 .open_ stocked) = true ∧ ((reads 0 .open_ stocked).zone (wired 0)).debounceTimer.isSome ∧
      ((reads 0 .open_ stocked).zone (wired 0)).config.type ≠ .tamper ∧
      ((reads 0 .open_ stocked).zone (wired 0)).config.type ≠ .attack ∧
      ((reads 0 .open_ stocked).zone (wired 0)).config.enabled = true ∧
      ((reads 0 .open_ stocked).zone (wired 0)).trouble = false := by decide +kernel
theorem wit_ReadingsMoveZones_normal :
    zonesReady (reads 4 .normal latched) = true ∧ ((reads 4 .normal latched).zone (wired 4)).debounceTimer.isSome ∧
      ((reads 4 .normal latched).zone (wired 4)).inputActive = true ∧ stocked.zone (wired 5) = coldZones.get 5 ∧
      zonesReady stocked = true := by decide +kernel
/-- MovesZone's own premise: MODULE_LOCK does not enter the set where zone 4 latches. -/
theorem wit_MovesZone :
    Effects.has ((reads 4 .active stocked).alarm.setZone 4 { stocked.zone 4 with state := .pendingActive }).latchedEffects
      .moduleLock = false := by decide +kernel
theorem wit_TimersAndRaisesMoveZones_entry :
    zonesReady entering9 = true ∧ (entering9.zone 9).state = .entryTiming ∧ (entering9.zone 9).entryTimer.isSome := by
  decide +kernel
theorem wit_TimersAndRaisesMoveZones_monitor :
    zonesReady stocked = true ∧ stocked.alarm.monitorTimer.isSome ∧ (stocked.zone 14).inputActive = false ∧
      Effects.has (stocked.alarm.setZone 14 { stocked.zone 14 with state := .pendingActive }).latchedEffects .moduleLock = false :=
  by decide +kernel
/-- The panel has been silent: zone 14's input is ACTIVE, its state as given, and the monitor timer as given. -/
def silent (x : ZoneState) (timer : Option Nat) : State :=
  let s := withZone 14 { stocked.zone 14 with state := x, inputActive := true } stocked
  { s with alarm := { s.alarm with monitorTimer := timer } }
/-- The panel is heard: an unknown request, one of a known code, a frame of a wrong kind or one too many restores zone 14 in each of its
states and starts the timer, also where start-up has not (R140, R144). -/
theorem wit_TimersAndRaisesMoveZones_heard :
    let full := { silent .pendingActive none with
      ports := { stocked.ports with m := { stocked.ports.m with held := some ⟨0x40#8, 1#8, false, .sending⟩ } } }
    let heard (c : Instr) (s : State) : ZoneState × Bool × Option Nat :=
      (((after [c] s).zone 14).state, ((after [c] s).zone 14).inputActive, (after [c] s).alarm.monitorTimer)
    let list : Instr := (Request.alarmList).instr (fr .m [1#8])
    (silent .pendingActive none).powered = true ∧ derived (silent .pendingActive none) = true ∧ derived full = true ∧
      [list, .unknownRequest 0x7F#8 (fr .m []), .invalidFrame .m .notRequest].all
        (fun c => heard c (silent .pendingActive none) == (.pendingRestored, false, some 60)) = true ∧
      full.ports.m.held.isSome = true ∧ heard (.overrun .m) full = (.pendingRestored, false, some 60) ∧
      heard list (silent .ackedActive (some 1)) = (.quiet, false, some 60) ∧
      heard list (silent .pendingRestored none) = (.pendingRestored, false, some 60) ∧
      heard list (panel stocked) = (.quiet, false, some 60) := by decide +kernel
theorem wit_TimersAndRaisesMoveZones_duress :
    let s := { stocked with ports := { stocked.ports with a := { stocked.ports.a with duressDue := 1 } } }
    zonesReady s = true ∧ (s.ports.get .a).duressDue ≠ 0 ∧ (s.zone 15).inputActive = false ∧ s.alarm.eligible 15 = true := by
  decide +kernel
/-- A raise that a marked request left under entry timing keeps its port for the ALARM record of the expiry (R141, R157). -/
theorem wit_TimersAndRaisesMoveZones_marked :
    let s := withZone 15 { stocked.zone 15 with state := .entryTiming, entryTimer := some 30, marked := some .b } stocked
    zonesReady s = true ∧ (s.zone 15).state = .entryTiming ∧ (s.zone 15).entryTimer.isSome ∧
      (after [.entryTimerExpiry 15] s).journal.staging.getLast?.map (fun r => (r.kind, r.port)) =
        some (.alarm, some .b) := by decide +kernel
theorem wit_TimersAndRaisesMoveZones_sounder :
    let s := { latched with alarm := { latched.alarm with sounder := true, sounderTimer := some 300 } }
    zonesReady s = true ∧ s.alarm.sounderTimer.isSome := by decide +kernel
/-- A duress raise latches zone 15 and restores it at once (R141). -/
theorem test_duress_is_momentary :
    let s := { stocked with ports := { stocked.ports with a := { stocked.ports.a with duressDue := 1 } } }
    ((after [.duressRaise .a] s).zone 15).state = .pendingRestored := by decide +kernel

theorem wit_PanelAcknowledgesListsSilences_ack :
    Taken .alarmAck (fr .m [0xFF#8]) (panel latched) ∧ derived (panel latched) = true ∧ RoomFor 1 1 (panel latched) ∧
      (panel latched).journal.next = some 3 ∧ ((panel latched).zone 4).state = .pendingActive ∧
      Taken .alarmAck (fr .m [3#8, 3#8]) (panel latched) ∧ ((panel latched).zone 3).state = .quiet ∧
      Taken .alarmAck (fr .m [16#8]) (panel latched) ∧ Taken .alarmAck (fr .m [15#8]) (panel latched) :=
  taken_and (by decide +kernel)
    ⟨by decide +kernel, by decide +kernel, by decide +kernel, by decide +kernel, taken_of_check _ _ _ (by decide +kernel),
      by decide +kernel, taken_of_check _ _ _ (by decide +kernel), taken_of_check _ _ _ (by decide +kernel)⟩
theorem test_acknowledge_both :
    ((after [.alarmAck (fr .m [0xFF#8])] (panel latched)).zone 4).state = .ackedActive ∧
      ((after [.alarmAck (fr .m [0xFF#8])] (panel latched)).zone 6).state = .quiet := by constructor <;> decide +kernel
theorem wit_PanelAcknowledgesListsSilences_list :
    Taken .alarmList (fr .m [1#8]) (panel latched) ∧ Taken .alarmList (fr .m [0#8]) (panel latched) ∧
      Taken .alarmList (fr .m [17#8]) (panel latched) ∧ Taken .silence (fr .m []) (panel latched) :=
  ⟨taken_of_check _ _ _ (by decide +kernel), taken_of_check _ _ _ (by decide +kernel),
    taken_of_check _ _ _ (by decide +kernel), taken_of_check _ _ _ (by decide +kernel)⟩

/-- ZONE_SET of zone 8: INTRUSION, level 5, effects 3, always armed, enabled, 2,001 ms. -/
def zoneOps : List Byte := [8#8, 3#8, 5#8, 3#8, 1#8, 1#8, 7#8, 0xD1#8]
theorem wit_ZoneSetReplacesConfiguration :
    Taken .zoneSet (fr .s zoneOps) stocked ∧ derived stocked = true ∧ RoomFor 1 1 stocked ∧
      stocked.journal.next = some 3 ∧ (stocked.zone 8).config.enabled = true ∧ (stocked.zone 8).inputActive = false ∧
      Taken .zoneSet (fr .s (16#8 :: zoneOps.drop 1)) stocked ∧
      Taken .zoneSet (fr .s (15#8 :: 1#8 :: 7#8 :: 5#8 :: 1#8 :: 0#8 :: zoneOps.drop 6)) stocked :=
  taken_and (by decide +kernel)
    ⟨by decide +kernel, by decide +kernel, by decide +kernel, by decide +kernel, by decide +kernel,
      taken_of_check _ _ _ (by decide +kernel), taken_of_check _ _ _ (by decide +kernel)⟩
theorem test_zone_set_clamps :
    ((after [.zoneSet (fr .s zoneOps)] stocked).zone 8).config.debounce = 2000 := by decide +kernel
/-- Applied as asked, it is answered OK without results (R137, R202). -/
theorem test_zone_set_exact :
    ((after [.zoneSet (fr .s (zoneOps.take 7 ++ [0xD0#8]))] stocked).answered .s).map (fun r => (r.status, r.results)) =
      some (.ok, .none) := by decide +kernel
/-- Zone 8 disabled, with a reading and an input. -/
def disabled8 (x : Reading) (active : Bool) : State :=
  let r := stocked.zone 8
  withZone 8 { r with config := { r.config with enabled := false }, reading := x, inputActive := active } stocked
/-- Enabled over an ACTIVE reading it latches; over a cut loop of its type it has its trouble mark and its record (R137, R139). -/
theorem wit_ZoneSetReplacesConfiguration_on :
    Taken .zoneSet (fr .s zoneOps) (disabled8 .active true) ∧ derived (disabled8 .active true) = true ∧
      ((disabled8 .active true).alarm.setZone 8 { (disabled8 .active true).zone 8 with config := (stocked.zone 8).config }).latchedEffects =
        (disabled8 .active true).alarm.restriction ∧
      ((after [.zoneSet (fr .s zoneOps)] (disabled8 .active true)).zone 8).state = .pendingActive ∧
      Taken .zoneSet (fr .s zoneOps) (disabled8 .open_ false) ∧
      ((after [.zoneSet (fr .s zoneOps)] (disabled8 .open_ false)).zone 8).trouble = true ∧
      ((after [.zoneSet (fr .s zoneOps)] (disabled8 .open_ false)).journal.staging.map (fun r => (r.kind, r.outcome))) =
        stocked.journal.staging.map (fun r => (r.kind, r.outcome)) ++ [(.setting, 2), (.alarm, 2)] :=
  taken_and (by decide +kernel)
    ⟨by decide +kernel, by decide +kernel, by decide +kernel, taken_of_check _ _ _ (by decide +kernel), by decide +kernel,
      by decide +kernel⟩
/-- An armed-only zone with its input ACTIVE becomes eligible by its arm mode and activates (R146). -/
theorem wit_ZoneSetReplacesConfiguration_eligible :
    let s := withZone 7 { stocked.zone 7 with reading := .active, inputActive := true } stocked
    let ops : List Byte := [7#8, 3#8, 5#8, 3#8, 1#8, 1#8, 0#8, 200#8]
    Taken .zoneSet (fr .s ops) s ∧ derived s = true ∧ s.alarm.eligible 7 = false ∧
      ((after [.zoneSet (fr .s ops)] s).zone 7).state = .pendingActive :=
  taken_and (by decide +kernel) (by decide +kernel)
/-- A zone disabled out of its entry delay. -/
theorem wit_ZoneSetReplacesConfiguration_off :
    let ops : List Byte := [9#8, 4#8, 5#8, 3#8, 2#8, 0#8, 0#8, 200#8]
    Taken .zoneSet (fr .s ops) entering9 ∧ (entering9.zone 9).config.enabled = true ∧
      ((after [.zoneSet (fr .s ops)] entering9).zone 9).state = .quiet :=
  taken_and (by decide +kernel) (by decide +kernel)

theorem wit_ArmDisarmBypass_arm :
    Taken .arm (fr .s []) stocked ∧ stocked.alarm.armed = false ∧ RoomFor 1 1 stocked ∧
      allZones.all (fun z => !(stocked.zone z).inputActive && (stocked.zone z).reading == .normal) = true ∧
      Taken .arm (fr .s []) entering9 ∧ entering9.alarm.armed = true :=
  taken_and (by decide +kernel)
    ⟨by decide +kernel, by decide +kernel, by decide +kernel, taken_of_check _ _ _ (by decide +kernel), by decide +kernel⟩
theorem wit_ArmDisarmBypass_not_ready :
    let s := withZone 7 { stocked.zone 7 with reading := .active, inputActive := true } stocked
    Taken .arm (fr .s []) s ∧ s.alarm.armed = false ∧ (s.zone 7).config.armMode = .armedOnly :=
  taken_and (by decide +kernel) (by decide +kernel)
theorem wit_ArmDisarmBypass_disarm :
    Taken .disarm (fr .s []) entering9 ∧ RoomFor 1 1 entering9 ∧ entering9.journal.next = some 3 ∧
      allZones.all (fun z => !(entering9.zone z).bypassed) = true :=
  taken_and (by decide +kernel) (by decide +kernel)
theorem wit_ArmDisarmBypass_disarm_activates :
    let s := withZone 4 { stocked.zone 4 with bypassed := true, reading := .active, inputActive := true } stocked
    Taken .disarm (fr .s []) s ∧ RoomFor 1 1 s ∧ (s.zone 4).config.armMode = .always ∧
      (s.zone 4).config.enabled = true ∧ (s.zone 4).state = .quiet :=
  taken_and (by decide +kernel) (by decide +kernel)
/-- The panel is silent and zone 14 ARMED_ONLY: it activates with the ARM, whose record comes first (R146, R147). -/
theorem wit_ArmDisarmBypass_arm_activates :
    let r := stocked.zone 14
    let s := withZone 14 { r with inputActive := true, config := { r.config with armMode := .armedOnly } } stocked
    Taken .arm (fr .s []) s ∧ RoomFor 1 1 s ∧ s.journal.next = some 3 ∧ derived s = true ∧ s.alarm.armed = false ∧
      (s.zone 14).inputActive = true ∧ (s.zone 14).config.armMode = .armedOnly ∧ (s.zone 14).config.enabled = true ∧
      (s.zone 14).bypassed = false ∧ allZones.all (fun y => (s.zone y).reading == .normal) = true ∧
      (∀ y : Fin 16, y ≠ 14 → (s.zone y).inputActive = false) ∧
      Effects.has
          (s.alarm.setZone 14 ((s.zone 14).activated true s.settings.entryDelay s.clock.count none)).latchedEffects .moduleLock =
        false ∧
      (after [.arm (fr .s [])] s).journal.staging.map (fun x => (x.kind, x.extra)) =
        s.journal.staging.map (fun x => (x.kind, x.extra)) ++ [(.arm, 0), (.alarm, 14)] ∧
      ((after [.arm (fr .s [])] s).zone 14).state = .pendingActive :=
  taken_and (by decide +kernel) (by decide +kernel)
/-- A bypassed zone whose input is ACTIVE activates with the DISARM where it is 24H, its record before the DISARM's, and not where it is
ARMED_ONLY (R148). -/
theorem wit_ArmDisarmBypass_disarm_order :
    let r := entering9.zone 4
    let z (m : ArmMode) : State :=
      withZone 4 { r with bypassed := true, reading := .active, inputActive := true, config := { r.config with armMode := m } } entering9
    let told (m : ArmMode) : List (RecordKind × Nat) :=
      ((after [.disarm (fr .s [])] (z m)).journal.staging.drop (z m).journal.staging.length).map (fun x => (x.kind, x.extra))
    Taken .disarm (fr .s []) (z .always) ∧ RoomFor 1 1 (z .always) ∧ derived (z .always) = true ∧
      Effects.has r.config.effects .moduleLock = false ∧ told .always = [(.alarm, 4), (.disarm, 16)] ∧
      told .armedOnly = [(.disarm, 16)] :=
  taken_and (by decide +kernel) (by decide +kernel)
/-- Eight staging entries are free, and zones 0 to 14, bypassed and 24H with their input ACTIVE, all become eligible with a DISARM. -/
def crowded : State :=
  let z := stocked.zone 4
  let s := stocked.onJournal (fun j =>
    { j with
      staging := (List.range 24).map (fun n => resetRecord (n + 1) .powerUp 1 0)
      next := some 25 })
  allZones.foldl
    (fun s y => if y = 15 then s else withZone y { z with bypassed := true, reading := .active, inputActive := true } s) s
/-- Fifteen zones activate where eight entries are free: seven ALARM records are written, eight are lost, and the DISARM record takes the
last entry (R148, R162, R163). -/
theorem wit_ArmDisarmBypass_disarm_crowded :
    Taken .disarm (fr .s []) crowded ∧ RoomFor 1 1 crowded ∧ crowded.journal.next = some 25 ∧ derived crowded = true ∧
      crowded.journal.stagingFree = 8 ∧
      allZones.all (fun z => !Effects.has (crowded.zone z).config.effects .moduleLock) = true ∧
      ((after [.disarm (fr .s [])] crowded).journal.staging.drop 24).map (fun x => (x.sequence, x.kind, x.extra)) =
        [(25, .alarm, 0), (26, .alarm, 1), (27, .alarm, 2), (28, .alarm, 3), (29, .alarm, 4), (30, .alarm, 5), (31, .alarm, 6),
          (32, .disarm, 0x7FFF)] ∧
      (after [.disarm (fr .s [])] crowded).journal.lost = 8 ∧
      (after [.disarm (fr .s [])] crowded).journal.promised = false :=
  taken_and (by decide +kernel) (by decide +kernel)
theorem wit_ArmDisarmBypass_bypass :
    Taken .bypass (fr .s [0#8, 14#8]) entering9 ∧ RoomFor 1 1 entering9 ∧ Taken .bypass (fr .s [9#8]) entering9 ∧
      Taken .bypass (fr .s [15#8]) entering9 :=
  taken_and (by decide +kernel)
    ⟨by decide +kernel, taken_of_check _ _ _ (by decide +kernel), taken_of_check _ _ _ (by decide +kernel)⟩

/-- Zone 11 is about to activate while window A owns the module, B and S wait, and a note is in escrow. -/
def lockComing : State :=
  reads 11 .active { oneNote with claim := ⟨.portA, [.claim .s, .claim .b], none⟩ }
theorem wit_ModuleLockTakesClaim :
    zonesReady lockComing = true ∧ (lockComing.zone (wired 11)).debounceTimer.isSome ∧
      lockComing.pins.loops.get 11 = .active ∧ (lockComing.zone (wired 11)).inputActive = false ∧
      (lockComing.zone (wired 11)).state = .quiet ∧ (lockComing.zone (wired 11)).config.type = .attack ∧
      lockComing.alarm.eligible (wired 11) = true ∧
      Effects.has (lockComing.zone (wired 11)).config.effects .moduleLock = true ∧
      lockComing.restricted .moduleLock = false ∧ lockComing.escrow.op = none ∧ lockComing.claim.owner = ownerOf Teller.a.port ∧
      lockComing.claim.waiting = [Port.s, .b].map .claim ∧ (lockComing.dispense .a).deferred = false := by decide +kernel
/-- The zone that carries the lock is about to activate; what the clauses of ModuleLockTakesClaim share. -/
def locks (s : State) : Bool :=
  let r := s.zone (wired 11)
  zonesReady s && r.debounceTimer.isSome && s.pins.loops.get 11 == .active && !r.inputActive && r.state == .quiet &&
    r.config.type == .attack && s.alarm.eligible (wired 11) && Effects.has r.config.effects .moduleLock &&
    !s.restricted .moduleLock && s.escrow.op.isNone
def lockDelayed : State := reads 11 .active { queued with claim := ⟨.portB, [.delayed .a, .claim .s], none⟩ }
def lockDeferred : State := reads 11 .active (after [.delayEnd .a] dueOther)
/-- A DELAYED entry's dispense ends HALTED, and the owner loses the module. -/
theorem wit_ModuleLockTakesClaim_delayed :
    locks lockDelayed = true ∧ (lockDelayed.dispense .a).state = .queued ∧ EndRoom 4 lockDelayed ∧
      1 < lockDelayed.journal.stagingFree ∧
      (after [.debouncedReadingChange 11] lockDelayed).journal.waitingDone.map (fun d => (d.port, d.done.outcome, d.done.closing)) =
        [(.a, 7, 5)] ∧
      (after [.debouncedReadingChange 11] lockDelayed).claim.owner = .none := by decide +kernel
/-- A deferred dispense of the owner ends HALTED. -/
theorem wit_ModuleLockTakesClaim_deferred :
    locks lockDeferred = true ∧ (lockDeferred.dispense .a).state = .queued ∧ (lockDeferred.dispense .a).deferred = true ∧
      lockDeferred.claim.owner = .portA ∧ EndRoom 4 lockDeferred ∧ 1 < lockDeferred.journal.stagingFree ∧
      (after [.debouncedReadingChange 11] lockDeferred).dispense .a = Dispense.idle := by decide +kernel
/-- An owner named by a DELAYED entry too, its dispense deferred, ends once. -/
theorem wit_ModuleLockTakesClaim_once :
    let s := { lockDeferred with claim := { lockDeferred.claim with waiting := [.delayed .a, .claim .s] } }
    locks s = true ∧ s.claim.owner = .portA ∧ (s.dispense .a).deferred = true ∧
      (after [.debouncedReadingChange 11] s).journal.waitingDone.map (fun d => (d.port, d.done.outcome)) = [(.a, 7)] := by
  decide +kernel
/-- Zone z carries MODULE_LOCK. -/
def locking (z : Fin 16) (s : State) : State :=
  let r := s.zone z
  withZone z { r with config := { r.config with effects := r.config.effects ||| 0b010000#6 } } s
/-- The lock comes with a duress raise, a removal, and the monitor's expiry, while window A returns a bundle, with a note in hand or
without, or feeds: the module goes to HOLD, the return without a note ends HALTED, and the others are marked (R55, R103, R109). -/
theorem wit_ModuleLockTakesClaim_any_command :
    let due (s : State) : State := locking 15 { s with ports := { s.ports with a := { s.ports.a with duressDue := 1 } } }
    let pairs (s : State) : List (State × Instr) :=
      [(due s, .duressRaise .a), (locking 3 s, .cassetteRemoval .i1), (locking 14 s, .monitorTimerExpiry)]
    (pairs returning ++ pairs returningOut ++ pairs toDrum).all
      (fun x =>
        zonesReady x.1 && x.1.startUp.phase == .ready && !x.1.restricted .moduleLock && x.1.claim.owner == .portA &&
          x.1.escrow.stack != [] && (after [x.2] x.1).startUp.phase == .ready &&
          (after [x.2] x.1).restricted .moduleLock && (after [x.2] x.1).claim == ⟨.hold, [], none⟩ &&
          (match x.1.escrow.op, (after [x.2] x.1).escrow.op with
            | some (.give o), none => o.note == none
            | some (.give o), some (.give o') => o.note != none && o'.locked
            | some (.insert _), some (.insert o') => o'.locked
            | _, _ => false)) = true := by decide +kernel
/-- PORT_S and HOLD keep the module. -/
theorem wit_ModuleLockTakesClaim_keeps :
    let s := reads 11 .active { ownedS with claim := { ownedS.claim with waiting := [.claim .a, .claim .b] } }
    let h := reads 11 .active { oneNote with claim := ⟨.hold, [.claim .b], none⟩ }
    locks s = true ∧ s.idleRuns = true ∧ s.claim.idle = some 90 ∧ locks h = true ∧
      (after [.debouncedReadingChange 11] s).claim = ⟨.portS, [], some 90⟩ ∧
      (after [.debouncedReadingChange 11] h).claim.owner = .hold := by decide +kernel

/-! ### The journal -/

/-- A retained record with its number, kind, port, extra field and first count. -/
def rec (n : Nat) (k : RecordKind) (p : Option Port) (x : Nat) (c : Int) : Record :=
  { resetRecord n k 1 c with port := p, extra := x }
/-- Six records retained, numbers 6 to 8 lost with a GAP record 9 for them, two staged. -/
def records : Journal :=
  { stocked.journal with
    trimPoint := 3, durable := 12, next := some 15
    retained :=
      [rec 4 .posting (some .a) 0 0, rec 5 .dispenseEnd (some .b) 0 0, rec 9 .gap none 8 3, rec 10 .alarm none 0 0,
        rec 11 .dispenseEnd (some .a) 0 0, rec 12 .alarm none 0 0]
    staging := [rec 13 .alarm none 0 0, rec 14 .alarm none 0 0] }
def journaled : State := { stocked with journal := records }
def num (n : Nat) : List Byte := bytesOf 4 n

theorem wit_StepKeepsJournalOrder : InOrder records := by
  refine ⟨?_, by decide, by decide, fun r h => ?_, fun r h => ?_, by decide, by decide⟩
  · refine ⟨by decide, by decide, by decide, by decide, by decide, by decide, by decide, trivial⟩
  · have h : some (rec 12 .alarm none 0 0) = some r := h
    cases h; decide
  · have h : some (rec 13 .alarm none 0 0) = some r := h
    cases h; decide

theorem wit_JournalReadsAndScans_read :
    Taken .journalRead (fr .m (num 12)) (panel journaled) ∧ Taken .journalRead (fr .m (num 6)) (panel journaled) ∧
      Taken .journalRead (fr .m (num 3)) (panel journaled) ∧ Taken .journalRead (fr .m (num 13)) (panel journaled) ∧
      records.retained.any (fun r => r.sequence == 12) = true ∧ records.retained.all (fun r => r.sequence != 6) = true ∧
      (rec 9 .gap none 8 3).extra < 6 + (rec 9 .gap none 8 3).counts.c1.toNat :=
  ⟨taken_of_check _ _ _ (by decide +kernel), taken_of_check _ _ _ (by decide +kernel),
    taken_of_check _ _ _ (by decide +kernel), taken_of_check _ _ _ (by decide +kernel), by decide, by decide, by decide⟩
/-- A scan forward from record 5 for ALARM records (kind code 0Eh), until the first match. -/
def scanOps : List Byte := num 5 ++ [1#8, 0#8, 4#8, 1#8, 1#8, 14#8, 0#8, 0#8, 0#8, 0#8, 0#8, 0x0D#8]
theorem wit_JournalReadsAndScans_scan :
    Taken .journalScan (fr .m scanOps) (panel journaled) ∧ kindCode .alarm = 14 ∧
      records.retained = [rec 4 .posting (some .a) 0 0] ++ rec 5 .dispenseEnd (some .b) 0 0 ::
        [rec 9 .gap none 8 3, rec 10 .alarm none 0 0, rec 11 .dispenseEnd (some .a) 0 0, rec 12 .alarm none 0 0] :=
  taken_and (by decide +kernel) (by decide)
theorem wit_JournalReadsAndScans_teller :
    Taken .journalScan (fr .a scanOps) journaled ∧
      Taken .journalScan (fr .a (num 5 ++ [3#8] ++ scanOps.drop 5)) journaled ∧
      Taken .journalScan (fr .a (num 3 ++ scanOps.drop 4)) journaled :=
  ⟨taken_of_check _ _ _ (by decide +kernel), taken_of_check _ _ _ (by decide +kernel),
    taken_of_check _ _ _ (by decide +kernel)⟩
theorem wit_TrimAndSync :
    Taken .trim (fr .s (num 10)) journaled ∧ Taken .trim (fr .s (num 3)) journaled ∧
      Taken .trim (fr .s (num 13)) journaled ∧ Taken .sync (fr .a []) journaled ∧
      Taken .sync (fr .a []) { stocked with journal := Journal.fresh } ∧ journaled.awaited .a = none :=
  ⟨taken_of_check _ _ _ (by decide +kernel), taken_of_check _ _ _ (by decide +kernel),
    taken_of_check _ _ _ (by decide +kernel), taken_of_check _ _ _ (by decide +kernel),
    taken_of_check _ _ _ (by decide +kernel), by decide +kernel⟩
theorem test_trim_removes :
    (after [.trim (fr .s (num 10))] journaled).journal.retained =
      [rec 11 .dispenseEnd (some .a) 0 0, rec 12 .alarm none 0 0] := by decide +kernel
/-- A SYNC of window A waits for record 14, and a dispense's end for record 13. -/
def syncing : State :=
  { journaled with
    journal :=
      { records with
        write := .writing, writing := true
        waitingDone := [⟨.a, { OpDone.zero .dispense with closing := 13 }⟩] }
    ports := { journaled.ports with a := { journaled.ports.a with held := some ⟨0x63#8, 7#8, false, .awaiting 14⟩ } } }
theorem wit_TrimAndSync_timeout :
    runs syncing = true ∧ (syncing.ports.get .a).held = some ⟨0x63#8, 7#8, false, .awaiting 14⟩ := by decide +kernel
/-- A duress-marked SYNC that waits leaves the duress pending mark with its answer before READY, and none in READY (R184). -/
theorem test_sync_answer_duress :
    let s :=
      { syncing with
        startUp := ⟨.purge, .powerUp⟩
        ports := { syncing.ports with a := { syncing.ports.a with held := some ⟨0x63#8, 7#8, true, .awaiting 13⟩ } } }
    runs s = true ∧
      [Instr.syncTimeout .a, .writeComplete].all
        (fun c =>
          (after [c] s).ports.a.duressPending &&
            !(after [c] { s with startUp := ⟨.ready, .powerUp⟩ }).ports.a.duressPending) = true := by decide +kernel
theorem wit_WritesMakeDurable :
    runs syncing = true ∧ syncing.journal.writing = true ∧ syncing.journal.endHold = [] ∧
      syncing.journal.staging = rec 13 .alarm none 0 0 :: [rec 14 .alarm none 0 0] ∧ syncing.journal.attempts < 2 := by
  decide +kernel
theorem wit_WritesMakeDurable_stalled :
    let s := after [.writeFailed, .writeFailed] syncing
    2 ≤ s.journal.attempts ∧ s.journal.writing = true ∧ (after [.writeFailed] s).journal.write = .stalled ∧
      runs (after [.writeFailed] s) = true := by decide +kernel

/-- A dispense's end waits for room while the staging queue is written out (R163). -/
theorem wit_WritesMakeDurable_held :
    let s :=
      { syncing with
        dispenses := syncing.dispenses.set .a { Dispense.idle with state := .delaying, startSequence := 3, amount := 100, ending := true }
        journal := { syncing.journal with endHold := [.dispense .a 5 Quad.zero false none .none] } }
    runs s = true ∧ s.journal.writing = true ∧ s.journal.staging = rec 13 .alarm none 0 0 :: [rec 14 .alarm none 0 0] ∧
      s.journal.next = some 15 ∧ OtherAtRest .a s ∧ s.path.timers = [] ∧
      (after [.writeComplete] s).journal.staging.map (fun r => (r.sequence, r.outcome)) = [(14, 1), (15, 5)] := by
  decide +kernel

/-! ### The ports -/

theorem wit_PortChecksComeFirst :
    stocked.powered = true ∧ Quiet stocked ∧ (stocked.ports.get .a).held = none ∧ stocked.startUp.phase = .ready ∧
      Request.permitted .trim .a = false ∧ Request.permitted .post .a = true ∧ Request.lengthOk .post 4 = false ∧
      (syncing.ports.get .a).held.isSome :=
  ⟨by decide +kernel, quiet_of_check _ (by decide +kernel), by decide +kernel, by decide +kernel, by decide, by decide,
    by decide, by decide +kernel⟩
theorem wit_PortChecksComeFirst_starting :
    let s := { stocked with startUp := ⟨.purge, .powerUp⟩ }
    s.powered = true ∧ Quiet s ∧ s.startUp.phase ≠ .ready ∧ s.heard .a :=
  ⟨by decide +kernel, quiet_of_check _ (by decide +kernel), by decide +kernel, fun h => by cases h⟩
theorem wit_FaultsAndTransmitters :
    (panel stocked).powered = true ∧ (panel stocked).heard .m ∧ (syncing.ports.get .a).held.isSome ∧
      Taken .clearFaults (fr .a []) stocked :=
  ⟨by decide +kernel, fun _ => by decide +kernel, by decide +kernel, taken_of_check _ _ _ (by decide +kernel)⟩
/-- The gap ends the frame that was begun; a frame begun at another port goes on (R177). -/
theorem test_gap_discards_frame :
    let s := stocked.onBytes .a [0xA5#8, 4#8]
    (s.ports.get .a).receiver = .inFrame [4#8] ∧ ((after [.frameGapTimeout .a] s).ports.get .a).receiver = .hunting ∧
      ((after [.frameGapTimeout .b] s).ports.get .a).receiver = .inFrame [4#8] := by decide +kernel
/-- After reset a notice is on port S's line and two wait; a request answered there waits behind it. -/
theorem wit_FaultsAndTransmitters_notice :
    quietCheck State.reset = true ∧ State.reset.restartSending = false ∧ State.reset.alarm.changed = false ∧
      (State.reset.ports.get .s).transmitter = .notice (.restriction 0 Causes.coldOnly) 0 false 2 ∧
      (State.reset.ports.get .s).held = none ∧ State.reset.noticesFlow .s = true ∧
      (State.reset.ports.get .s).notices.get .moduleFault = some ⟨.moduleFault (.ready .complete), 1⟩ ∧
      [NoticeKind.alarmChange, .restriction, .grant, .claimEnded, .opDone, .present, .cassetteLow].all
        (fun k => ((State.reset.ports.get .s).notices.get k).isNone) = true := by decide +kernel
theorem wit_FaultsAndTransmitters_reply :
    let s := after [.status (fr .a [1#8])] State.reset
    s.alarm.changed = false ∧ (match (s.ports.get .a).held, (s.ports.get .a).transmitter with
      | some ⟨_, _, _, .waiting _⟩, .notice _ _ _ _ => true
      | _, _ => false) = true ∧
      (match ((after [.frameSent .a] s).ports.get .a).transmitter with
        | .reply _ 0 => true
        | _ => false) = true := by decide +kernel
/-- POSITION_READ's report passes 250 bytes, so its reply goes in two parts, the first of 249 bytes behind its count (R202). -/
theorem wit_FaultsAndTransmitters_cut :
    (match ((after [.positionRead (fr .a [])] stocked).ports.get .a).transmitter with
      | .reply r 1 => (r.parts.map List.length, ((r.parts.headD []).headD 0#8).toNat, ((r.body 1).getD 3 0#8).toNat) ==
          ([250, 63], 249, 0x40)
      | _ => false) = true := by decide +kernel

theorem wit_ApprovalsAndReports :
    Taken .positionRead (fr .a []) stocked ∧ Taken .approve (fr .s [1#8, 2#8]) stocked ∧
      Taken .approve (fr .s [3#8, 1#8]) stocked ∧ Taken .approve (fr .s [3#8, 2#8]) stocked ∧
      Taken .status (fr .b [1#8]) stocked ∧ Taken .status (fr .s [4#8]) stacked ∧ Taken .status (fr .a [4#8]) stacked ∧
      Taken .status (fr .b [4#8]) stacked ∧ Taken .status (fr .m [3#8]) (panel stocked) ∧ runs stocked = true :=
  ⟨taken_of_check _ _ _ (by decide +kernel), taken_of_check _ _ _ (by decide +kernel),
    taken_of_check _ _ _ (by decide +kernel), taken_of_check _ _ _ (by decide +kernel),
    taken_of_check _ _ _ (by decide +kernel), taken_of_check _ _ _ (by decide +kernel),
    taken_of_check _ _ _ (by decide +kernel), taken_of_check _ _ _ (by decide +kernel),
    taken_of_check _ _ _ (by decide +kernel), by decide +kernel⟩
/-- A check word that fails is reported as failing and adds INTEGRITY (R9, R12). -/
theorem wit_ApprovalsAndReports_unsound :
    let s := { stocked with position := { stocked.position with branchCash := ⟨0, 0, false⟩ } }
    Taken .positionRead (fr .a []) s ∧ (s.position.account .branchCash).intact = false ∧ s.auditRequired = false ∧
      (after [.positionRead (fr .a [])] s).position.causes.integrity = true :=
  taken_and (by decide +kernel) (by decide +kernel)

/-- The operands of CLOCK_SET: 2024-02-29 23:59:59. -/
def leapDay : List Byte := [7#8, 0xE8#8, 2#8, 29#8, 23#8, 59#8, 59#8]
theorem wit_ClockCountsAndIsSet :
    Taken .clockSet (fr .s leapDay) stocked ∧ RoomFor 1 1 stocked ∧ stocked.journal.next = some 3 ∧
      Taken .clockSet (fr .s [7#8, 0xE7#8, 2#8, 29#8, 0#8, 0#8, 0#8]) stocked ∧ quietCheck stocked = true :=
  taken_and (by decide +kernel) ⟨by decide +kernel, by decide +kernel, taken_of_check _ _ _ (by decide +kernel), by decide +kernel⟩
/-- From 2000-01-01 00:00:00 to 2024-02-29 23:59:59 there are 8,826 days less one second (R190). -/
theorem test_clock_set_leap_day : (after [.clockSet (fr .s leapDay)] stocked).clock = ⟨762566399#32, false⟩ := by decide +kernel
theorem test_tick_past_calendar :
    (after [.clockTick] { stocked with clock := ⟨3155759999#32, false⟩ }).clock = ⟨3155760000#32, true⟩ ∧
      (after [.clockTick] { stocked with clock := ⟨4294967295#32, true⟩ }).clock = ⟨0#32, true⟩ := by decide +kernel

/-! ### Settings and start-up -/

/-- No note is anywhere but one of D3 in the RETRACT BIN. -/
def emptied : State :=
  { stocked with
    position :=
      { stocked.position with
        cassettes := State.reset.position.cassettes, reject := Quad.zero, retract := ⟨0, 0, 1, 0⟩ } }
theorem wit_SetChecksAndApplies_values :
    Taken .setSetting (fr .s [1#8, 2#8, 0#8, 0#8, 0#8, 0x50#8]) emptied ∧ emptied.anyOpInFlight = false ∧
      Ix.all.all (fun j => (emptied.position.cassettes.get j).intact) = true ∧ RoomFor 1 1 emptied ∧
      emptied.journal.next = some 3 ∧ Taken .setSetting (fr .s [1#8, 3#8, 0#8, 0#8, 0#8, 0x50#8]) emptied ∧
      Taken .setSetting (fr .s [5#8, 0#8, 0#8, 0#8, 0#8, 0x1A#8]) stocked ∧
      Taken .setSetting (fr .s [1#8, 1#8, 0#8, 0#8, 0x10#8, 0#8]) picking ∧ picking.anyOpInFlight = true :=
  taken_and (by decide +kernel)
    ⟨by decide +kernel, by decide +kernel, by decide +kernel, by decide +kernel, taken_of_check _ _ _ (by decide +kernel),
      taken_of_check _ _ _ (by decide +kernel), taken_of_check _ _ _ (by decide +kernel), by decide +kernel⟩
theorem wit_SetChecksAndApplies_others :
    [0, 2, 3, 4, 6, 7, 8, 9, 10, 11, 12, 13, 14, 15].all (fun n =>
      takenCheck .setSetting (fr .s [BitVec.ofNat 8 n, 1#8, 3#8, 0#8, 0#8, 1#8]) emptied) = true := by decide +kernel
/-- The present time-out's range ends at 5 and 120 s (R193). -/
theorem test_set_clamps :
    (after [.setSetting (fr .s [10#8, 0#8, 0#8, 0#8, 0#8, 4#8])] stocked).settings.presentTimeout = 5 ∧
      (after [.setSetting (fr .s [10#8, 0#8, 0#8, 0#8, 0#8, 121#8])] stocked).settings.presentTimeout = 120 := by
  decide +kernel
/-- A denomination with notes in the RETRACT BIN alone is IN_USE (R195): the setting stays. -/
theorem test_set_in_use :
    (after [.setSetting (fr .s [1#8, 3#8, 0#8, 0#8, 0#8, 0x50#8])] emptied).settings = emptied.settings := by decide +kernel

/-- A cassette's mode is IN_USE while it holds notes, and the refusal names no place (R195, R202). -/
theorem wit_SetChecksAndApplies_mode :
    Taken .setSetting (fr .s [2#8, 1#8, 1#8, 1#8, 0#8, 0#8]) stocked ∧ stocked.anyOpInFlight = false ∧
      0 < (stocked.position.cassettes.get .i1).counts.total ∧
      ((after [.setSetting (fr .s [2#8, 1#8, 1#8, 1#8, 0#8, 0#8])] stocked).answered .s).map (fun r => (r.reason, r.results)) =
        some (some .inUse, .none) :=
  taken_and (by decide +kernel) ⟨by decide +kernel, by decide +kernel, by decide +kernel⟩

/-- The SETTING record of a cassette's setting holds the setting and the cassette's number in its extra field, of a setting without a
number the setting alone; an index beside DEPOSIT is answered OK (R196; notes/assumptions/23.md, 109.md). -/
theorem test_set_extra_and_deposit :
    let extra (ops : List Byte) (s : State) : Option Nat :=
      ((after [.setSetting (fr .s ops)] s).journal.staging.getLast?).map (fun r => r.extra)
    extra [3#8, 2#8, 0#8, 0#8, 0#8, 0x50#8] stocked = some 0x0302 ∧
      extra [10#8, 9#8, 0#8, 0#8, 0#8, 30#8] stocked = some 0x0A00 ∧
      ((after [.setSetting (fr .s [2#8, 1#8, 3#8, 2#8, 5#8, 6#8])] emptied).answered .s).map (fun r => r.status) = some .ok := by
  decide +kernel

def off : State := after [.powerLoss] picking
theorem wit_ResetsBeginStartUp_supply :
    off.powered = false ∧ off.position.retract.total < Config.retractNotes ∧ picking.powered = true ∧
      quietCheck picking = true ∧ off.journal.durable < off.position.lastApplied ∧ off.position.lastApplied < 4294967295 := by
  decide +kernel
theorem wit_ResetsBeginStartUp_warm :
    let s := { stocked with journal := Journal.fresh }
    s.powered = true ∧ s.journal.staging = [] ∧ s.position.retract.total < Config.retractNotes ∧
      picking.journal.staging ≠ [] ∧ Taken .restart (fr .s []) s ∧
      (after [.restart (fr .s [])] s).restartSending = true ∧ s.restartSending = false :=
  ⟨by decide +kernel, by decide +kernel, by decide +kernel, by decide +kernel, taken_of_check _ _ _ (by decide +kernel),
    by decide +kernel, by decide +kernel⟩
/-- RESET_LINE with two records staged: the second of them is written last, and the warm start-up goes on. -/
def checkingWrites : State := after [.resetLine, .writeComplete] { stocked with ports := State.reset.ports }
theorem wit_ResetsBeginStartUp_last_write :
    checkingWrites.startUp = ⟨.check, .warm .resetLine⟩ ∧ checkingWrites.journal.writing = true ∧
      checkingWrites.journal.staging.length = 1 ∧ checkingWrites.journal.endHold = [] ∧
      checkingWrites.journal.waitingDone = [] ∧ checkingWrites.dispenses = ⟨Dispense.idle, Dispense.idle⟩ ∧
      checkingWrites.claim.waiting = [] ∧
      checkingWrites.claim.owner = (if checkingWrites.escrow.stack = [] then .none else .hold) ∧
      checkingWrites.ports = ⟨PortState.reset, PortState.reset, PortState.reset, PortState.reset⟩ ∧
      checkingWrites.position.retract.total < Config.retractNotes ∧
      checkingWrites.path = { state := .purging, pick := none, draw := none, purge := none, timers := [] } := by decide +kernel
theorem wit_ResetsBeginStartUp_last_write_kept : KeptAtReset checkingWrites checkingWrites := by
  unfold KeptAtReset AlarmIs DepositoryIs; decide +kernel
/-- An OP_DONE that waits on the last record staged outlives the warm reset, and is raised when that record is written out (R92, R174). -/
theorem wit_ResetsBeginStartUp_done :
    let d : OpDone := { OpDone.zero .dispense with closing := 2 }
    let s := { checkingWrites with journal := { checkingWrites.journal with waitingDone := [⟨.a, d⟩] } }
    s.startUp = ⟨.check, .warm .resetLine⟩ ∧ s.journal.staging.map (fun r => r.sequence) = [2] ∧
      (after [.resetLine] { stocked with journal := { stocked.journal with waitingDone := [⟨.a, d⟩] } }).journal.waitingDone =
        [⟨.a, d⟩] ∧
      (after [.writeComplete] s).ports.a.notices.opDone = some ⟨.opDone d, 1⟩ := by decide +kernel
/-- A reset is found here by its start-up: zone 4 latched and its loop NORMAL again, zone 9 in entry timing, an envelope on its way, an
INSERT with a note of its bundle on the drum, and C1 taken away. -/
def interrupted : State :=
  let s := withZone 9 (entering9.zone 9) latched
  { s with
    escrow := { toDrum.escrow with stack := [⟨⟨1, 0, 0, 0⟩, Quad.zero, 0, 0, false, false⟩] }
    depository := dropping.depository
    pins := { s.pins with cassettePresent := s.pins.cassettePresent.set .i1 false }
    journal := Journal.fresh
    position := { s.position with lastApplied := 0 } }
/-- What the battery backs, and start-up's own steps on it (R26, R116, R134, R158). -/
theorem wit_ResetsBeginStartUp_kept :
    let t := after [.resetLine] interrupted
    interrupted.powered = true ∧ interrupted.journal.staging = [] ∧ interrupted.position.retract.total < Config.retractNotes ∧
      interrupted.foundGone .i1 = true ∧ t.startUp.phase = .purge ∧
      ((t.zone 4).state, (t.zone 6).state, (t.zone 9).state) = (.pendingRestored, .pendingRestored, .entryTiming) ∧
      (t.zone 9).entryTimer = some t.settings.entryDelay ∧ (t.zone 3).state = .pendingRestored ∧
      t.depository.slot = .drop ∧ t.depository.clearing = some .atStartUp ∧
      t.depository.envelope = dropping.depository.envelope ∧
      t.escrow.stack = [⟨⟨1, 0, 0, 0⟩, Quad.zero, 0, 0, true, false⟩] ∧ t.escrow.declared = toDrum.escrow.declared ∧
      t.escrow.purpose = toDrum.escrow.purpose ∧ t.position.discrepancy = ⟨60, 0, 0, 0⟩ ∧
      t.position.causes.unauthorisedRemoval = true ∧ t.position.reject = ⟨1, 0, 2, 0⟩ := by decide +kernel
/-- A JAMMED slot stays JAMMED, and a cold start clears an envelope reported in the path (R134). -/
theorem wit_ResetsBeginStartUp_slot :
    let jam := { slotJammed with journal := Journal.fresh }
    jam.powered = true ∧ (after [.resetLine] jam).depository.slot = .jammed ∧
      (after [.supplyApplied false true true] off).depository.clearing = some .atStartUp ∧
      (after [.supplyApplied false true true] off).depository.slot = .drop ∧
      (after [.supplyApplied false true false] off).depository.slot = .closed := by decide +kernel
theorem wit_StartUpEnds :
    let s := { stocked with startUp := ⟨.purge, .powerUp⟩ }
    s.startUp.phase = .purge ∧ quietCheck s = true ∧ s.path.purge = none ∧ s.depository.clearing = none ∧
      s.ports.a.duressPending = false ∧ s.ports.b.duressPending = false ∧ s.journal.eventRoom = true ∧
      s.journal.next = some 3 := by decide +kernel
theorem wit_StartUpEnds_duress :
    let s :=
      { stocked with
        startUp := ⟨.purge, .powerUp⟩
        ports := { stocked.ports with b := { stocked.ports.b with duressPending := true } } }
    s.startUp.phase = .purge ∧ quietCheck s = true ∧ s.path.purge = none ∧ s.depository.clearing = none ∧
      (s.ports.get Teller.b.port).duressPending = true ∧ (s.zone 15).inputActive = false ∧ s.alarm.eligible 15 = true ∧
      (s.zone 15).config.type = .holdup ∧ (s.zone 15).state = .quiet := by decide +kernel
/-- The purge of start-up has not ended: nothing happens. -/
theorem wit_StartUpEnds_not_yet :
    let s := after [.supplyApplied false false false] State.manufactured
    s.startUp.phase = .purge ∧ s.path.purge ≠ none ∧ quietCheck s = true := by decide +kernel

/-! ### The laws and the formats -/

theorem wit_StepKeepsConservation : Conserved stocked := by
  constructor <;> intro k <;> cases k <;> decide +kernel
theorem wit_StepKeepsAlarmDerived : AlarmDerived latched := alarmDerived_of_check _ (by decide +kernel)
theorem wit_FrameReadsBack :
    (Instr.jamClearSlot (fr .s [2#8])).request? = some (0x40#8, fr .s [2#8]) ∧
      (Instr.jamClearSlot (fr .s [2#8])).wellFormed = true ∧ (requestBytes 0x40#8 (fr .s [2#8])).length = 8 := by decide
/-- Two bytes of noise, then the frame: the receiver hunts past them; a gap in the frame discards it (R176, R177). -/
theorem wit_FrameReadsBack_line :
    stocked.powered = true ∧ (stocked.ports.get .s).receiver = .hunting ∧ (∀ b ∈ [0x5A#8, 0x00#8], b ≠ 0xA5#8) ∧
      ((stocked.onBytes .s ([0x5A#8, 0x00#8] ++ requestBytes 0x40#8 (fr .s [2#8]))).pending =
        [.jamClearSlot (fr .s [2#8])]) ∧
      ((stocked.onBytes .s [0xA5#8, 4#8]).ports.get .s).receiver = .inFrame [4#8] ∧
      ((stocked.onBytes .s [0xA5#8, 4#8]).onLine .s .gap).pending = [.frameGapTimeout .s] := by decide +kernel
theorem wit_MixIsBestCandidate : [Ix.i2, .i1, .i4, .i3].Perm Ix.all := by decide
theorem wit_AmountsReadBack :
    balanceInRange (-999999999) = true ∧ balanceInRange 999999999 = true ∧ balanceInRange 1000000000 = false := by decide
theorem test_amount_bytes :
    writeU4 28040 = [0#8, 2#8, 0x80#8, 0x40#8] ∧ readU4 [0#8, 2#8, 0x80#8, 0x40#8] = .ok 28040 := by decide
end Sys2Proof.Machine
end

section
/-! The first law (R3): the sum over the places that it speaks of, and what a change of the position or of the bundle stack makes of it. -/
namespace Sys2Proof.Machine

/-! ## The two sides of R3, as a sum over the places -/

/-- The notes of one denomination in the four cassettes. -/
def cassetteNotes (cs : Quad Cassette) (d : Ix) : Int :=
  (cs.c1.counts.get d : Int) + cs.c2.counts.get d + cs.c3.counts.get d + cs.c4.counts.get d

/-- What the places hold of one denomination, with the discrepancy, less what the flows say (R3). -/
def Position.balance (p : Position) (stack : List Bundle) (d : Ix) : Int :=
  cassetteNotes p.cassettes d + (stackNotes stack).get d + p.transit.get d + p.pockets.a.get d + p.pockets.b.get d +
      p.reject.get d + p.retract.get d + p.discrepancy.get d -
    ((p.flows.opening.get d : Int) + p.flows.loaded.get d + p.flows.accepted.get d - p.flows.taken.get d -
      p.flows.returned.get d - p.flows.unloaded.get d)

/-- A cassette that is not there, or not yet counted, is booked with no notes. -/
def Cassette.emptySlot (c : Cassette) : Prop := c.state = .absent ∨ c.state = .uncounted → c.counts = Quad.zero

/-- The law of conservation, said of what it speaks of: the position and the bundle stack. -/
def Balanced (p : Position) (stack : List Bundle) : Prop :=
  (∀ d : Ix, p.balance stack d = 0) ∧ ∀ k : Ix, (p.cassettes.get k).emptySlot

theorem conserved_iff (s : State) : Conserved s ↔ Balanced s.position s.escrow.stack := by
  unfold Conserved Balanced
  refine and_congr (forall_congr' fun d => ?_) Iff.rfl
  unfold State.held State.flowed Position.balance cassetteNotes
  omega

/-- What the law does not speak of is free. -/
@[simp] theorem balanced_mk (p : Position) (suspect suspectIn suspectOut : Nat) (a b c : Account) (g : Word32)
    (causes : Causes) (fault : Option IntegrityFault) (last : Nat) (stack : List Bundle) :
    Balanced
        { p with
          suspect := suspect, suspectIn := suspectIn, suspectOut := suspectOut, drawerA := a, drawerB := b, branchCash := c,
          generation := g, causes := causes, integrityFault := fault, lastApplied := last }
        stack ↔
      Balanced p stack := Iff.rfl

@[simp] theorem balanced_setAccount (p : Position) (a : AccountId) (r : Account) (stack : List Bundle) :
    Balanced (p.setAccount a r) stack ↔ Balanced p stack := by
  cases a <;> exact Iff.rfl

/-! ## Counts -/

@[simp] theorem Quad.get_plus (q : Quad Nat) (d e : Ix) (n : Nat) :
    (Quad.plus q d n).get e = q.get e + if e = d then n else 0 := by
  unfold Quad.plus
  by_cases h : e = d
  · subst h; simp
  · simp [Quad.get_set_other _ _ _ _ h, h]

@[simp] theorem Quad.get_minus (q : Quad Nat) (d e : Ix) (n : Nat) :
    (Quad.minus q d n).get e = q.get e - if e = d then n else 0 := by
  unfold Quad.minus
  by_cases h : e = d
  · subst h; simp
  · simp [Quad.get_set_other _ _ _ _ h, h]

@[simp] theorem Quad.get_zip {α β γ : Type} (f : α → β → γ) (p : Quad α) (q : Quad β) (k : Ix) :
    (Quad.zip f p q).get k = f (p.get k) (q.get k) := by
  cases k <;> rfl

@[simp] theorem Quad.get_zero (k : Ix) : Quad.zero.get k = 0 := Quad.get_all 0 k

@[simp] theorem Quad.get_toInt (q : Quad Nat) (k : Ix) : q.toInt.get k = (q.get k : Int) := by
  cases k <;> rfl

/-- Counts that add up to nothing hold nothing. -/
theorem Quad.get_eq_zero_of_total (q : Quad Nat) (h : q.total = 0) (k : Ix) : q.get k = 0 := by
  unfold Quad.total at h
  cases k <;> simp only [Quad.get] <;> omega

theorem Quad.eq_zero_of_total (q : Quad Nat) (h : q.total = 0) : q = Quad.zero := by
  have e := Quad.get_eq_zero_of_total q h
  have e1 := e .i1; have e2 := e .i2; have e3 := e .i3; have e4 := e .i4
  simp only [Quad.get] at e1 e2 e3 e4
  cases q
  simp_all [Quad.zero, Quad.all]

/-! ## Cassettes -/

theorem cassetteNotes_set (cs : Quad Cassette) (k : Ix) (c : Cassette) (d : Ix) :
    cassetteNotes (cs.set k c) d = cassetteNotes cs d + c.counts.get d - (cs.get k).counts.get d := by
  cases k <;> simp only [cassetteNotes, Quad.set, Quad.get] <;> omega

/-- A state that R5 derives is neither ABSENT nor UNCOUNTED. -/
theorem Cassette.derivedState_counted (c : Cassette) : c.derivedState ≠ .absent ∧ c.derivedState ≠ .uncounted := by
  unfold Cassette.derivedState
  (repeat' split) <;> simp

theorem Cassette.rederive_counts (c : Cassette) : c.rederive.counts = c.counts := by
  unfold Cassette.rederive; split <;> rfl

/-- Deriving a state anew leaves a cassette ABSENT or UNCOUNTED exactly where it was. -/
theorem Cassette.rederive_emptySlot (c : Cassette) : c.rederive.emptySlot ↔ c.emptySlot := by
  unfold Cassette.rederive
  split
  · rename_i h
    have hd := c.derivedState_counted
    have hc : c.state ≠ .absent ∧ c.state ≠ .uncounted := by
      constructor <;> (intro e; rw [e] at h; simp [CassetteState.derived] at h)
    simp [Cassette.emptySlot, hd, hc]
  · rfl

/-- One cassette record replaced by one that keeps its counts but for notes that go to, or come from, other places: the law stands
where those places balance, and the new record shows no notes in an empty slot. -/
theorem balanced_of_cassette (p q : Position) (stack stack' : List Bundle) (k : Ix) (c : Cassette) (h : Balanced p stack)
    (hq : q.cassettes = p.cassettes.set k c) (hb : ∀ d, q.balance stack' d = p.balance stack d) (hc : c.emptySlot) :
    Balanced q stack' := by
  refine ⟨fun d => (hb d).trans (h.1 d), fun l => ?_⟩
  rw [hq]
  by_cases e : l = k
  · subst e; simpa using hc
  · rw [Quad.get_set_other _ _ _ _ e]; exact h.2 l

/-- The law stands where the cassettes are as they were and the other places balance. -/
theorem balanced_congr (p q : Position) (stack stack' : List Bundle) (hq : q.cassettes = p.cassettes)
    (hb : ∀ d, q.balance stack' d = p.balance stack d) : Balanced q stack' ↔ Balanced p stack := by
  unfold Balanced
  simp only [hq, hb]

theorem Balanced.transfer {p q : Position} {stack stack' : List Bundle} (h : Balanced p stack)
    (hq : q.cassettes = p.cassettes) (hb : ∀ d, q.balance stack' d = p.balance stack d) : Balanced q stack' :=
  (balanced_congr p q stack stack' hq hb).2 h

/-! ## Places -/

@[simp] theorem Position.setStored_cassettes (p : Position) (x : Store) (q : Quad Nat) :
    (p.setStored x q).cassettes = p.cassettes := by
  cases x <;> rfl

theorem Position.balance_setStored (p : Position) (x : Store) (q : Quad Nat) (stack : List Bundle) (d : Ix) :
    (p.setStored x q).balance stack d = p.balance stack d + q.get d - (p.stored x).get d := by
  cases x with
  | pocket t => cases t <;> simp only [Position.balance, Position.setStored, Position.stored, Pair.set, Pair.get] <;> omega
  | _ => simp only [Position.balance, Position.setStored, Position.stored]; omega

/-- A booking from a place to another keeps the law (R3). -/
theorem balanced_move (p : Position) (src dst : Store) (d : Ix) (n : Nat) (stack : List Bundle) (h : dst ≠ src) :
    Balanced (p.move src dst d n) stack ↔ Balanced p stack := by
  refine balanced_congr _ _ _ _ (by simp [Position.move]) fun e => ?_
  unfold Position.move
  rw [Position.balance_setStored, Position.stored_setStored_other _ _ _ _ h, Position.balance_setStored]
  simp only [Quad.get_plus, Quad.get_minus]
  split
  · subst e; omega
  · omega

/-- Notes taken from a place are in the TAKEN flow (R3). -/
@[simp] theorem balanced_take (p : Position) (src : Store) (d : Ix) (n : Nat) (stack : List Bundle) :
    Balanced (p.take src d n) stack ↔ Balanced p stack := by
  refine balanced_congr _ _ _ _ (by simp [Position.take]) fun e => ?_
  have hf (q : Position) (x : Quad Nat) :
      Position.balance { q with flows := { q.flows with taken := x } } stack e =
        q.balance stack e + x.get e - q.flows.taken.get e := by
    simp only [Position.balance]; omega
  have ht : (p.setStored src (Quad.minus (p.stored src) d (min n ((p.stored src).get d)))).flows = p.flows := by
    cases src <;> rfl
  dsimp only [Position.take]
  rw [hf, ht, Position.balance_setStored, Quad.get_plus, Quad.get_minus]
  split
  · subst e; omega
  · omega

/-- A discrepancy replaced. -/
theorem Position.balance_discrepancy (p : Position) (x : Quad Int) (stack : List Bundle) (d : Ix) :
    Position.balance { p with discrepancy := x } stack d = p.balance stack d + x.get d - p.discrepancy.get d := by
  simp only [Position.balance]; omega

theorem Position.setStored_discrepancy (p : Position) (x : Store) (q : Quad Nat) :
    (p.setStored x q).discrepancy = p.discrepancy := by
  cases x <;> rfl

/-- A shortage keeps the law (R1, R3). -/
@[simp] theorem balanced_shortage (p : Position) (src : Store) (stack : List Bundle) :
    Balanced (p.shortage src) stack ↔ Balanced p stack := by
  refine balanced_congr _ _ _ _ (by simp [Position.shortage]) fun e => ?_
  dsimp only [Position.shortage]
  rw [Position.balance_discrepancy, Position.balance_setStored, Position.setStored_discrepancy, Quad.get_zip, Quad.get_zero]
  omega

/-- A surplus keeps the law (R1, R3). -/
@[simp] theorem balanced_surplus (p : Position) (dst : Store) (d : Ix) (n : Nat) (stack : List Bundle) :
    Balanced (p.surplus dst d n) stack ↔ Balanced p stack := by
  refine balanced_congr _ _ _ _ (by simp [Position.surplus]) fun e => ?_
  dsimp only [Position.surplus]
  rw [Position.balance_discrepancy, Position.balance_setStored, Position.setStored_discrepancy, Quad.get_plus]
  by_cases h : e = d
  · subst h; simp; omega
  · simp [Quad.get_set_other _ _ _ _ h, h]

/-- All the notes of a dispense taken from its pocket keep the law (R3, R85). -/
@[simp] theorem balanced_takeAll (p : Position) (t : Teller) (taken : Quad Nat) (stack : List Bundle) :
    Balanced (p.takeAll t taken) stack ↔ Balanced p stack := by
  simp only [Position.takeAll, Ix.all, List.foldl_cons, List.foldl_nil, balanced_take]

/-! ## The bundle stack -/

@[simp] theorem stackNotes_cons (b : Bundle) (l : List Bundle) (d : Ix) :
    (stackNotes (b :: l)).get d = b.notes.get d + (stackNotes l).get d := by
  simp [stackNotes]

@[simp] theorem stackNotes_append (l m : List Bundle) (d : Ix) :
    (stackNotes (l ++ m)).get d = (stackNotes l).get d + (stackNotes m).get d := by
  induction l with
  | nil => simp [stackNotes]
  | cons b l ih => simp [ih]; omega

@[simp] theorem stackNotes_nil (d : Ix) : (stackNotes []).get d = 0 := Quad.get_zero d

/-- The law speaks of the stack's notes alone. -/
theorem balanced_stack (p : Position) (l m : List Bundle) (h : ∀ d, (stackNotes l).get d = (stackNotes m).get d) :
    Balanced p l ↔ Balanced p m := by
  refine balanced_congr _ _ _ _ rfl fun d => ?_
  unfold Position.balance
  rw [h d]

/-- A bundle without notes on top of the stack changes nothing. -/
theorem balanced_cons_empty (p : Position) (b : Bundle) (l : List Bundle) (h : b.notes.total = 0) :
    Balanced p (b :: l) ↔ Balanced p l := by
  refine balanced_stack _ _ _ fun d => ?_
  simp [Quad.get_eq_zero_of_total _ h]

/-- The TRUNCATED flag is none of the notes. -/
@[simp] theorem balanced_cons_truncated (p : Position) (b : Bundle) (x : Bool) (l : List Bundle) :
    Balanced p ({ b with truncated := x } :: l) ↔ Balanced p (b :: l) := Iff.rfl

end Sys2Proof.Machine
end

section
/-! The first law (R3): what each shared operation leaves of it, one simp lemma for each. -/
namespace Sys2Proof.Machine

/-! ## Records, causes, check words, accounts -/

section
variable (st : List Bundle)

@[simp] theorem balanced_applyTo (n : Option Nat) (s : State) :
    Balanced (applyTo n s).position st ↔ Balanced s.position st := by
  rw [applyTo_position, balanced_mk]

@[simp] theorem balanced_stageApplied (d : Draft) (s : State) :
    Balanced (stageApplied d s).2.position st ↔ Balanced s.position st := by
  simp [stageApplied]

@[simp] theorem balanced_eventApplied (d : Draft) (s : State) :
    Balanced (eventApplied d s).2.position st ↔ Balanced s.position st := by
  simp [eventApplied]

@[simp] theorem balanced_addCause (c : AuditCause) (s : State) :
    Balanced (addCause c s).position st ↔ Balanced s.position st := by
  rw [addCause_position, balanced_mk]

@[simp] theorem balanced_integrityFailure (w : GuardedRecord) (s : State) :
    Balanced (integrityFailure w s).position st ↔ Balanced s.position st := by
  rw [integrityFailure_position, balanced_mk]

@[simp] theorem balanced_verifyCassette (k : Ix) (s : State) :
    Balanced (verifyCassette k s).2.position st ↔ Balanced s.position st := by
  unfold verifyCassette; split <;> simp

@[simp] theorem balanced_verifyAccount (a : AccountId) (s : State) :
    Balanced (verifyAccount a s).2.position st ↔ Balanced s.position st := by
  unfold verifyAccount; split <;> simp

@[simp] theorem balanced_verifyCassettes (s : State) :
    Balanced (verifyCassettes s).2.position st ↔ Balanced s.position st := by
  simp [verifyCassettes, Ix.all]

@[simp] theorem balanced_writeAccount (a : AccountId) (b : Int) (c : Nat) (s : State) :
    Balanced (writeAccount a b c s).position st ↔ Balanced s.position st := by
  rw [writeAccount_position, balanced_setAccount]

@[simp] theorem balanced_bumpGeneration (s : State) :
    Balanced (bumpGeneration s).position st ↔ Balanced s.position st := Iff.rfl

@[simp] theorem balanced_stepGeneration (c : Bool) (s : State) :
    Balanced (stepGeneration c s).position st ↔ Balanced s.position st := by
  unfold stepGeneration; split <;> simp

@[simp] theorem balanced_bookBalance (a : AccountId) (v : Int) (s : State) :
    Balanced (bookBalance a v s).2.position st ↔ Balanced s.position st := by
  unfold bookBalance
  simp only []
  (repeat' split) <;> simp

@[simp] theorem balanced_bookCoinDue (a : AccountId) (n : Nat) (s : State) :
    Balanced (bookCoinDue a n s).2.position st ↔ Balanced s.position st := by
  unfold bookCoinDue
  simp only []
  (repeat' split) <;> simp

@[simp] theorem balanced_judgeMix (t : Teller) (x : RemainderTarget) (l : Nat) (m : MixResult) (s : State) :
    Balanced (judgeMix t x l m s).2.position st ↔ Balanced s.position st := by
  unfold judgeMix
  simp only []
  (repeat' split) <;> simp

@[simp] theorem balanced_requestMix (t : Teller) (amount cap : Nat) (order : List Ix) (x : RemainderTarget) (s : State) :
    Balanced (requestMix t amount cap order x s).2.position st ↔ Balanced s.position st := by
  unfold requestMix
  simp only []
  (repeat' split) <;> simp

@[simp] theorem balanced_reMix (t : Teller) (s : State) :
    Balanced (reMix t s).2.position st ↔ Balanced s.position st := by
  unfold reMix
  simp only []
  (repeat' split) <;> simp

/-- A cassette record written with its counts: the law stands where it stood with the record unwritten. -/
theorem balanced_writeCassette (k : Ix) (c : Cassette) (s : State) :
    Balanced (writeCassette k c s).position st ↔ Balanced (s.position.setCassette k c) st := by
  rw [writeCassette_position]
  unfold Balanced
  refine and_congr (forall_congr' fun d => ?_) (forall_congr' fun l => ?_)
  · simp only [Position.balance, Position.setCassette, cassetteNotes_set, Cassette.rederive_counts]
  · by_cases e : l = k
    · subst e; simpa [Cassette.emptySlot] using c.rederive_emptySlot
    · simp [Quad.get_set_other _ _ _ _ e]

theorem balanced_writeCassetteAs (k : Ix) (c : Cassette) (s : State) :
    Balanced (writeCassetteAs k c s).position st ↔ Balanced (s.position.setCassette k c) st := by
  rw [writeCassetteAs_position]
  unfold Balanced
  refine and_congr (forall_congr' fun d => ?_) (forall_congr' fun l => ?_)
  · simp only [Position.balance, Position.setCassette, cassetteNotes_set]
  · by_cases e : l = k
    · subst e; simp [Cassette.emptySlot]
    · simp [Quad.get_set_other _ _ _ _ e]

end

/-! ## Ends -/

@[simp] theorem balanced_finishDispense (t : Teller) (n : Nat) (taken : Quad Nat) (due : Bool) (why : Option Reason)
    (carried : Results) (s : State) (st : List Bundle) :
    Balanced (finishDispense t n taken due why carried s).position st ↔ Balanced s.position st := by
  simp [finishDispense]

@[simp] theorem setOwner_stack (o : Owner) (s : State) : (setOwner o s).escrow.stack = s.escrow.stack := by
  rw [(setOwner_spec o s).2]

@[simp] theorem balanced_finishInsert (o : InsertOp) (why : FeedCause) (s : State) :
    Balanced (finishInsert o why s).position (finishInsert o why s).escrow.stack ↔ Balanced s.position s.escrow.stack := by
  unfold finishInsert
  split
  · rename_i e; simp [e]
  · rename_i b l e
    by_cases h : 0 < b.notes.total
    · have h' : 0 < (Bundle.notes { b with truncated := why.truncates o.intakeEmpty }).total := h
      simp [e, h']
    · have h' : ¬ 0 < (Bundle.notes { b with truncated := why.truncates o.intakeEmpty }).total := h
      simp [e, h', balanced_cons_empty _ b l (by omega)]

@[simp] theorem balanced_finishReturn (o : ReturnOp) (x : ReturnOutcome) (s : State) :
    Balanced (finishReturn o x s).position (finishReturn o x s).escrow.stack ↔ Balanced s.position s.escrow.stack := by
  simp [finishReturn]

@[simp] theorem debitCommit_stack (s : State) : (debitCommit s).2.escrow.stack = s.escrow.stack := by
  unfold debitCommit; simp only []; split <;> simp

@[simp] theorem balanced_debitCommit (s : State) (st : List Bundle) :
    Balanced (debitCommit s).2.position st ↔ Balanced s.position st := by
  unfold debitCommit; simp only []; split <;> simp

@[simp] theorem balanced_finishCommit (o : CommitOp) (x : CommitOutcome) (s : State) :
    Balanced (finishCommit o x s).position (finishCommit o x s).escrow.stack ↔ Balanced s.position s.escrow.stack := by
  simp [finishCommit]

@[simp] theorem balanced_finishPurge (p : Purge) (x : PurgeOutcome) (s : State) :
    Balanced (finishPurge p x s).position (finishPurge p x s).escrow.stack ↔ Balanced s.position s.escrow.stack := by
  unfold finishPurge
  simp only []
  (repeat' split) <;> simp

@[simp] theorem balanced_finishEnd (e : HeldEnd) (s : State) :
    Balanced (finishEnd e s).position (finishEnd e s).escrow.stack ↔ Balanced s.position s.escrow.stack := by
  unfold finishEnd
  (repeat' split) <;> simp

@[simp] theorem balanced_holdOrFinish (e : HeldEnd) (s : State) :
    Balanced (holdOrFinish e s).position (holdOrFinish e s).escrow.stack ↔ Balanced s.position s.escrow.stack := by
  unfold holdOrFinish
  split <;> simp

@[simp] theorem balanced_drainEndHold (n : Nat) (s : State) :
    Balanced (drainEndHold n s).position (drainEndHold n s).escrow.stack ↔ Balanced s.position s.escrow.stack := by
  induction n generalizing s with
  | zero => rfl
  | succ n ih =>
    unfold drainEndHold
    (repeat' split) <;> simp [ih]

@[simp] theorem balanced_endDispense (t : Teller) (n : Nat) (taken : Quad Nat) (due : Bool) (why : Option Reason)
    (carried : Results) (s : State) :
    Balanced (endDispense t n taken due why carried s).position (endDispense t n taken due why carried s).escrow.stack ↔
      Balanced s.position s.escrow.stack := by
  simp [endDispense]

@[simp] theorem balanced_endInsert (o : InsertOp) (why : FeedCause) (s : State) :
    Balanced (endInsert o why s).position (endInsert o why s).escrow.stack ↔ Balanced s.position s.escrow.stack := by
  simp [endInsert]

@[simp] theorem balanced_endReturn (o : ReturnOp) (x : ReturnOutcome) (s : State) :
    Balanced (endReturn o x s).position (endReturn o x s).escrow.stack ↔ Balanced s.position s.escrow.stack := by
  simp [endReturn]

@[simp] theorem balanced_endCommit (o : CommitOp) (x : CommitOutcome) (s : State) :
    Balanced (endCommit o x s).position (endCommit o x s).escrow.stack ↔ Balanced s.position s.escrow.stack := by
  simp [endCommit]

@[simp] theorem balanced_endPurge (x : PurgeOutcome) (s : State) :
    Balanced (endPurge x s).position (endPurge x s).escrow.stack ↔ Balanced s.position s.escrow.stack := by
  unfold endPurge
  simp only []
  (repeat' split) <;> simp

/-! ## Jams and draws -/

@[simp] theorem balanced_jamDispense (t : Teller) (s : State) (st : List Bundle) :
    Balanced (jamDispense t s).position st ↔ Balanced s.position st := by
  simp [jamDispense]

@[simp] theorem balanced_jamEscrow (s : State) :
    Balanced (jamEscrow s).position (jamEscrow s).escrow.stack ↔ Balanced s.position s.escrow.stack := by
  unfold jamEscrow
  simp only [stopTimers_keeps]
  split
  · simp
  · simp only [State.onEscrow_keeps, State.onEscrow_escrow, markJammed_keeps, stopTimers_keeps]
    split
    · rename_i e; simp [e]
    · rename_i b l e
      split
      · simp [e]
      · rename_i h; simp [e, balanced_cons_empty _ b l (by omega)]
  · simp
  · simp

@[simp] theorem balanced_jam (o : MoveOwner) (f : ModuleFault) (x : PurgeOutcome) (s : State) :
    Balanced (jam o f x s).position (jam o f x s).escrow.stack ↔ Balanced s.position s.escrow.stack := by
  cases o <;> simp [jam]

@[simp] theorem balanced_stopDraw (d : Draw) (s : State) :
    Balanced (stopDraw d s).position (stopDraw d s).escrow.stack ↔ Balanced s.position s.escrow.stack := by
  simp [stopDraw]

@[simp] theorem balanced_startDraw (x : DrawSource) (c : DrawCause) (q : Quad Nat) (s : State) :
    Balanced (startDraw x c q s).position (startDraw x c q s).escrow.stack ↔ Balanced s.position s.escrow.stack := by
  unfold startDraw
  simp only []
  split <;> simp

/-- No source of a draw is the RETRACT BIN. -/
theorem DrawSource.place_ne_retract (x : DrawSource) (p : Store) (h : x.place = some p) : Store.retract ≠ p := by
  cases x <;> cases h <;> simp

@[simp] theorem balanced_bookDrawn (d : Draw) (x : Ix) (s : State) (st : List Bundle) :
    Balanced (bookDrawn d x s).position st ↔ Balanced s.position st := by
  unfold bookDrawn
  simp only [State.onPath_keeps, State.onPosition_position]
  split
  · rename_i place h
    split
    · exact balanced_move _ _ _ _ _ _ (d.source.place_ne_retract place h)
    · simp
  · simp

@[simp] theorem balanced_purgeNext (s : State) :
    Balanced (purgeNext s).position (purgeNext s).escrow.stack ↔ Balanced s.position s.escrow.stack := by
  unfold purgeNext
  (repeat' split) <;> simp

@[simp] theorem balanced_startPurge (b : Bool) (l : List DrawSource) (s : State) :
    Balanced (startPurge b l s).position (startPurge b l s).escrow.stack ↔ Balanced s.position s.escrow.stack := by
  simp [startPurge]

@[simp] theorem balanced_leaveShort (d : Draw) (s : State) (st : List Bundle) :
    Balanced (leaveShort d s).position st ↔ Balanced s.position st := by
  unfold leaveShort; split <;> simp

/-! ## Picking and the grant -/

@[simp] theorem balanced_stopShort (t : Teller) (why : ShortCause) (s : State) :
    Balanced (stopShort t why s).position (stopShort t why s).escrow.stack ↔ Balanced s.position s.escrow.stack := by
  unfold stopShort; simp only []; split <;> simp

@[simp] theorem balanced_beginStop (t : Teller) (why : StopReason) (s : State) :
    Balanced (beginStop t why s).position (beginStop t why s).escrow.stack ↔ Balanced s.position s.escrow.stack := by
  simp [beginStop]

@[simp] theorem balanced_advance (n : Nat) (t : Teller) (s : State) :
    Balanced (advance n t s).position (advance n t s).escrow.stack ↔ Balanced s.position s.escrow.stack := by
  induction n generalizing s with
  | zero => rfl
  | succ n ih =>
    have hm : Balanced (reMix t s).2.position (reMix t s).2.escrow.stack ↔ Balanced s.position s.escrow.stack := by simp
    unfold advance
    split
    · simp
    · split
      · simp
      · simp
      · split
        · rename_i e; rw [e] at hm; simpa [ih] using hm
        · rename_i e; rw [e] at hm; split <;> simpa using hm

@[simp] theorem balanced_enterPicking (t : Teller) (s : State) :
    Balanced (enterPicking t s).position (enterPicking t s).escrow.stack ↔ Balanced s.position s.escrow.stack := by
  simp [enterPicking]

@[simp] theorem balanced_pickReported (t : Teller) (s : State) :
    Balanced (pickReported t s).position (pickReported t s).escrow.stack ↔ Balanced s.position s.escrow.stack := by
  unfold pickReported
  simp only []
  (repeat' split) <;> simp

@[simp] theorem balanced_failGrant (t : Teller) (why : Reason) (r : Results) (s : State) :
    Balanced (failGrant t why r s).position (failGrant t why r s).escrow.stack ↔ Balanced s.position s.escrow.stack := by
  simp [failGrant]

@[simp] theorem balanced_grantChecks (t : Teller) (s : State) :
    Balanced (grantChecks t s).position (grantChecks t s).escrow.stack ↔ Balanced s.position s.escrow.stack := by
  unfold grantChecks
  simp only []
  split
  · simp
  · simp
  · split
    · simp
    · split
      · simp
      · split
        all_goals
          rename_i e
          have hm := congrArg (fun x => Balanced x.2.position x.2.escrow.stack) e
          simp only [balanced_requestMix, requestMix_keeps, State.onDispense_keeps, eq_iff_iff] at hm
        · simpa using hm.symm
        · split <;> simpa using hm.symm

@[simp] theorem balanced_grantDispense (t : Teller) (s : State) :
    Balanced (grantDispense t s).position (grantDispense t s).escrow.stack ↔ Balanced s.position s.escrow.stack := by
  unfold grantDispense; split <;> simp

@[simp] theorem balanced_proceedRetract (t : Teller) (s : State) :
    Balanced (proceedRetract t s).position (proceedRetract t s).escrow.stack ↔ Balanced s.position s.escrow.stack := by
  unfold proceedRetract; (repeat' split) <;> simp

@[simp] theorem balanced_proceedDeferred (t : Teller) (s : State) :
    Balanced (proceedDeferred t s).position (proceedDeferred t s).escrow.stack ↔ Balanced s.position s.escrow.stack := by
  unfold proceedDeferred; simp only []; split <;> simp

/-! ## The claim -/

@[simp] theorem balanced_handOn (s : State) :
    Balanced (handOn s).position (handOn s).escrow.stack ↔ Balanced s.position s.escrow.stack := by
  unfold handOn
  (repeat' split) <;> simp

@[simp] theorem balanced_freeClaim (s : State) :
    Balanced (freeClaim s).position (freeClaim s).escrow.stack ↔ Balanced s.position s.escrow.stack := by
  simp [freeClaim]

@[simp] theorem balanced_emptyWaiting (l : List WaitEntry) (s : State) :
    Balanced (emptyWaiting l s).position (emptyWaiting l s).escrow.stack ↔ Balanced s.position s.escrow.stack := by
  induction l generalizing s with
  | nil => rfl
  | cons e l ih => unfold emptyWaiting; cases e <;> simp [ih]

@[simp] theorem balanced_giveUpDeferred (t : Teller) (s : State) :
    Balanced (giveUpDeferred t s).position (giveUpDeferred t s).escrow.stack ↔ Balanced s.position s.escrow.stack := by
  unfold giveUpDeferred; split <;> simp

@[simp] theorem balanced_lockClaim (s : State) :
    Balanced (lockClaim s).position (lockClaim s).escrow.stack ↔ Balanced s.position s.escrow.stack := by
  unfold lockClaim
  simp only []
  (repeat' split) <;> simp

@[simp] theorem balanced_enterDelaying (t : Teller) (s : State) :
    Balanced (enterDelaying t s).position (enterDelaying t s).escrow.stack ↔ Balanced s.position s.escrow.stack := by
  simp [enterDelaying]

@[simp] theorem balanced_endDelay (t : Teller) (s : State) :
    Balanced (endDelay t s).position (endDelay t s).escrow.stack ↔ Balanced s.position s.escrow.stack := by
  unfold endDelay; (repeat' split) <;> simp

/-! ## The alarm unit -/

@[simp] theorem balanced_lockEscrow (s : State) :
    Balanced (lockEscrow s).position (lockEscrow s).escrow.stack ↔ Balanced s.position s.escrow.stack := by
  unfold lockEscrow; (repeat' split) <;> simp

@[simp] theorem balanced_lockEntered (s : State) :
    Balanced (lockEntered s).position (lockEntered s).escrow.stack ↔ Balanced s.position s.escrow.stack := by
  unfold lockEntered; split <;> simp

@[simp] theorem balanced_newRestriction (x y : Effects) (s : State) :
    Balanced (newRestriction x y s).position (newRestriction x y s).escrow.stack ↔ Balanced s.position s.escrow.stack := by
  unfold newRestriction
  simp only []
  (repeat' split) <;> simp

@[simp] theorem balanced_recompute (s : State) :
    Balanced (recompute s).position (recompute s).escrow.stack ↔ Balanced s.position s.escrow.stack := by
  unfold recompute; simp only []; split <;> simp

@[simp] theorem balanced_latch (z : Fin 16) (p : Option Port) (b : Bool) (s : State) :
    Balanced (latch z p b s).position (latch z p b s).escrow.stack ↔ Balanced s.position s.escrow.stack := by
  simp [latch]

@[simp] theorem balanced_activate (z : Fin 16) (p : Option Port) (s : State) :
    Balanced (activate z p s).position (activate z p s).escrow.stack ↔ Balanced s.position s.escrow.stack := by
  unfold activate; (repeat' split) <;> simp

@[simp] theorem balanced_restore (z : Fin 16) (s : State) :
    Balanced (restore z s).position (restore z s).escrow.stack ↔ Balanced s.position s.escrow.stack := by
  unfold restore; split <;> simp

@[simp] theorem balanced_setInput (z : Fin 16) (b : Bool) (s : State) :
    Balanced (setInput z b s).position (setInput z b s).escrow.stack ↔ Balanced s.position s.escrow.stack := by
  unfold setInput; simp only []; (repeat' split) <;> simp

@[simp] theorem balanced_momentary (z : Fin 16) (p : Option Port) (s : State) :
    Balanced (momentary z p s).position (momentary z p s).escrow.stack ↔ Balanced s.position s.escrow.stack := by
  unfold momentary; split <;> simp

@[simp] theorem balanced_judgeReading (z : Fin 16) (x : Reading) (s : State) :
    Balanced (judgeReading z x s).position (judgeReading z x s).escrow.stack ↔ Balanced s.position s.escrow.stack := by
  unfold judgeReading; simp only []; (repeat' split) <;> simp

@[simp] theorem balanced_reJudge (z : Fin 16) (b : Bool) (s : State) :
    Balanced (reJudge z b s).position (reJudge z b s).escrow.stack ↔ Balanced s.position s.escrow.stack := by
  unfold reJudge; split <;> simp

@[simp] theorem balanced_monitorHeard (s : State) :
    Balanced (monitorHeard s).position (monitorHeard s).escrow.stack ↔ Balanced s.position s.escrow.stack := by
  unfold monitorHeard; split <;> simp

@[simp] theorem balanced_hearFrame (p : Port) (s : State) :
    Balanced (hearFrame p s).position (hearFrame p s).escrow.stack ↔ Balanced s.position s.escrow.stack := by
  unfold hearFrame; split <;> simp

@[simp] theorem balanced_settle (s : State) :
    Balanced (settle s).position (settle s).escrow.stack ↔ Balanced s.position s.escrow.stack := by
  unfold settle; split <;> simp

end Sys2Proof.Machine
end

section
/-! The first law (R3): the requests and events as such, and the commands of the position store (01). -/
namespace Sys2Proof.Machine

/-! ## Requests and events -/

theorem raiseRestriction_conserved (s : State) (h : Conserved s) : Conserved (raiseRestriction s) := by
  simpa [conserved_iff] using h

theorem conserved_of_same (s t : State) (hp : t.position = s.position) (he : t.escrow = s.escrow) (h : Conserved s) :
    Conserved t := by
  rw [conserved_iff] at *
  rwa [hp, he]

theorem giveAnswer_keeps_books (p : Port) (x : Answer × State) :
    (giveAnswer p x).position = x.2.position ∧ (giveAnswer p x).escrow = x.2.escrow := by
  obtain ⟨a, s⟩ := x
  cases a <;> simp [giveAnswer]

theorem withRoom_cases (n m : Nat) (s : State) (k : Answer × State) :
    (withRoom n m s k).2 = s ∨ (s.journal.roomCheck n m = none ∧ withRoom n m s k = k) := by
  unfold withRoom
  split
  · exact .inl rfl
  · rename_i e; exact .inr ⟨e, rfl⟩

theorem withRoom_conserved (n m : Nat) (s : State) (k : Answer × State) (h : Conserved s) (hk : Conserved k.2) :
    Conserved (withRoom n m s k).2 := by
  rcases withRoom_cases n m s k with e | ⟨-, e⟩
  · rwa [e]
  · rwa [e]

theorem withMargins_conserved (n m : Nat) (s : State) (k : Answer × State) (h : Conserved s) (hk : Conserved k.2) :
    Conserved (withMargins n m s k).2 := by
  unfold withMargins
  split
  · exact h
  · exact withRoom_conserved n m s k h hk

theorem takeConsuming_conserved (r : Request) (f : Frame) (owner : Bool → State → Answer × State)
    (ho : ∀ (b : Bool) (x : State), Conserved x → Conserved (owner b x).2) (s : State) (h : Conserved s) :
    Conserved (takeConsuming r f owner s) := by
  have heard : Conserved (hearFrame f.port s) := by simpa [conserved_iff] using h
  unfold takeConsuming takeFrame
  simp only []
  split
  · split
    · exact conserved_of_same _ _ (by simp) (by simp) heard
    · refine conserved_of_same _ _ (giveAnswer_keeps_books _ _).1 (giveAnswer_keeps_books _ _).2 ?_
      split
      · unfold passPort
        simp only []
        split
        · exact conserved_of_same _ _ (by simp [refuse]) (by simp [refuse]) heard
        · split
          · exact conserved_of_same _ _ (by simp [refuse]) (by simp [refuse]) heard
          · exact ho _ _ (conserved_of_same _ _ (by simp) (by simp) heard)
      · exact conserved_of_same _ _ (by simp [refuse]) (by simp [refuse]) heard
  · exact h

theorem takeRequest_conserved (r : Request) (f : Frame) (owner : State → Answer × State)
    (ho : ∀ x : State, Conserved x → Conserved (owner x).2) (s : State) (h : Conserved s) :
    Conserved (takeRequest r f owner s) := takeConsuming_conserved r f _ (fun _ => ho) s h

theorem event_conserved (f : State → State) (h : ∀ x, Conserved x → Conserved (f x)) (s : State) (hs : Conserved s) :
    Conserved (event f s) := by
  unfold event
  split
  · exact h s hs
  · exact hs

theorem whenPowered_conserved (f : State → State) (h : ∀ x, Conserved x → Conserved (f x)) (s : State)
    (hs : Conserved s) : Conserved (whenPowered f s) := by
  unfold whenPowered
  split
  · exact h s hs
  · exact hs

theorem foldl_conserved {α : Type} (f : State → α → State) (h : ∀ a x, Conserved x → Conserved (f x a)) (l : List α)
    (s : State) (hs : Conserved s) : Conserved (l.foldl f s) := by
  induction l generalizing s with
  | nil => exact hs
  | cons x l ih => exact ih _ (h x s hs)

/-- A change that keeps the position and the stack keeps the law. -/
theorem conserved_of_books (s t : State) (hp : t.position = s.position) (he : t.escrow.stack = s.escrow.stack)
    (h : Conserved s) : Conserved t := by
  rw [conserved_iff] at *
  rwa [hp, he]

/-! ## The commands of the position store (01) -/

theorem postOwner_conserved (f : Frame) (b : Bool) (s : State) (h : Conserved s) :
    Conserved (postOwner f b s).2 := by
  have hv : Conserved (verifyAccount (postAccount f.port) s).2 := by simpa [conserved_iff] using h
  simp only [postOwner, judgePost, refuse, refuseWith, refuseDigit]
  (repeat' split) <;> with_reducible try assumption
  exact withRoom_conserved _ _ _ _ hv (by simpa [conserved_iff, applyPost, ok] using h)

theorem judgeHandover_conserved (o : HandoverOption) (a : Nat) (x y : AccountId) (s : State) (h : Conserved s) :
    Conserved (judgeHandover o a x y s).2 := by
  have hv : Conserved (verifyAccount y (verifyAccount x s).2).2 := by simpa [conserved_iff] using h
  simp only [judgeHandover, refuse]
  (repeat' split) <;> with_reducible try assumption
  exact withRoom_conserved _ _ _ _ hv (by simpa [conserved_iff, applyHandover, ok] using h)

theorem handoverOwner_conserved (ops : List Byte) (s : State) (h : Conserved s) :
    Conserved (handoverOwner ops s).2 := by
  simp only [handoverOwner, handoverBetween, refuse, refuseDigit, refuseWith]
  (repeat' split) <;> with_reducible first | assumption | exact judgeHandover_conserved _ _ _ _ _ h

/-- The counts a cassette is loaded with come from the LOADED flow (R3, R18). -/
theorem acceptLoad_conserved (k : Ix) (counts : Quad Nat) (s : State) (h : Conserved s)
    (hu : (s.position.cassettes.get k).state = .uncounted) : Conserved (acceptLoad k counts s).2 := by
  rw [conserved_iff] at *
  have empty : (s.position.cassettes.get k).counts = Quad.zero := h.2 k (.inr hu)
  simp only [acceptLoad, ok, stageApplied, balanced_applyTo, applyTo_keeps, stage_keeps, balanced_bumpGeneration,
    bumpGeneration_keeps, balanced_writeCassetteAs, writeCassetteAs_keeps, State.onPosition_keeps, State.onPosition_position]
  refine balanced_of_cassette s.position _ _ _ k _ h rfl (fun d => ?_) ?_
  · simp only [Position.balance, Position.setCassette, cassetteNotes_set, empty, Quad.get_add, Quad.get_zero]
    omega
  · have hd := Cassette.derivedState_counted { s.position.cassettes.get k with counts := counts, pickFailed := false }
    intro e
    rcases e with e | e
    · exact absurd e hd.1
    · exact absurd e hd.2

theorem loadOwner_conserved (ops : List Byte) (s : State) (h : Conserved s) :
    Conserved (loadOwner ops s).2 := by
  have hv (k : Ix) : Conserved (verifyCassette k s).2 := by simpa [conserved_iff] using h
  simp only [loadOwner, loadCassette, refuse]
  (repeat' split) <;> with_reducible try first | assumption | exact hv _
  rename_i hu _ _
  exact withMargins_conserved _ _ _ _ (hv _) (acceptLoad_conserved _ _ _ (hv _) (by simpa using hu))

/-- A cassette record whose counts stay, written with a state that its rule sets and that is a counted cassette's (R3). -/
theorem writeCassetteAs_conserved (k : Ix) (c : Cassette) (s : State) (h : Conserved s)
    (hc : c.counts = (s.position.cassettes.get k).counts) (he : c.emptySlot) : Conserved (writeCassetteAs k c s) := by
  rw [conserved_iff] at *
  rw [balanced_writeCassetteAs]
  simp only [writeCassetteAs_keeps]
  refine balanced_of_cassette s.position _ _ _ k c h rfl (fun d => ?_) he
  simp only [Position.balance, Position.setCassette, cassetteNotes_set, hc]
  omega

theorem writeCassette_conserved (k : Ix) (c : Cassette) (s : State) (h : Conserved s)
    (hc : c.counts = (s.position.cassettes.get k).counts) (he : c.emptySlot) : Conserved (writeCassette k c s) := by
  have k' := writeCassetteAs_conserved k c s h hc he
  rw [conserved_iff] at *
  rw [balanced_writeCassetteAs] at k'
  rw [balanced_writeCassette]
  simpa using k'

theorem unloadBin_conserved (x : UnloadPlace) (s : State) (h : Conserved s) : Conserved (acceptUnloadBin x s).2 := by
  rw [conserved_iff] at *
  simp only [acceptUnloadBin, ok, balanced_stageApplied, stageApplied_keeps, balanced_bumpGeneration, bumpGeneration_keeps,
    State.onPosition_keeps, State.onPosition_position]
  refine h.transfer ?_ fun d => ?_
  · cases x <;> rfl
  · cases x <;> simp only [Position.unloadBin, Position.balance, Quad.get_add, Quad.get_zero] <;> omega

theorem releaseCassette_conserved (k : Ix) (s : State) (h : Conserved s) : Conserved (releaseCassette k s).2 := by
  have hv : Conserved (verifyCassette k s).2 := by simpa [conserved_iff] using h
  simp only [releaseCassette, refuse, ok]
  (repeat' split) <;> with_reducible try assumption
  have := writeCassetteAs_conserved k
    { (verifyCassette k s).2.position.cassettes.get k with state := .released } _ hv rfl (by simp [Cassette.emptySlot])
  simpa [conserved_iff] using this

theorem unloadOwner_conserved (ops : List Byte) (s : State) (h : Conserved s) :
    Conserved (unloadOwner ops s).2 := by
  simp only [unloadOwner, unloadPlace, refuse]
  (repeat' split) <;> with_reducible first
    | assumption
    | exact releaseCassette_conserved _ s h
    | exact withMargins_conserved _ _ _ _ h (unloadBin_conserved _ s h)

/-- A removed cassette's notes have gone elsewhere, and its record shows none (R3, R20, R22). -/
theorem emptyRecord_balanced (k : Ix) (s : State) (p : Position) (stack : List Bundle) (h : Balanced p stack)
    (hc : s.position.cassettes = p.cassettes)
    (hb : ∀ d, s.position.balance stack d = p.balance stack d + (p.cassettes.get k).counts.get d) :
    Balanced (emptyRecord k s).position stack := by
  rw [emptyRecord, balanced_writeCassetteAs]
  refine balanced_of_cassette p _ _ _ k _ h (by rw [Position.setCassette_cassettes, hc]) (fun d => ?_) fun _ => rfl
  have e := hb d
  simp only [Position.balance, Position.setCassette, cassetteNotes_set, hc, Quad.get_zero] at e ⊢
  omega

theorem removeReleased_conserved (k : Ix) (s : State) (h : Conserved s) :
    Conserved (removeReleased k s) := by
  rw [conserved_iff] at *
  have e (s : State) : (emptyRecord k s).escrow = s.escrow := by simp [emptyRecord]
  simp only [removeReleased, balanced_eventApplied, eventApplied_keeps, balanced_bumpGeneration, bumpGeneration_keeps, e,
    State.onPosition_keeps]
  refine emptyRecord_balanced k _ s.position _ h rfl fun d => ?_
  simp only [State.onPosition_position, Position.balance, Quad.get_add]
  omega

theorem removeUnreleased_conserved (k : Ix) (s : State) (h : Conserved s) :
    Conserved (removeUnreleased k s) := by
  rw [conserved_iff] at *
  have e (s : State) : (emptyRecord k s).escrow = s.escrow := by simp [emptyRecord]
  simp only [removeUnreleased, balanced_momentary, balanced_eventApplied, eventApplied_keeps, balanced_bumpGeneration,
    bumpGeneration_keeps, balanced_addCause, addCause_keeps, e, State.onPosition_keeps]
  refine emptyRecord_balanced k _ s.position _ h rfl fun d => ?_
  simp only [State.onPosition_position, Position.addDiscrepancy, Position.balance, Quad.get_zip, Quad.get_toInt]
  omega

theorem loseDestination_conserved (k : Ix) (s : State) (h : Conserved s) : Conserved (loseDestination k s) :=
  conserved_of_books s _ (by simp [loseDestination]) (by simp [loseDestination]) h

theorem bookRemoval_conserved (k : Ix) (s : State) (h : Conserved s) :
    Conserved (bookRemoval k s) := by
  have hv : Conserved (verifyCassette k s).2 := by simpa [conserved_iff] using h
  simp only [bookRemoval]
  split
  · exact hv
  · exact removeReleased_conserved k _ (loseDestination_conserved k _ hv)
  · exact removeUnreleased_conserved k _ (loseDestination_conserved k _ hv)

theorem bookInsertion_conserved (k : Ix) (s : State) (h : Conserved s) :
    Conserved (bookInsertion k s) := by
  have hv : Conserved (verifyCassette k s).2 := by simpa [conserved_iff] using h
  simp only [bookInsertion]
  split
  · rename_i ha
    exact writeCassetteAs_conserved k _ _ hv (hv.2 k (.inl ha)).symm fun _ => rfl
  · exact hv

theorem setPresent_conserved (k : Ix) (b : Bool) (s : State) (h : Conserved s) :
    Conserved (setPresent k b s) := h

theorem cassetteRemoved_conserved (k : Ix) (s : State) (h : Conserved s) :
    Conserved (cassetteRemoved k s) := by
  unfold cassetteRemoved
  split
  · exact event_conserved _ (bookRemoval_conserved k) _ (setPresent_conserved k false s h)
  · exact h

theorem cassetteInserted_conserved (k : Ix) (s : State) (h : Conserved s) :
    Conserved (cassetteInserted k s) := by
  unfold cassetteInserted
  split
  · exact h
  · exact event_conserved _ (bookInsertion_conserved k) _ (setPresent_conserved k true s h)

/-! ### RECONCILE -/

/-- The cassettes that show an empty slot's state and notes are those R25 counts: none is not recorded. -/
def AbsentEmpty (s : State) : Prop :=
  ∀ k : Ix, (s.position.cassettes.get k).state = .absent → (s.position.cassettes.get k).counts = Quad.zero

theorem countCassette_absentEmpty (c : Counted) (s : State) (k : Ix) (h : AbsentEmpty s) :
    AbsentEmpty (countCassette c s k) := by
  unfold countCassette
  split
  · rename_i hr
    intro l hl
    by_cases e : l = k
    · subst e
      simp [State.recorded, Position.setCassette, Position.addDiscrepancy] at hr hl
      exact absurd hl hr
    · simp only [State.onPosition_position, Position.setCassette, Position.addDiscrepancy,
        Quad.get_set_other _ _ _ _ e] at hl ⊢
      exact h l hl
  · exact h

theorem settleCassette_spec (s : State) (k : Ix) (h : AbsentEmpty s) :
    AbsentEmpty (settleCassette s k) ∧ ((settleCassette s k).position.cassettes.get k).state ≠ .uncounted ∧
      ∀ l, l ≠ k → (settleCassette s k).position.cassettes.get l = s.position.cassettes.get l := by
  have hd := (s.position.cassettes.get k).derivedState_counted
  have written : ∀ c : Cassette, c.counts = (s.position.cassettes.get k).counts → c.state ≠ .uncounted →
      (c.state = .absent → (s.position.cassettes.get k).state = .absent) →
      c.rederive.state ≠ .uncounted ∧ (c.rederive.state = .absent → c.rederive.counts = Quad.zero) := by
    intro c hc hu ha
    rw [c.rederive_counts, hc]
    unfold Cassette.rederive
    split
    · exact ⟨c.derivedState_counted.2, fun e => absurd e c.derivedState_counted.1⟩
    · exact ⟨hu, fun e => h k (ha e)⟩
  have other : ∀ l, l ≠ k → (settleCassette s k).position.cassettes.get l = s.position.cassettes.get l := by
    intro l hl
    simp only [settleCassette, writeCassette_position, Quad.get_set_other _ _ _ _ hl]
  have own := written
    (if (s.position.cassettes.get k).state = .uncounted then
      { s.position.cassettes.get k with state := (s.position.cassettes.get k).derivedState }
    else s.position.cassettes.get k) (by split <;> rfl) (by split; exacts [hd.2, ‹_›])
    (by split; exacts [fun e => absurd e hd.1, id])
  have eq : (settleCassette s k).position.cassettes.get k =
      { (if (s.position.cassettes.get k).state = .uncounted then
          { s.position.cassettes.get k with state := (s.position.cassettes.get k).derivedState }
        else s.position.cassettes.get k).rederive with intact := true } := by
    simp only [settleCassette, writeCassette_position, Quad.get_set_self]
  refine ⟨fun l hl => ?_, by rw [eq]; exact own.1, other⟩
  by_cases e : l = k
  · subst e; rw [eq] at hl ⊢; exact own.2 hl
  · rw [other l e] at hl ⊢; exact h l hl

/-- Once every cassette is settled, a slot that is not counted is an empty one. -/
theorem settleAll_emptySlots (s : State) (h : AbsentEmpty s) :
    ∀ k : Ix, ((Ix.all.foldl settleCassette s).position.cassettes.get k).emptySlot := by
  obtain ⟨h1, u1, -⟩ := settleCassette_spec s .i1 h
  obtain ⟨h2, u2, o2⟩ := settleCassette_spec _ .i2 h1
  obtain ⟨h3, u3, o3⟩ := settleCassette_spec _ .i3 h2
  obtain ⟨h4, u4, o4⟩ := settleCassette_spec _ .i4 h3
  simp only [Ix.all, List.foldl_cons, List.foldl_nil]
  rintro k (e | e)
  · exact h4 k e
  · exfalso
    revert e
    cases k
    · rw [o4 _ (by decide), o3 _ (by decide), o2 _ (by decide)]; exact u1
    · rw [o4 _ (by decide), o3 _ (by decide)]; exact u2
    · rw [o4 _ (by decide)]; exact u3
    · exact u4

/-- A new period opens in balance: OPENING is what the places hold, and all else is zero (R25). -/
theorem openPeriod_conserved (s : State) (h : ∀ k : Ix, (s.position.cassettes.get k).emptySlot) :
    Conserved (openPeriod s) := by
  rw [conserved_iff]
  refine ⟨fun d => ?_, h⟩
  simp only [openPeriod, bumpGeneration, State.onPosition_position, State.onPosition_keeps, Position.balance, cassetteNotes,
    State.placeCounts, Flows.zero, Ix.all, List.foldl_cons, List.foldl_nil, Quad.get_add, Quad.get_zero, Quad.get_all]
  simp only [Quad.get]
  push_cast
  ring

theorem acceptReconcile_conserved (c : Counted) (s : State) (h : Conserved s) : Conserved (acceptReconcile c s).2 := by
  have h0 : AbsentEmpty s := fun k e => h.2 k (.inl e)
  have h1 : AbsentEmpty (countBins c (Ix.all.foldl (countCassette c) s)) := by
    have : AbsentEmpty (Ix.all.foldl (countCassette c) s) := by
      simp only [Ix.all, List.foldl_cons, List.foldl_nil]
      iterate 4 apply countCassette_absentEmpty
      exact h0
    simpa [AbsentEmpty, countBins, Position.addDiscrepancy] using this
  have staged : ∀ (l : List Draft) (x : State), AbsentEmpty x → AbsentEmpty (l.foldl (fun s d => (stage d s).2) x) := by
    intro l
    induction l with
    | nil => exact fun _ hx => hx
    | cons d l ih => intro x hx; exact ih _ (by simpa [AbsentEmpty] using hx)
  have applied : ∀ (d : Draft) (x : State), AbsentEmpty x → AbsentEmpty (stageApplied d x).2 := by
    intro d x hx
    simpa [AbsentEmpty, stageApplied, applyTo_position] using hx
  simp only [acceptReconcile, ok]
  refine raiseRestriction_conserved _ (openPeriod_conserved _ ?_)
  exact settleAll_emptySlots _ (applied _ _ (staged _ _ h1))

theorem reconcileOwner_conserved (ops : List Byte) (s : State) (h : Conserved s) :
    Conserved (reconcileOwner ops s).2 := by
  have hv : Conserved (verifyCassettes s).2 := by simpa [conserved_iff] using h
  simp only [reconcileOwner, reconcileCounted, refuse]
  (repeat' split) <;> with_reducible first
    | assumption
    | exact withRoom_conserved _ _ _ _ hv (acceptReconcile_conserved _ _ hv)

theorem positionReadOwner_conserved (s : State) (h : Conserved s) :
    Conserved (positionReadOwner s).2 := by
  simpa [positionReadOwner, ok, conserved_iff] using h

end Sys2Proof.Machine
end

section
/-! The first law (R3): the commands of the note path (03), the dispense controller (04) and the escrow controller (05). -/
namespace Sys2Proof.Machine

/-! ## Picks and draws (03) -/

theorem readForPick_conserved (t : Teller) (k : Ix) (s : State) (h : Conserved s) :
    Conserved (readForPick t k s) := by
  have hv : Conserved (verifyCassette k s).2 := by simpa [conserved_iff] using h
  simp only [readForPick]
  split
  · exact hv
  · simpa [stopForAudit, conserved_iff] using hv

/-- A failed cassette's notes of its denomination become a shortage (R1, R3, R60). -/
theorem failCassette_conserved (t : Teller) (k d : Ix) (s : State) (h : Conserved s) :
    Conserved (failCassette t k d s) := by
  have hr := readForPick_conserved t k s h
  generalize hx : readForPick t k s = x at hr
  simp only [failCassette, hx]
  rw [conserved_iff] at *
  simp only [raise_keeps, State.onDispense_keeps, balanced_writeCassetteAs, writeCassetteAs_keeps, State.onPosition_keeps,
    State.onPosition_position]
  refine balanced_of_cassette x.position _ _ _ k _ hr rfl (fun e => ?_) (by simp [Cassette.emptySlot])
  simp only [Position.balance, Position.setCassette, cassetteNotes_set]
  by_cases he : e = d
  · subst he; simp only [Quad.get_set_self]; omega
  · simp only [Quad.get_set_other _ _ _ _ he]; omega

theorem countMiss_conserved (p : Pick) (s : State) (h : Conserved s) :
    Conserved (countMiss p s) := by
  have hs : Conserved (setMisses p.port p.cassette ((s.dispense p.port).misses.get p.cassette + 1) s) :=
    by simpa [setMisses, conserved_iff] using h
  simp only [countMiss]
  split
  · exact failCassette_conserved _ _ _ _ hs
  · exact hs

theorem pickReported_conserved (t : Teller) (s : State) (h : Conserved s) :
    Conserved (pickReported t s) := by
  simpa [conserved_iff] using h

theorem emptyPick_conserved (p : Pick) (s : State) (h : Conserved s) :
    Conserved (emptyPick p s) := by
  have hs : Conserved (s.onPath (fun q => { q with pick := none })) := h
  simp only [emptyPick]
  refine pickReported_conserved _ _ ?_
  split
  · exact hs
  · exact countMiss_conserved p _ hs

/-- The notes picked are in TRANSIT, those beyond the cassette's count as surplus (R1, R3, R58). -/
theorem bookPick_conserved (k d : Ix) (m : Nat) (s : State) (h : Conserved s) :
    Conserved (bookPick k d m s) := by
  rw [conserved_iff] at *
  simp only [bookPick, balanced_writeCassette, writeCassette_keeps, State.onPosition_keeps, State.onPosition_position]
  refine balanced_of_cassette s.position _ _ _ k _ h rfl (fun e => ?_) fun hs => ?_
  · simp only [Position.balance, Position.setCassette, cassetteNotes_set, Quad.get_plus, Quad.get_minus]
    by_cases he : e = d
    · subst he; simp only [Quad.get_set_self, if_true]; omega
    · simp only [Quad.get_set_other _ _ _ _ he, he, if_false]; omega
  · have e : (s.position.cassettes.get k).counts = Quad.zero := h.2 k hs
    simp only [e]
    cases d <;> simp [Quad.minus, Quad.set, Quad.get, Quad.zero, Quad.all]

theorem notesPicked_conserved (p : Pick) (m : Multiplicity) (s : State) (h : Conserved s) :
    Conserved (notesPicked p m s) := by
  have := bookPick_conserved p.cassette p.denomination m.notes _ (readForPick_conserved p.port p.cassette s h)
  simpa [notesPicked, setMisses, conserved_iff] using this

theorem pickReport_conserved (m : Multiplicity) (s : State) (h : Conserved s) :
    Conserved (pickReport m s) := by
  unfold pickReport
  split
  · cases m
    · exact emptyPick_conserved _ s h
    · exact notesPicked_conserved _ _ s h
    · exact notesPicked_conserved _ _ s h
  · exact h

theorem checkNote_conserved (r : NoteCheck) (s : State) (h : Conserved s) :
    Conserved (checkNote r s) := by
  rw [conserved_iff] at *
  have routed (p : Pick) (m : Multiplicity) :
      Balanced (routeNote p m r s).position (routeNote p m r s).escrow.stack := by
    unfold routeNote
    split <;> simpa [balanced_move] using h
  unfold checkNote
  split
  · simp only []
    split <;> simpa using routed _ _
  · exact h

theorem noteArrived_conserved (a : Arrival) (s : State) (h : Conserved s) :
    Conserved (noteArrived a s) := h

theorem noteJammed_conserved (x : Sensor) (s : State) (h : Conserved s) :
    Conserved (noteJammed x s) := by
  unfold noteJammed jamIdle
  (repeat' split) <;> simpa [conserved_iff] using h

theorem noteDrawn_conserved (x : Option Ix) (s : State) (h : Conserved s) :
    Conserved (noteDrawn x s) := by
  unfold noteDrawn
  simp only []
  (repeat' split) <;> simpa [conserved_iff] using h

theorem purgeSourceEmpty_conserved (d : Draw) (s : State) (h : Conserved s) :
    Conserved (purgeSourceEmpty d s) := by
  unfold purgeSourceEmpty
  simp only []
  split <;> simpa [conserved_iff] using h

theorem stopSourceEmpty_conserved (t : Teller) (why : StopReason) (d : Draw) (s : State) (h : Conserved s) :
    Conserved (stopSourceEmpty t why d s) := by
  unfold stopSourceEmpty
  simp only []
  split <;> simpa [conserved_iff] using h

theorem sourceEmpty_conserved (s : State) (h : Conserved s) :
    Conserved (sourceEmpty s) := by
  unfold sourceEmpty
  split
  · exact h
  · rename_i d _
    have hs : Conserved (stopTimers d.cause.owner (s.onPath (fun q => { q with draw := none }))) := h
    simp only []
    split
    · exact purgeSourceEmpty_conserved d _ hs
    · simpa [retractEnded, conserved_iff] using h
    · exact stopSourceEmpty_conserved _ _ d _ hs

theorem jamClearOwner_conserved (f : Frame) (s : State) (h : Conserved s) :
    Conserved (jamClearOwner f s).2 := by
  simp only [jamClearOwner, clearModule, clearSlot, refuse, accepted]
  (repeat' split) <;> simpa [conserved_iff] using h

/-! ## Dispensing (04) -/

theorem acceptDispense_conserved (t : Teller) (o : DispenseOperands) (a : Nat) (m : MixResult) (b : Bool) (s : State)
    (h : Conserved s) : Conserved (acceptDispense t o a m b s).2 := by
  simp only [acceptDispense, accepted]
  split <;> simpa [conserved_iff] using h

theorem judgeDispense_conserved (t : Teller) (o : DispenseOperands) (a : Nat) (b : Bool) (s : State) (h : Conserved s) :
    Conserved (judgeDispense t o a b s).2 := by
  have hm : Conserved (requestMix t a o.cap o.preference o.target s).2 := by simpa [conserved_iff] using h
  unfold judgeDispense
  split
  all_goals
    rename_i e
    rw [e] at hm
  · exact hm
  · (repeat' split) <;> try exact hm
    exact withMargins_conserved _ _ _ _ hm (acceptDispense_conserved _ _ _ _ _ _ hm)

theorem dispenseOwner_conserved (f : Frame) (b : Bool) (s : State) (h : Conserved s) :
    Conserved (dispenseOwner f b s).2 := by
  have hv : Conserved (verifyCassettes s).2 := by simpa [conserved_iff] using h
  simp only [dispenseOwner, dispenseAt, refuseStale, refuse, refuseWith, refuseDigit]
  (repeat' split) <;> with_reducible first | assumption | exact judgeDispense_conserved _ _ _ _ _ h

theorem cancelOwner_conserved (f : Frame) (s : State) (h : Conserved s) :
    Conserved (cancelOwner f s).2 := by
  simp only [cancelOwner, cancelAt, refuse, ok, accepted]
  (repeat' split) <;> simpa [conserved_iff] using h

theorem delayEnded_conserved (t : Teller) (s : State) (h : Conserved s) :
    Conserved (delayEnded t s) := by
  simp only [delayEnded]
  split <;> simpa [conserved_iff] using h

theorem pocketEmptied_conserved (t : Teller) (s : State) (h : Conserved s) :
    Conserved (pocketEmptied t s) := by
  simpa [pocketEmptied, conserved_iff] using h

/-! ## The claim (03) -/

theorem claimOwner_conserved (f : Frame) (s : State) (h : Conserved s) :
    Conserved (claimOwner f s).2 := by
  simp only [claimOwner, refuseWith]
  (repeat' split) <;> simpa [conserved_iff] using h

theorem releaseOwner_conserved (f : Frame) (s : State) (h : Conserved s) :
    Conserved (releaseOwner f s).2 := by
  simp only [releaseOwner, refuse, ok]
  (repeat' split) <;> simpa [conserved_iff] using h

theorem idleExpired_conserved (s : State) (h : Conserved s) :
    Conserved (idleExpired s) := by
  unfold idleExpired
  (repeat' split) <;> simpa [conserved_iff] using h

/-! ## The escrow (05) -/

theorem ownModule_conserved (p : Port) (s : State) (k : Answer × State) (h : Conserved s) (hk : Conserved k.2) :
    Conserved (ownModule p s k).2 := by
  simp only [ownModule, refuse]
  (repeat' split) <;> with_reducible assumption

theorem ownEscrow_conserved (p : Port) (s : State) (k : Answer × State) (h : Conserved s) (hk : Conserved k.2) :
    Conserved (ownEscrow p s k).2 := by
  refine ownModule_conserved p s _ h ?_
  simp only [refuse]
  split <;> with_reducible assumption

theorem moduleReady_conserved (s : State) (k : Answer × State) (h : Conserved s) (hk : Conserved k.2) :
    Conserved (moduleReady s k).2 := by
  simp only [moduleReady, refuse]
  split <;> with_reducible assumption

theorem depositOpenOwner_conserved (f : Frame) (s : State) (h : Conserved s) :
    Conserved (depositOpenOwner f s).2 := by
  simp only [depositOpenOwner, depositOpenAt]
  split
  · refine ownModule_conserved _ _ _ h ?_
    simp only [refuse, refuseDigit, refuseWith, ok]
    (repeat' split) <;> simpa [conserved_iff] using h
  · exact h

theorem depositCloseOwner_conserved (f : Frame) (s : State) (h : Conserved s) :
    Conserved (depositCloseOwner f s).2 := by
  refine ownEscrow_conserved _ _ _ h ?_
  simp only [refuse, ok]
  split <;> simpa [conserved_iff] using h

/-- A fresh bundle on the stack shows no notes (R100). -/
theorem acceptInsert_conserved (t : Teller) (s : State) (h : Conserved s) : Conserved (acceptInsert t s).2 := by
  rw [conserved_iff] at *
  simp only [acceptInsert, accepted, State.onEscrow_keeps, State.onEscrow_escrow, reserve_keeps]
  exact (balanced_cons_empty _ _ _ rfl).2 h

theorem insertOwner_conserved (f : Frame) (s : State) (h : Conserved s) :
    Conserved (insertOwner f s).2 := by
  simp only [insertOwner, insertAt]
  split
  · refine ownEscrow_conserved _ _ _ h (moduleReady_conserved _ _ h ?_)
    simp only [refuse]
    (repeat' split) <;> with_reducible try assumption
    exact withMargins_conserved _ _ _ _ h (acceptInsert_conserved _ _ h)
  · exact h

/-- An operation of the escrow controller replaced, and its notes timed, leave what the law speaks of. -/
theorem setInsert_conserved (o : InsertOp) (s : State) (h : Conserved s) :
    Conserved (setInsert o s) := h
theorem setReturn_conserved (o : ReturnOp) (s : State) (h : Conserved s) :
    Conserved (setReturn o s) := h
theorem setCommit_conserved (o : CommitOp) (s : State) (h : Conserved s) :
    Conserved (setCommit o s) := h
theorem timeEscrow_conserved (x : Sensor) (s : State) (h : Conserved s) :
    Conserved (timeEscrow x s) := h
theorem stopTimers_conserved (o : MoveOwner) (s : State) (h : Conserved s) :
    Conserved (stopTimers o s) := h

theorem endInsert_conserved (o : InsertOp) (why : FeedCause) (s : State) (h : Conserved s) :
    Conserved (endInsert o why s) := by
  simpa [conserved_iff] using h

theorem endReturn_conserved (o : ReturnOp) (x : ReturnOutcome) (s : State) (h : Conserved s) :
    Conserved (endReturn o x s) := by
  simpa [conserved_iff] using h

theorem endCommit_conserved (o : CommitOp) (x : CommitOutcome) (s : State) (h : Conserved s) :
    Conserved (endCommit o x s) := by
  simpa [conserved_iff] using h

theorem noteTaken_conserved (s : State) (h : Conserved s) :
    Conserved (noteTaken s) := by
  unfold noteTaken
  (repeat' split) <;> with_reducible first
    | assumption
    | exact endInsert_conserved _ _ s h
    | exact timeEscrow_conserved _ _ (setInsert_conserved _ s h)

theorem noteMissed_conserved (s : State) (h : Conserved s) :
    Conserved (noteMissed s) := by
  unfold noteMissed
  (repeat' split) <;> with_reducible first
    | assumption
    | exact endInsert_conserved _ _ s h
    | exact setInsert_conserved _ s h

theorem intakeEmptied_conserved (t : Teller) (s : State) (h : Conserved s) :
    Conserved (intakeEmptied t s) := by
  unfold intakeEmptied
  (repeat' split) <;> with_reducible first
    | assumption
    | exact endInsert_conserved _ _ s h
    | exact setInsert_conserved _ s h

/-- The feeding bundle changed in what is none of its notes. -/
theorem onFeeding_conserved (f : Bundle → Bundle) (hf : ∀ b, (f b).notes = b.notes) (s : State) (h : Conserved s) :
    Conserved (onFeeding f s) := by
  rw [conserved_iff] at *
  simp only [onFeeding, State.onEscrow_keeps, State.onEscrow_escrow]
  refine (balanced_stack _ _ _ fun d => ?_).1 h
  split
  · rename_i e; simp [e, hf]
  · rename_i e; simp [e]

/-- A genuine note is in TRANSIT and in the ACCEPTED flow (R3, R101). -/
theorem acceptNote_conserved (d : Ix) (s : State) (h : Conserved s) :
    Conserved (acceptNote d s) := by
  rw [conserved_iff] at *
  refine h.transfer rfl fun e => ?_
  simp only [acceptNote, State.onPosition_position, State.onPosition_keeps, Position.balance, Quad.get_plus]
  omega

theorem returnUnread_conserved (o : InsertOp) (s : State) (h : Conserved s) : Conserved (returnUnread o s) :=
  setInsert_conserved _ _ (onFeeding_conserved _ (by intro b; rfl) s h)

theorem routeGenuine_conserved (o : InsertOp) (d : Ix) (fit : Bool) (s : State) (h : Conserved s) :
    Conserved (routeGenuine o d fit s) := by
  unfold routeGenuine
  split
  · exact returnUnread_conserved o s h
  · exact setInsert_conserved _ _ (acceptNote_conserved d s h)

theorem routeSuspect_conserved (o : InsertOp) (s : State) (h : Conserved s) : Conserved (routeSuspect o s) := by
  unfold routeSuspect
  split
  · refine setInsert_conserved _ _ (onFeeding_conserved _ (by intro b; rfl) _ ?_)
    simpa [conserved_iff] using h
  · exact setInsert_conserved _ _ (onFeeding_conserved _ (by intro b; rfl) s h)

theorem judgeNote_conserved (v : NoteVerdict) (s : State) (h : Conserved s) : Conserved (judgeNote v s) := by
  unfold judgeNote
  split
  · exact h
  · split
    · refine timeEscrow_conserved _ _ ?_
      cases v
      · exact routeGenuine_conserved _ _ _ s h
      · exact routeGenuine_conserved _ _ _ s h
      · exact routeSuspect_conserved _ s h
      · exact returnUnread_conserved _ s h
    · exact h

theorem noteFed_conserved (o : InsertOp) (s : State) (h : Conserved s) :
    Conserved (noteFed o s) := by
  have hs := stopTimers_conserved .escrow s h
  unfold noteFed
  simp only []
  (repeat' split) <;> with_reducible first | exact endInsert_conserved _ _ _ hs | exact setInsert_conserved _ _ hs

/-- A note wound onto the drum leaves TRANSIT for the feeding bundle (R3, R101). -/
theorem windNote_conserved (d : Ix) (fit : Bool) (s : State) (h : Conserved s) :
    Conserved (windNote d fit s) := by
  rw [conserved_iff] at *
  refine h.transfer rfl fun e => ?_
  simp only [windNote, onFeeding, State.onEscrow_keeps, State.onEscrow_escrow, State.onPosition_keeps,
    State.onPosition_position, Position.balance, Quad.get_minus]
  split
  · rename_i b l hl
    cases fit <;> simp [hl, Bundle.notes] <;> split <;> (try subst_vars) <;> omega
  · rename_i hl
    simp [hl]

theorem drumEntered_conserved (s : State) (h : Conserved s) :
    Conserved (drumEntered s) := by
  unfold drumEntered
  split
  · exact h
  · split
    · exact noteFed_conserved _ _ (windNote_conserved _ _ s h)
    · exact h

theorem compartmentEntered_conserved (s : State) (h : Conserved s) :
    Conserved (compartmentEntered s) := by
  unfold compartmentEntered
  split
  · exact h
  · split
    · exact noteFed_conserved _ _ h
    · exact h

theorem returnOwner_conserved (p : Port) (b : Bool) (s : State) (h : Conserved s) :
    Conserved (returnOwner p b s).2 := by
  refine ownEscrow_conserved _ _ _ h (moduleReady_conserved _ _ h ?_)
  simp only [refuse]
  (repeat' split) <;> with_reducible try assumption
  exact withRoom_conserved _ _ _ _ h (by simpa [conserved_iff, acceptReturn, accepted] using h)

/-- The next note in delivery order is one that the bundle holds (R95). -/
theorem Bundle.next_held (values : Quad Nat) (b : Bundle) (d : Ix) (fit : Bool) (h : b.next values = some (d, fit)) :
    0 < (if fit then b.fit else b.unfit).get d := by
  have held (q : Quad Nat) (x : Ix) (hx : smallestHeld values q = some x) : 0 < q.get x := by
    simpa using List.find?_some hx
  unfold Bundle.next at h
  split at h
  · cases h; exact held _ _ ‹_›
  · split at h
    · cases h; exact held _ _ ‹_›
    · cases h

/-- A bundle gives a note it holds: it shows one fewer. -/
theorem Bundle.without_notes (b : Bundle) (d : Ix) (fit : Bool) (h : 0 < (if fit then b.fit else b.unfit).get d) (e : Ix) :
    (b.without d fit).notes.get e + (if e = d then 1 else 0) = b.notes.get e := by
  cases fit <;> simp only [Bundle.without, Bundle.notes, Quad.get_add, if_true, if_false, Bool.false_eq_true] at h ⊢ <;>
    rw [Quad.get_minus] <;> split <;> (try subst_vars) <;> omega

/-- A note unwound from the drum is in TRANSIT, and the stack shows one fewer (R3, R106). -/
theorem unwindNote_balanced (d : Ix) (s : State) (stack : List Bundle) (h : Balanced s.position s.escrow.stack)
    (hs : ∀ e, (stackNotes stack).get e + (if e = d then 1 else 0) = (stackNotes s.escrow.stack).get e) :
    Balanced { s.position with transit := Quad.plus s.position.transit d 1 } stack := by
  refine h.transfer rfl fun e => ?_
  have := hs e
  simp only [Position.balance, Quad.get_plus]
  omega

theorem returnExit_conserved (o : ReturnOp) (s : State) (h : Conserved s) :
    Conserved (returnExit o s) := by
  unfold returnExit
  split
  · exact h
  · rename_i b l hl
    split
    · exact h
    · rename_i d fit hn
      rw [conserved_iff] at *
      have hb := b.without_notes d fit (b.next_held _ d fit hn)
      refine unwindNote_balanced d s _ h fun e => ?_
      have := hb e
      simp only [hl, stackNotes_cons, State.onEscrow_escrow, unwindNote, setReturn, timeEscrow, State.onPath_keeps,
        stopTimers_keeps, State.onPosition_keeps]
      split
      · rename_i hz
        have := Quad.get_eq_zero_of_total _ (by simpa using hz) e
        omega
      · simp only [stackNotes_cons]; omega

theorem returnGoesOn_conserved (o : ReturnOp) (s : State) (h : Conserved s) :
    Conserved (returnGoesOn o s) := by
  have hs := stopTimers_conserved .escrow s h
  unfold returnGoesOn
  simp only []
  (repeat' split) <;> with_reducible first | exact endReturn_conserved _ _ _ hs | exact setReturn_conserved _ _ hs

/-- A note given back is in the RETURNED flow (R3, R107). -/
theorem bookReturned_conserved (d : Ix) (s : State) (h : Conserved s) :
    Conserved (bookReturned d s) := by
  rw [conserved_iff] at *
  refine h.transfer rfl fun e => ?_
  simp only [bookReturned, State.onPosition_keeps, State.onPosition_position, Position.balance, Quad.get_plus,
    Quad.get_minus]
  split <;> (try subst_vars) <;> omega

theorem returnPocketEntered_conserved (s : State) (h : Conserved s) :
    Conserved (returnPocketEntered s) := by
  unfold returnPocketEntered
  split
  · split
    · exact noteFed_conserved _ _ h
    · exact h
  · split
    · split
      · exact returnGoesOn_conserved _ _ (bookReturned_conserved _ s h)
      · exact h
    · exact h
  · exact h

theorem compareOwner_conserved (f : Frame) (s : State) (h : Conserved s) :
    Conserved (compareOwner f s).2 := by
  refine ownEscrow_conserved _ _ _ h ?_
  simp only [refuse, refuseDigit, refuseWith, ok]
  (repeat' split) <;> simpa [conserved_iff] using h

theorem chooseNext_conserved (o : CommitOp) (s : State) (h : Conserved s) :
    Conserved (chooseNext o s) := by
  have hv : Conserved (verifyCassettes s).2 := by simpa [conserved_iff] using h
  simp only [chooseNext]
  (repeat' split) <;> with_reducible first
    | exact endCommit_conserved _ _ _ h
    | exact endCommit_conserved _ _ _ hv
    | exact setCommit_conserved _ _ hv

theorem acceptCommit_conserved (p : Port) (b : Bool) (s : State) (h : Conserved s) :
    Conserved (acceptCommit p b s).2 := chooseNext_conserved _ _ h

theorem commitOwner_conserved (f : Frame) (b : Bool) (s : State) (h : Conserved s) :
    Conserved (commitOwner f b s).2 := by
  have hv (a : AccountId) : Conserved (verifyAccount a s).2 := by simpa [conserved_iff] using h
  refine ownEscrow_conserved _ _ _ h (moduleReady_conserved _ _ h ?_)
  simp only [judgeCommit, refuse]
  (repeat' split) <;> with_reducible try first | assumption | exact hv _
  · exact withMargins_conserved _ _ _ _ h (acceptCommit_conserved _ _ _ h)
  · exact withMargins_conserved _ _ _ _ (hv _) (acceptCommit_conserved _ _ _ (hv _))

/-- The stack with its bottom bundle apart. -/
theorem Escrow.bottom_split (e : Escrow) (b : Bundle) (h : e.bottom = some b) : e.stack = e.stack.dropLast ++ [b] := by
  unfold Escrow.bottom at h
  obtain ⟨l, hl⟩ := List.getLast?_eq_some_iff.1 h
  rw [hl]; simp

theorem commitExit_conserved (o : CommitOp) (s : State) (h : Conserved s) :
    Conserved (commitExit o s) := by
  unfold commitExit
  split
  · exact h
  · rename_i b hb
    split
    · exact h
    · rename_i d fit hn
      rw [conserved_iff] at *
      have hw := b.without_notes d fit (b.next_held _ d fit hn)
      have hl := s.escrow.bottom_split b hb
      refine unwindNote_balanced d s _ h fun e => ?_
      have := hw e
      have hst : (stackNotes s.escrow.stack).get e = (stackNotes s.escrow.stack.dropLast).get e + b.notes.get e := by
        rw [hl]; simp
      simp only [hst, State.onEscrow_escrow, unwindNote, setCommit, timeEscrow, State.onPath_keeps, stopTimers_keeps,
        State.onPosition_keeps]
      split
      · rename_i hz
        have := Quad.get_eq_zero_of_total _ (by simpa using hz) e
        omega
      · simp only [stackNotes_append, stackNotes_cons, stackNotes_nil]; omega

theorem drumExited_conserved (s : State) (h : Conserved s) :
    Conserved (drumExited s) := by
  unfold drumExited
  split
  · split
    · exact returnExit_conserved _ s h
    · exact h
  · split
    · exact commitExit_conserved _ s h
    · exact h
  · exact h

/-- A committed note leaves TRANSIT for the cassette's count (R3, R112). -/
theorem bookEntry_conserved (k d : Ix) (fit : Bool) (s : State) (h : Conserved s) (hk : s.holdsNotes k = true) :
    Conserved (bookEntry k d fit s) := by
  rw [conserved_iff] at *
  simp only [bookEntry, State.onEscrow_keeps, State.onEscrow_escrow, balanced_writeCassette, writeCassette_keeps,
    State.onPosition_keeps, State.onPosition_position]
  refine balanced_of_cassette s.position _ _ _ k _ h rfl (fun e => ?_) fun hs => ?_
  · simp only [Position.balance, Position.setCassette, cassetteNotes_set, Quad.get_plus, Quad.get_minus]
    split <;> (try subst_vars) <;> omega
  · simp only [State.holdsNotes, Bool.and_eq_true, bne_iff_ne, ne_eq] at hk
    rcases hs with hs | hs
    · exact absurd hs hk.1
    · exact absurd hs hk.2

theorem verifyCassette_cassettes (k : Ix) (s : State) :
    (verifyCassette k s).2.position.cassettes = s.position.cassettes := by
  unfold verifyCassette
  split
  · rfl
  · simp [integrityFailure_position]

theorem cassetteEntered_conserved (k : Ix) (s : State) (h : Conserved s) :
    Conserved (cassetteEntered k s) := by
  have hv : Conserved (verifyCassette k s).2 := by simpa [conserved_iff] using h
  unfold cassetteEntered
  split
  · split
    · split
      · rename_i hc
        have hk : (verifyCassette k s).2.holdsNotes k = true := by
          simpa [State.holdsNotes, verifyCassette_cassettes] using hc.2.2.2
        exact chooseNext_conserved _ _
          (setCommit_conserved _ _ (stopTimers_conserved _ _ (bookEntry_conserved _ _ _ _ hv hk)))
      · exact h
    · exact h
  · exact h

/-- A bundle missed is in the discrepancy, and its stack without it (R1, R3, R106). -/
theorem missBundle_conserved (b : Bundle) (s : State) (stack : List Bundle) (h : Balanced s.position stack)
    (hs : ∀ d, (stackNotes s.escrow.stack).get d + b.notes.get d = (stackNotes stack).get d) :
    Conserved (missBundle b s) := by
  rw [conserved_iff]
  simp only [missBundle, balanced_addCause, addCause_keeps, State.onPosition_keeps, State.onPosition_position]
  refine h.transfer rfl fun d => ?_
  have := hs d
  simp only [Position.balance, Position.addDiscrepancy, Quad.get_zip, Quad.get_toInt]
  omega

theorem drumEmptied_conserved (s : State) (h : Conserved s) :
    Conserved (drumEmptied s) := by
  have hb := (conserved_iff s).1 h
  unfold drumEmptied
  split
  · split
    · rename_i b l hl
      split
      · have hm := missBundle_conserved b (s.onEscrow (fun e => { e with stack := l, verdict := .none })) _ hb
          (by intro d; simp [hl]; omega)
        simp only []
        split
        · exact returnGoesOn_conserved _ _ hm
        · exact setReturn_conserved _ _ hm
      · exact h
    · exact h
  · split
    · rename_i b hl
      split
      · have hm := missBundle_conserved b
          (s.onEscrow (fun e => { e with stack := e.stack.dropLast, verdict := .none })) _ hb
          (by intro d; conv => rhs; rw [s.escrow.bottom_split b hl]
              simp)
        simp only []
        split
        · exact chooseNext_conserved _ _ hm
        · exact setCommit_conserved _ _ hm
      · exact h
    · exact h
  · exact h

end Sys2Proof.Machine
end

section
/-! The first law (R3): the alarm unit (07), the settings and start-up (10), and the commands that move no notes. -/
namespace Sys2Proof.Machine

/-! ## The alarm unit (07) -/

theorem judgeReading_conserved (z : Fin 16) (x : Reading) (s : State) (h : Conserved s) :
    Conserved (judgeReading z x s) := by
  simpa [conserved_iff] using h

theorem onZone_conserved (z : Fin 16) (f : Zone → Zone) (s : State) (h : Conserved s) : Conserved (onZone z f s) := h

theorem endEntryTiming_conserved (z : Fin 16) (s : State) (h : Conserved s) : Conserved (endEntryTiming z s) := by
  simpa [conserved_iff] using h

theorem reJudgeAll_conserved (l : List (Fin 16)) (b : Fin 16 → Bool) (s : State) (h : Conserved s) :
    Conserved (reJudgeAll l b s) :=
  foldl_conserved _ (fun _ _ hx => by simpa [conserved_iff] using hx) l s h

theorem applyZone_conserved (z : Fin 16) (c : ZoneConfig) (s : State) (h : Conserved s) :
    Conserved (applyZone z c s) := by
  have disabled (x : State) (hx : Conserved x) : Conserved (zoneDisabled z x) := by
    simp only [zoneDisabled]
    split <;> simpa [conserved_iff] using hx
  have enabled (x : State) (hx : Conserved x) : Conserved (zoneEnabled z x) := by
    simp only [zoneEnabled]
    split <;> simpa [conserved_iff] using hx
  have recomputed (x : State) (hx : Conserved x) : Conserved (recompute x) := by simpa [conserved_iff] using hx
  have judged (b : Bool) (x : State) (hx : Conserved x) : Conserved (reJudge z b x) := by simpa [conserved_iff] using hx
  have hs := onZone_conserved z (fun r => { r with config := c }) s h
  simp only [applyZone]
  refine judged _ _ ?_
  (repeat' split) <;> with_reducible first
    | exact recomputed _ (disabled _ hs)
    | exact enabled _ (recomputed _ (disabled _ hs))
    | exact recomputed _ hs
    | exact enabled _ (recomputed _ hs)

theorem acceptZoneSet_conserved (z : Fin 16) (c : ZoneConfig) (b : Bool) (s : State) (h : Conserved s) :
    Conserved (acceptZoneSet z c b s).2 := by
  simp only [acceptZoneSet, okOrClamped]
  exact applyZone_conserved _ _ _ (by simpa [conserved_iff] using h)

theorem zoneSetOwner_conserved (ops : List Byte) (s : State) (h : Conserved s) : Conserved (zoneSetOwner ops s).2 := by
  simp only [zoneSetOwner, refuse]
  (repeat' split) <;> with_reducible try assumption
  exact withRoom_conserved _ _ _ _ h (acceptZoneSet_conserved _ _ _ _ h)

theorem armOwner_conserved (s : State) (h : Conserved s) : Conserved (armOwner s).2 := by
  simp only [armOwner, ok, refuseWith]
  (repeat' split) <;> with_reducible try assumption
  refine withRoom_conserved _ _ _ _ h ?_
  simp only [acceptArm, ok]
  exact reJudgeAll_conserved _ _ _ (by simpa [conserved_iff] using h)

theorem disarmOwner_conserved (s : State) (h : Conserved s) : Conserved (disarmOwner s).2 := by
  refine withRoom_conserved _ _ _ _ h ?_
  have hs : Conserved (clearBypass (allZones.foldl (fun s z => endEntryTiming z s)
      (s.onAlarm (fun u => { u with armed := false })))) :=
    foldl_conserved _ (fun _ x hx => onZone_conserved _ _ x hx) _ _
      (foldl_conserved _ (fun z x hx => endEntryTiming_conserved z x hx) _ _ h)
  have hp := reJudgeAll_conserved (allZones.filter fun z => (s.zone z).bypassed) (fun _ => false) _
    (conserved_of_same _ _ (promiseEntry_keeps _).2.2.2.1 (promiseEntry_keeps _).2.2.2.2.2.2.2.2.1 hs)
  simpa [acceptDisarm, ok, conserved_iff] using hp

theorem bypassOwner_conserved (ops : List Byte) (s : State) (h : Conserved s) : Conserved (bypassOwner ops s).2 := by
  simp only [bypassOwner, refuse]
  (repeat' split) <;> with_reducible try assumption
  rename_i zones _ _
  refine withRoom_conserved _ _ _ _ h ?_
  have hs : Conserved (zones.foldl (fun s z => endEntryTiming z (onZone z (fun r => { r with bypassed := true }) s)) s) :=
    foldl_conserved _ (fun z x hx => endEntryTiming_conserved z _ (onZone_conserved _ _ x hx)) _ _ h
  simpa [acceptBypass, ok, conserved_iff] using hs

theorem alarmAckOwner_conserved (ops : List Byte) (s : State) (h : Conserved s) :
    Conserved (alarmAckOwner ops s).2 := by
  simp only [alarmAckOwner, refuse]
  (repeat' split) <;> with_reducible try assumption
  rename_i zones _ _
  refine withRoom_conserved _ _ _ _ h ?_
  have hs : Conserved (allZones.foldl
      (fun s z => if decide (z ∈ zones) then setZoneState z (s.zone z).state.acked s else s) s) := by
    refine foldl_conserved _ (fun z x hx => ?_) _ _ h
    split <;> simpa [conserved_iff] using hx
  simp only [acceptAck, ok]
  split
  · exact hs
  · simpa [conserved_iff] using hs

/-! ## Settings (10) -/

theorem writeSetting_conserved (x : Setting) (v : Nat) (s : State) (h : Conserved s) : Conserved (writeSetting x v s) := by
  unfold writeSetting
  split <;> try exact h
  · exact writeCassette_conserved _ _ s h rfl (h.2 _)
  · exact writeCassette_conserved _ _ s h rfl (h.2 _)
  · unfold newBinCapacity
    simp only []
    split <;> simpa [onSettings, conserved_iff] using h

theorem acceptNumber_conserved (x : Setting) (v : Nat) (s : State) (h : Conserved s) :
    Conserved (acceptNumber x v s).2 := by
  simp only [acceptNumber, okOrClamped]
  exact writeSetting_conserved _ _ _ (by simpa [recordSetting, conserved_iff] using h)

theorem acceptMode_conserved (k : Ix) (m : CassetteMode) (i : Option Ix) (s : State) (h : Conserved s) :
    Conserved (acceptMode k m i s).2 := by
  simp only [acceptMode, ok]
  exact writeCassetteAs_conserved _ _ _ (by simpa [recordSetting, conserved_iff] using h) (by simp [recordSetting]) (h.2 k)

theorem setOwnerBlock_conserved (ops : List Byte) (s : State) (h : Conserved s) : Conserved (setOwnerBlock ops s).2 := by
  have hv (k : Ix) : Conserved (verifyCassette k s).2 := by simpa [conserved_iff] using h
  have ha : Conserved (verifyCassettes s).2 := by simpa [conserved_iff] using h
  simp only [setOwnerBlock, setDenomination, setMode, setNumber, refuse, refuseWith, refuseDigit]
  (repeat' split) <;> with_reducible first
    | assumption
    | exact hv _
    | exact withRoom_conserved _ _ _ _ h (acceptNumber_conserved _ _ _ h)
    | exact withRoom_conserved _ _ _ _ ha (acceptNumber_conserved _ _ _ ha)
    | exact withRoom_conserved _ _ _ _ (hv _) (acceptNumber_conserved _ _ _ (hv _))
    | exact withRoom_conserved _ _ _ _ (hv _) (acceptMode_conserved _ _ _ _ (hv _))

/-! ## Start-up (10) -/

theorem resetVolatile_conserved (s : State) (h : Conserved s) : Conserved (resetVolatile s) := by
  simpa [resetVolatile, settleOwner, resetDispenses, conserved_iff] using h

theorem beginStartUp_conserved (k : ResetKind) (s : State) (h : Conserved s) : Conserved (beginStartUp k s) :=
  resetVolatile_conserved _ h

theorem loseStaging_conserved (s : State) (h : Conserved s) : Conserved (loseStaging s) := h

theorem gapCheck_conserved (s : State) (h : Conserved s) : Conserved (gapCheck s) := by
  unfold gapCheck
  simp only []
  split <;> simpa [conserved_iff] using h

theorem alarmStart_conserved (s : State) (h : Conserved s) : Conserved (alarmStart s) := by
  have h1 : Conserved (restartEntryTimers s) := by
    refine foldl_conserved _ (fun z x hx => ?_) _ _ h
    split
    · exact onZone_conserved _ _ _ hx
    · exact hx
  have h2 : Conserved (judgeLoops (restartEntryTimers s)) :=
    foldl_conserved _ (fun z x hx => judgeReading_conserved _ _ x hx) _ _ h1
  have h3 (kept : Fin 16 → Bool) : Conserved (restoreKept kept (judgeLoops (restartEntryTimers s))) := by
    refine foldl_conserved _ (fun z x hx => ?_) _ _ h2
    split <;> simpa [conserved_iff] using hx
  exact h3 _

theorem readSensor_conserved (k : Ix) (s : State) (h : Conserved s) : Conserved (readSensor k s) := by
  unfold readSensor
  (repeat' split) <;> with_reducible first
    | assumption
    | exact bookInsertion_conserved _ s h
    | exact bookRemoval_conserved _ s h

theorem readSensors_conserved (s : State) (h : Conserved s) : Conserved (readSensors s) :=
  foldl_conserved _ readSensor_conserved _ _ h

/-- A feeding bundle without notes that a reset takes off the stack showed none (R116). -/
theorem cutEscrow_conserved (s : State) (h : Conserved s) : Conserved (cutEscrow s) := by
  rw [conserved_iff] at *
  unfold cutEscrow
  split
  · exact h
  · simp only [State.onEscrow_keeps, State.onEscrow_escrow, balanced_stepGeneration, stepGeneration_keeps]
    split
    · rename_i e; rwa [e] at h
    · rename_i b l e
      rw [e] at h
      (repeat' split) <;> first
        | exact h
        | exact (balanced_cons_empty _ b l (by omega)).1 h

theorem enterPurge_conserved (x y : Bool) (s : State) (h : Conserved s) : Conserved (enterPurge x y s) := by
  have hc : Conserved (cutEscrow { s with startUp := { s.startUp with phase := .purge } }) := cutEscrow_conserved _ h
  rw [conserved_iff] at *
  unfold enterPurge startSlot
  simp only []
  (repeat' split) <;> simpa using hc

theorem continueCheck_conserved (x y : Bool) (s : State) (h : Conserved s) : Conserved (continueCheck x y s) := by
  have hg := gapCheck_conserved s h
  simp only [continueCheck]
  refine enterPurge_conserved _ _ _ (readSensors_conserved _ (alarmStart_conserved _ ?_))
  split
  · exact hg
  · exact hg

/-- A cold start leaves no notes anywhere, and none in the flows (R26). -/
theorem coldStart_conserved (s : State) : Conserved (coldStart s) := by
  refine raiseRestriction_conserved _ ?_
  rw [conserved_iff]
  constructor
  · intro d
    simp only [Position.balance, cassetteNotes, Position.cold, Cassette.cold, Escrow.closed, Flows.zero, stackNotes_nil,
      Quad.get_zero, Quad.get_all]
    omega
  · intro k _
    cases k <;> rfl

theorem warmReset_conserved (w : WarmSource) (s : State) (h : Conserved s) : Conserved (warmReset w s) := by
  have hb := beginStartUp_conserved (.warm w) s h
  simp only [warmReset]
  split
  · exact continueCheck_conserved _ _ _ hb
  · exact hb

theorem supplyApplied_conserved (x y z : Bool) (s : State) (h : Conserved s) : Conserved (supplyApplied x y z s) := by
  unfold supplyApplied
  (repeat' split)
  · exact h
  · exact continueCheck_conserved _ _ _ (loseStaging_conserved _ (beginStartUp_conserved _ s h))
  · exact continueCheck_conserved _ _ _ (coldStart_conserved _)

theorem frameSent_conserved (p : Port) (s : State) (h : Conserved s) : Conserved (frameSent p s) := by
  unfold frameSent
  split <;> exact h

theorem answerSync_conserved (p : Port) (s : State) (h : Conserved s) : Conserved (answerSync p s) := by
  unfold answerSync
  (repeat' split) <;> simpa [conserved_iff] using h

theorem checkGoesOn_conserved (s : State) (h : Conserved s) : Conserved (checkGoesOn s) := by
  unfold checkGoesOn
  split
  · exact continueCheck_conserved _ _ s h
  · exact h

theorem writeCompleted_conserved (s : State) (h : Conserved s) : Conserved (writeCompleted s) := by
  unfold writeCompleted
  (repeat' split) <;> with_reducible try assumption
  rename_i r rest _
  have hd : Conserved (raiseDone r.sequence (retainHead r rest s)) := by
    refine foldl_conserved _ (fun w x hx => ?_) _ _ h
    simpa [conserved_iff] using hx
  have ha : Conserved (answerSyncs (raiseDone r.sequence (retainHead r rest s))) := by
    unfold answerSyncs
    iterate 4 apply answerSync_conserved
    exact hd
  refine checkGoesOn_conserved _ ?_
  simpa [conserved_iff] using ha

theorem writeFailedOnce_conserved (s : State) (h : Conserved s) : Conserved (writeFailedOnce s) := by
  have given (x : State) (hx : Conserved x) : Conserved (writeGivenUp x) := by
    unfold writeGivenUp
    simp only []
    (repeat' split)
    · exact checkGoesOn_conserved _ (loseStaging_conserved _ hx)
    · simpa [conserved_iff] using hx
    · exact hx
  unfold writeFailedOnce
  simp only []
  (repeat' split)
  · exact given _ h
  · exact h
  · exact h

theorem retryWrite_conserved (s : State) (h : Conserved s) : Conserved (retryWrite s) := by
  unfold retryWrite
  split <;> exact h

theorem recordPowerUp_conserved (s : State) (h : Conserved s) : Conserved (recordPowerUp s) := by
  simpa [recordPowerUp, conserved_iff] using h

theorem readyClaim_conserved (s : State) (h : Conserved s) : Conserved (readyClaim s) := by
  have hs : Conserved (settleOwner s) := by simpa [settleOwner, conserved_iff] using h
  simp only [readyClaim]
  split <;> simpa [conserved_iff] using hs

theorem readyAlarm_conserved (s : State) (h : Conserved s) : Conserved (readyAlarm s) := by
  simp only [readyAlarm]
  split <;> simpa [conserved_iff] using h

theorem judgePermit_conserved (s : State) (h : Conserved s) : Conserved (judgePermit s) := by
  simpa [conserved_iff] using h

theorem takeDuress_conserved (t : Teller) (s : State) (h : Conserved s) : Conserved (takeDuress t s) := by
  unfold takeDuress
  split <;> simpa [conserved_iff] using h

theorem startUpReady_conserved (s : State) (h : Conserved s) : Conserved (startUpReady s) := by
  have hp := recordPowerUp_conserved _ (readyAlarm_conserved _ (judgePermit_conserved _ (readyClaim_conserved s h)))
  have started (x : State) (hx : Conserved x) : Conserved { x with startUp := { x.startUp with phase := .ready } } := hx
  unfold startUpReady
  split
  · exact takeDuress_conserved _ _ (takeDuress_conserved _ _ (started _ hp))
  · exact h

/-! ## Every command -/

/-- The end of a step keeps the first law. -/
theorem conserved_of_done (s t : State) (h : Conserved s) (e : done s = .next t) : Conserved t := by
  simp only [done, Host.Outcome.next.injEq] at e
  rw [← e]
  simpa [conserved_iff] using h

theorem enterPullback_conserved (s : State) (h : Conserved s) : Conserved (enterPullback s) := by
  unfold enterPullback
  simp only []
  (repeat' split) <;> simpa [conserved_iff] using h

theorem giveEnvelopeBack_conserved (s : State) (h : Conserved s) : Conserved (giveEnvelopeBack s) := by
  simpa [giveEnvelopeBack, conserved_iff] using h

theorem ungripped_conserved (s : State) (h : Conserved s) : Conserved (ungripped s) := by
  unfold ungripped
  (repeat' split)
  · exact giveEnvelopeBack_conserved s h
  · exact enterPullback_conserved _ (giveEnvelopeBack_conserved s h)
  · exact h

theorem imprintFailed_conserved (s : State) (h : Conserved s) : Conserved (imprintFailed s) := by
  unfold imprintFailed
  simp only []
  split <;> simpa [enterDrop, onEnvelope, conserved_iff] using h

theorem imprinterReported_conserved (r : ImprintResult) (s : State) (h : Conserved s) :
    Conserved (imprinterReported r s) := by
  unfold imprinterReported
  (repeat' split)
  · simpa [enterDrop, onEnvelope, conserved_iff] using h
  · exact imprintFailed_conserved s h
  · exact h

theorem dropReported_conserved (s : State) (h : Conserved s) : Conserved (dropReported s) := by
  unfold dropReported
  simp only []
  (repeat' split) <;> simpa [conserved_iff] using h

theorem notFound_conserved (s : State) (h : Conserved s) : Conserved (notFound s) := by
  unfold notFound
  (repeat' split) <;> simpa [conserved_iff] using h

theorem clearRunExpired_conserved (s : State) (h : Conserved s) : Conserved (clearRunExpired s) := by
  unfold clearRunExpired
  split
  · simpa [conserved_iff] using notFound_conserved s h
  · exact h

theorem intakeExpired_conserved (s : State) (h : Conserved s) : Conserved (intakeExpired s) := by
  unfold intakeExpired
  (repeat' split) <;> simpa [conserved_iff] using h

theorem binEmptiedOwner_conserved (s : State) (h : Conserved s) : Conserved (binEmptiedOwner s).2 := by
  simp only [binEmptiedOwner, refuse]
  (repeat' split) <;> with_reducible try assumption
  exact withRoom_conserved _ _ _ _ h (by simpa [emptyBin, ok, conserved_iff] using h)

theorem clockSetOwner_conserved (ops : List Byte) (s : State) (h : Conserved s) : Conserved (clockSetOwner ops s).2 := by
  simp only [clockSetOwner, refuse]
  split <;> with_reducible try assumption
  exact withRoom_conserved _ _ _ _ h (by simpa [acceptClock, moveDelay, ok, conserved_iff] using h)

theorem trimOwner_conserved (ops : List Byte) (s : State) (h : Conserved s) : Conserved (trimOwner ops s).2 := by
  simp only [trimOwner, okOrClamped, applyTrim]
  (repeat' split) <;> exact h

theorem journalScanOwner_conserved (f : Frame) (s : State) (h : Conserved s) : Conserved (journalScanOwner f s).2 := by
  simp only [journalScanOwner, scanFrom, refuse, refuseWith, refuseDigit, ok]
  (repeat' split) <;> exact h

theorem statusOwner_conserved (f : Frame) (s : State) (h : Conserved s) : Conserved (statusOwner f s).2 := by
  simp only [statusOwner, refuse, ok]
  split <;> exact h

theorem approveOwner_conserved (ops : List Byte) (s : State) (h : Conserved s) : Conserved (approveOwner ops s).2 := by
  simp only [approveOwner, refuse, ok]
  (repeat' split) <;> exact h

end Sys2Proof.Machine
end

section
/-! The first law (R3), kept by every command (O4). -/
namespace Sys2Proof.Machine

/-- A request whose block keeps the first law. -/
theorem conserved_of_request (r : Request) (f : Frame) (owner : State → Answer × State) (s t : State) (h : Conserved s)
    (ho : ∀ x : State, Conserved x → Conserved (owner x).2) (e : done (takeRequest r f owner s) = .next t) : Conserved t :=
  conserved_of_done _ t (takeRequest_conserved r f owner ho s h) e

/-- An event whose effect keeps the first law. -/
theorem conserved_of_event (f : State → State) (s t : State) (h : Conserved s) (hf : ∀ x, Conserved x → Conserved (f x))
    (e : done (event f s) = .next t) : Conserved t :=
  conserved_of_done _ t (event_conserved f hf s h) e

/-- Every command keeps the first law (R3). -/
theorem exec_conserved (c : Instr) (s t : State) (h : Conserved s) (e : exec c s = .next t) : Conserved t := by
  cases c with
  | dispense f => exact conserved_of_done _ t (takeConsuming_conserved _ f _ (dispenseOwner_conserved f) s h) e
  | cancel f => exact conserved_of_request _ f _ s t h (cancelOwner_conserved f) e
  | claim f => exact conserved_of_request _ f _ s t h (claimOwner_conserved f) e
  | release f => exact conserved_of_request _ f _ s t h (releaseOwner_conserved f) e
  | depositOpen f => exact conserved_of_request _ f _ s t h (depositOpenOwner_conserved f) e
  | depositClose f => exact conserved_of_request _ f _ s t h (depositCloseOwner_conserved f) e
  | insertNotes f => exact conserved_of_request _ f _ s t h (insertOwner_conserved f) e
  | returnLast f => exact conserved_of_request _ f _ s t h (returnOwner_conserved f.port false) e
  | returnAll f => exact conserved_of_request _ f _ s t h (returnOwner_conserved f.port true) e
  | compareEscrow f => exact conserved_of_request _ f _ s t h (compareOwner_conserved f) e
  | commit f => exact conserved_of_done _ t (takeConsuming_conserved _ f _ (commitOwner_conserved f) s h) e
  | post f => exact conserved_of_done _ t (takeConsuming_conserved _ f _ (postOwner_conserved f) s h) e
  | handover f => exact conserved_of_request _ f _ s t h (handoverOwner_conserved f.operands) e
  | load f => exact conserved_of_request _ f _ s t h (loadOwner_conserved f.operands) e
  | unload f => exact conserved_of_request _ f _ s t h (unloadOwner_conserved f.operands) e
  | unloadBin f => exact conserved_of_request _ f _ s t h (unloadOwner_conserved f.operands) e
  | reconcile f => exact conserved_of_request _ f _ s t h (reconcileOwner_conserved f.operands) e
  | jamClearModule f => exact conserved_of_request _ f _ s t h (jamClearOwner_conserved f) e
  | jamClearSlot f => exact conserved_of_request _ f _ s t h (jamClearOwner_conserved f) e
  | slotOpen f => exact conserved_of_request _ f _ s t h (fun x hx => by simpa [setSupervisor, ok, conserved_iff] using hx) e
  | slotClose f => exact conserved_of_request _ f _ s t h (fun x hx => by simpa [setSupervisor, ok, conserved_iff] using hx) e
  | binEmptied f => exact conserved_of_request _ f _ s t h binEmptiedOwner_conserved e
  | zoneSet f => exact conserved_of_request _ f _ s t h (zoneSetOwner_conserved f.operands) e
  | arm f => exact conserved_of_request _ f _ s t h armOwner_conserved e
  | disarm f => exact conserved_of_request _ f _ s t h disarmOwner_conserved e
  | bypass f => exact conserved_of_request _ f _ s t h (bypassOwner_conserved f.operands) e
  | alarmAck f => exact conserved_of_request _ f _ s t h (alarmAckOwner_conserved f.operands) e
  | alarmList f =>
    exact conserved_of_request _ f _ s t h (fun x hx => by simpa only [alarmListOwner, okOrClamped] using hx) e
  | silence f => exact conserved_of_request _ f _ s t h (fun x hx => conserved_of_same x _ rfl rfl hx) e
  | journalRead f =>
    refine conserved_of_request _ f _ s t h (fun x hx => ?_) e
    simp only [journalReadOwner, ok, refuseWith]
    split <;> exact conserved_of_same x _ rfl rfl hx
  | journalScan f => exact conserved_of_request _ f _ s t h (journalScanOwner_conserved f) e
  | trim f => exact conserved_of_request _ f _ s t h (trimOwner_conserved f.operands) e
  | sync f =>
    refine conserved_of_request _ f _ s t h (fun x hx => ?_) e
    simp only [syncOwner, ok]
    split <;> exact conserved_of_same x _ rfl rfl hx
  | status f => exact conserved_of_request _ f _ s t h (statusOwner_conserved f) e
  | positionRead f => exact conserved_of_request _ f _ s t h positionReadOwner_conserved e
  | clearFaults f => exact conserved_of_request _ f _ s t h (fun x hx => conserved_of_same x _ rfl rfl hx) e
  | approve f => exact conserved_of_request _ f _ s t h (approveOwner_conserved f.operands) e
  | clockSet f => exact conserved_of_request _ f _ s t h (clockSetOwner_conserved f.operands) e
  | setSetting f => exact conserved_of_request _ f _ s t h (setOwnerBlock_conserved f.operands) e
  | restart f => exact conserved_of_request _ f _ s t h (fun x hx => conserved_of_same x _ rfl rfl hx) e
  | unknownRequest code f =>
    refine conserved_of_done _ t ?_ e
    simp only [takeFrame, refuse]
    (repeat' split) <;> simpa [giveAnswer, conserved_iff] using h
  | invalidFrame p why =>
    refine conserved_of_done _ t (whenPowered_conserved _ (fun x hx => ?_) s h) e
    simp only [frameDiscarded, setFrameFlag]
    split <;> simpa [conserved_iff] using hx
  | frameGapTimeout p =>
    refine conserved_of_done _ t (whenPowered_conserved _ (fun x hx => ?_) s h) e
    exact conserved_of_same x _ rfl rfl hx
  | overrun p =>
    refine conserved_of_done _ t (whenPowered_conserved _ (fun x hx => ?_) s h) e
    simp only [overran]
    split <;> simpa [conserved_iff] using hx
  | frameSent p =>
    refine conserved_of_done _ t ?_ e
    (repeat' split)
    · exact warmReset_conserved _ s h
    · exact frameSent_conserved p s h
    · exact h
  | duressRaise w =>
    refine conserved_of_event _ s t h (fun x hx => ?_) e
    simp only [duressRaised]
    split <;> simpa [conserved_iff] using hx
  | claimIdleExpiry =>
    refine conserved_of_event _ s t h (fun x hx => ?_) e
    split
    · exact idleExpired_conserved x hx
    · exact hx
  | delayEnd w => exact conserved_of_event _ s t h (delayEnded_conserved w) e
  | presentTimerExpiry w =>
    refine conserved_of_event _ s t h (fun x hx => ?_) e
    split <;> exact conserved_of_same x _ rfl rfl hx
  | pocketEmpty w =>
    refine conserved_of_event _ s t h (fun x hx => ?_) e
    split
    · exact pocketEmptied_conserved w x hx
    · exact hx
  | pickEvent m => exact conserved_of_event _ s t h (pickReport_conserved m) e
  | noteCheck r => exact conserved_of_event _ s t h (checkNote_conserved r) e
  | noteSensorArrival a => exact conserved_of_event _ s t h (noteArrived_conserved a) e
  | noteJam x => exact conserved_of_event _ s t h (noteJammed_conserved x) e
  | retractNoteCounted d => exact conserved_of_event _ s t h (noteDrawn_conserved d) e
  | drawSourceEmpty => exact conserved_of_event _ s t h sourceEmpty_conserved e
  | cassetteRemoval k => exact conserved_of_done _ t (cassetteRemoved_conserved k s h) e
  | cassetteInsertion k => exact conserved_of_done _ t (cassetteInserted_conserved k s h) e
  | feedTake => exact conserved_of_event _ s t h noteTaken_conserved e
  | feedMiss => exact conserved_of_event _ s t h noteMissed_conserved e
  | insertVerdict v => exact conserved_of_event _ s t h (judgeNote_conserved v) e
  | drumEntry => exact conserved_of_event _ s t h drumEntered_conserved e
  | compartmentEntry => exact conserved_of_event _ s t h compartmentEntered_conserved e
  | returnPocketEntry => exact conserved_of_event _ s t h returnPocketEntered_conserved e
  | intakeEmpty w => exact conserved_of_event _ s t h (intakeEmptied_conserved w) e
  | drumExit => exact conserved_of_event _ s t h drumExited_conserved e
  | drumEmpty => exact conserved_of_event _ s t h drumEmptied_conserved e
  | cassetteEntry k => exact conserved_of_event _ s t h (cassetteEntered_conserved k) e
  | gripOn =>
    refine conserved_of_event _ s t h (fun x hx => ?_) e
    unfold gripped
    split <;> exact conserved_of_same x _ rfl rfl hx
  | gripOff => exact conserved_of_event _ s t h ungripped_conserved e
  | imprintReport =>
    refine conserved_of_event _ s t h (fun x hx => ?_) e
    unfold imprintReported
    split <;> exact conserved_of_same x _ rfl rfl hx
  | intakeTimerExpiry => exact conserved_of_event _ s t h intakeExpired_conserved e
  | reverseTimerExpiry =>
    refine conserved_of_event _ s t h (fun x hx => ?_) e
    unfold reverseExpired
    split <;> exact conserved_of_same x _ rfl rfl hx
  | imprinterReport r => exact conserved_of_event _ s t h (imprinterReported_conserved r) e
  | imprinterTimeout =>
    refine conserved_of_event _ s t h (fun x hx => ?_) e
    split
    · exact imprintFailed_conserved x hx
    · exact hx
  | dropReport => exact conserved_of_event _ s t h dropReported_conserved e
  | dropTimerExpiry =>
    refine conserved_of_event _ s t h (fun x hx => ?_) e
    unfold dropExpired
    split <;> simpa [conserved_iff] using hx
  | clearRunExpiry => exact conserved_of_event _ s t h clearRunExpired_conserved e
  | mouthClear =>
    refine conserved_of_event _ s t h (fun x hx => ?_) e
    exact conserved_of_same x _ rfl rfl hx
  | keyDigit d =>
    refine conserved_of_event _ s t h (fun x hx => ?_) e
    unfold takeKey
    split <;> exact conserved_of_same x _ rfl rfl hx
  | keyEnter =>
    refine conserved_of_event _ s t h (fun x hx => ?_) e
    unfold takeKey
    split <;> exact conserved_of_same x _ rfl rfl hx
  | keyClear =>
    refine conserved_of_event _ s t h (fun x hx => ?_) e
    unfold takeKey
    split <;> exact conserved_of_same x _ rfl rfl hx
  | keypadTimerExpiry =>
    refine conserved_of_event _ s t h (fun x hx => ?_) e
    split <;> exact conserved_of_same x _ rfl rfl hx
  | receiptPrinterReport r =>
    refine conserved_of_event _ s t h (fun x hx => ?_) e
    unfold receiptReported
    split <;> exact conserved_of_same x _ rfl rfl hx
  | paperLoaded =>
    refine conserved_of_event _ s t h (fun x hx => ?_) e
    exact conserved_of_same x _ rfl rfl hx
  | loopReading z r =>
    refine conserved_of_done _ t ?_ e
    unfold loopRead
    simp only []
    (repeat' split) <;> exact h
  | debouncedReadingChange z =>
    refine conserved_of_event _ s t h (fun x hx => ?_) e
    unfold readingHeld
    split
    · exact judgeReading_conserved _ _ _ (onZone_conserved _ _ x hx)
    · exact hx
  | entryTimerExpiry z =>
    refine conserved_of_event _ s t h (fun x hx => ?_) e
    simp only [entryExpired]
    (repeat' split) <;> simpa [conserved_iff] using hx
  | monitorTimerExpiry =>
    refine conserved_of_event _ s t h (fun x hx => ?_) e
    unfold monitorExpired
    split <;> simpa [conserved_iff] using hx
  | sounderTimerExpiry =>
    refine conserved_of_event _ s t h (fun x hx => ?_) e
    split <;> exact conserved_of_same x _ rfl rfl hx
  | approvalExpiry p =>
    refine conserved_of_event _ s t h (fun x hx => ?_) e
    exact conserved_of_same x _ rfl rfl hx
  | syncTimeout p =>
    refine conserved_of_event _ s t h (fun x hx => ?_) e
    unfold syncTimedOut
    split <;> simpa [conserved_iff] using hx
  | writeComplete =>
    refine conserved_of_done _ t ?_ e
    split
    · exact writeCompleted_conserved s h
    · exact h
  | writeFailed =>
    refine conserved_of_done _ t ?_ e
    split
    · exact writeFailedOnce_conserved s h
    · exact h
  | stalledRetry =>
    refine conserved_of_done _ t ?_ e
    split
    · exact retryWrite_conserved s h
    · exact h
  | clockTick =>
    refine conserved_of_done _ t ?_ e
    exact conserved_of_same s _ rfl rfl h
  | clockCalendarEnd =>
    refine conserved_of_done _ t ?_ e
    unfold calendarEnds
    split <;> exact conserved_of_same s _ rfl rfl h
  | supplyApplied x y z => exact conserved_of_done _ t (supplyApplied_conserved x y z s h) e
  | powerLoss =>
    refine conserved_of_done _ t ?_ e
    exact conserved_of_same s _ rfl rfl h
  | resetLine =>
    refine conserved_of_done _ t ?_ e
    split
    · exact warmReset_conserved _ s h
    · exact h
  | restartReset =>
    refine conserved_of_done _ t ?_ e
    split
    · exact warmReset_conserved _ s h
    · exact h
  | startUpReady => exact conserved_of_done _ t (startUpReady_conserved s h) e

/-- Settles O4: every command keeps the balance of each denomination, and an empty queue changes nothing. -/
theorem stepKeepsConservation : Obligations.StepKeepsConservation := by
  intro s t h e
  unfold step at e
  split at e
  · cases e; exact h
  · rename_i c rest _
    exact exec_conserved c { s with pending := rest } t (conserved_of_same s _ rfl rfl h) e

end Sys2Proof.Machine
end

section
/-! The values at reset, and the laws there (O3, O5). -/
namespace Sys2Proof.Machine

/-- Settles O3: State.reset holds the cold-start values. -/
theorem resetValues : Obligations.ResetValues := by
  refine ⟨rfl, rfl, rfl, rfl, rfl, rfl, rfl, rfl, rfl, rfl, fun k => ?_, fun a => ?_, rfl, rfl, rfl, rfl, rfl, rfl, rfl, rfl,
    rfl, rfl, rfl, rfl⟩
  · cases k <;> exact ⟨rfl, rfl, rfl⟩
  · cases a <;> rfl

/-- At reset no place holds notes and no flow has counted any (R3, R26). -/
theorem reset_conserved : Conserved State.reset := by
  rw [conserved_iff]
  constructor
  · intro d
    cases d <;> rfl
  · intro k _
    cases k <;> rfl

/-- The two records of the first start-up follow one another from number 1 (R160). -/
theorem reset_inOrder : InOrder State.reset.journal := by
  refine ⟨⟨rfl, trivial⟩, ?_, ?_, ?_, ?_, Nat.le_refl _, .inr rfl⟩
  · intro r hr; cases hr
  · decide
  · intro r hr; cases hr
  · intro r hr; cases hr; rfl

/-- No reply waits at reset, and every transmitter is sending a notice (R186). -/
theorem reset_atRest : AtRest State.reset := by
  intro _
  refine ⟨by decide, rfl, rfl, fun p hp => ?_⟩
  cases p <;> cases hp

/-- Settles O5: the laws hold at reset. -/
theorem resetMeetsTheLaws : Obligations.ResetMeetsTheLaws :=
  ⟨reset_conserved, ⟨by decide, by decide, by decide⟩, reset_inOrder, reset_atRest⟩

end Sys2Proof.Machine
end

section
/-! The delivery order of a bundle and the destination of a note: the first of an ordered list that a test holds of. -/
namespace Sys2Proof.Machine

/-! ## The first of an ordered list -/

/-- In a list ordered by an asymmetric relation, the first element a test holds of is the one that comes before every other such. -/
theorem find?_eq_some_iff_of_pairwise {α : Type} (R : α → α → Prop) (asymm : ∀ a b, R a b → ¬R b a) (test : α → Bool)
    (l : List α) (h : l.Pairwise R) (a : α) :
    l.find? test = some a ↔ a ∈ l ∧ test a = true ∧ ∀ b ∈ l, b ≠ a → test b = true → R a b := by
  induction l with
  | nil => simp
  | cons x l ih =>
    obtain ⟨hx, hl⟩ := List.pairwise_cons.mp h
    rw [List.find?_cons]
    cases ht : test x with
    | true =>
      simp only [Option.some.injEq]
      constructor
      · rintro rfl
        refine ⟨List.mem_cons_self, ht, fun b hb hne _ => hx b ?_⟩
        exact (List.mem_cons.mp hb).resolve_left hne
      · rintro ⟨ha, -, hmin⟩
        by_contra hne
        have hal := (List.mem_cons.mp ha).resolve_left (Ne.symm hne)
        exact asymm _ _ (hx a hal) (hmin x List.mem_cons_self hne ht)
    | false =>
      rw [ih hl]
      constructor
      · rintro ⟨ha, hta, hmin⟩
        refine ⟨List.mem_cons_of_mem _ ha, hta, fun b hb hne htb => ?_⟩
        rcases List.mem_cons.mp hb with rfl | hb
        · rw [ht] at htb; cases htb
        · exact hmin b hb hne htb
      · rintro ⟨ha, hta, hmin⟩
        refine ⟨(List.mem_cons.mp ha).resolve_left ?_, hta, fun b hb => hmin b (List.mem_cons_of_mem _ hb)⟩
        rintro rfl
        rw [ht] at hta; cases hta

/-! ## The denominations by value -/

/-- The order of delivery: the smaller value first, the lower number first of equal values (R64, R95). -/
def DeliveredBefore (values : Quad Nat) (d e : Ix) : Prop :=
  values.get d < values.get e ∨ (values.get d = values.get e ∧ d.number < e.number)

theorem DeliveredBefore.asymm {values : Quad Nat} (d e : Ix) (h : DeliveredBefore values d e) : ¬DeliveredBefore values e d := by
  unfold DeliveredBefore at *; omega

theorem DeliveredBefore.trans {values : Quad Nat} {c d e : Ix} (h : DeliveredBefore values c d)
    (h' : DeliveredBefore values d e) : DeliveredBefore values c e := by
  unfold DeliveredBefore at *; omega

@[simp] theorem mem_insertByValue (values : Quad Nat) (d e : Ix) (l : List Ix) :
    e ∈ insertByValue values d l ↔ e = d ∨ e ∈ l := by
  induction l with
  | nil => simp [insertByValue]
  | cons x l ih =>
    rw [insertByValue]
    split
    · simp
    · simp only [List.mem_cons, ih]; tauto

/-- A denomination inserted into an ordered list of lower-numbered ones leaves it ordered. -/
theorem pairwise_insertByValue (values : Quad Nat) (d : Ix) (l : List Ix) (h : l.Pairwise (DeliveredBefore values))
    (hd : ∀ e ∈ l, e.number < d.number) : (insertByValue values d l).Pairwise (DeliveredBefore values) := by
  induction l with
  | nil => simp [insertByValue]
  | cons x l ih =>
    obtain ⟨hx, hl⟩ := List.pairwise_cons.mp h
    rw [insertByValue]
    split
    · next hlt =>
      have hdx : DeliveredBefore values d x := .inl hlt
      refine List.pairwise_cons.mpr ⟨fun e he => ?_, h⟩
      rcases List.mem_cons.mp he with rfl | he
      · exact hdx
      · exact hdx.trans (hx e he)
    · next hge =>
      have hxd : DeliveredBefore values x d := by
        have := hd x List.mem_cons_self
        unfold DeliveredBefore; omega
      refine List.pairwise_cons.mpr ⟨fun e he => ?_, ih hl fun e he => hd e (List.mem_cons_of_mem _ he)⟩
      rcases (mem_insertByValue values d e l).mp he with rfl | he
      · exact hxd
      · exact hx e he

theorem mem_byValue (values : Quad Nat) (d : Ix) : d ∈ byValue values := by
  cases d <;> simp [byValue, Ix.all]

theorem pairwise_byValue (values : Quad Nat) : (byValue values).Pairwise (DeliveredBefore values) := by
  simp only [byValue, Ix.all, List.foldl_cons, List.foldl_nil]
  refine pairwise_insertByValue _ _ _ (pairwise_insertByValue _ _ _ (pairwise_insertByValue _ _ _
    (pairwise_insertByValue _ _ _ List.Pairwise.nil ?_) ?_) ?_) ?_ <;> simp [Ix.number]

/-- The denomination of smallest value with a count above 0 comes before every other such (R64). -/
theorem smallestHeld_eq_some_iff (values counts : Quad Nat) (d : Ix) :
    smallestHeld values counts = some d ↔
      0 < counts.get d ∧ ∀ e : Ix, e ≠ d → 0 < counts.get e → DeliveredBefore values d e := by
  rw [smallestHeld, find?_eq_some_iff_of_pairwise _ DeliveredBefore.asymm _ _ (pairwise_byValue values)]
  simp [mem_byValue]

/-- None is held where the counts are all 0. -/
theorem smallestHeld_eq_none_iff (values counts : Quad Nat) : smallestHeld values counts = none ↔ counts.total = 0 := by
  rw [smallestHeld, List.find?_eq_none]
  constructor
  · intro h
    have none (d : Ix) : counts.get d = 0 := by simpa using h d (mem_byValue values d)
    have h1 : counts.c1 = 0 := none .i1
    have h2 : counts.c2 = 0 := none .i2
    have h3 : counts.c3 = 0 := none .i3
    have h4 : counts.c4 = 0 := none .i4
    simp [Quad.total, h1, h2, h3, h4]
  · intro h d _
    simp [Quad.get_eq_zero_of_total counts h d]

/-- The next note of a bundle (R95). -/
theorem Bundle.next_eq_some_iff (values : Quad Nat) (b : Bundle) (d : Ix) (fit : Bool) :
    b.next values = some (d, fit) ↔
      (fit = true ∨ b.fit.total = 0) ∧ smallestHeld values (if fit then b.fit else b.unfit) = some d := by
  unfold Bundle.next
  cases hf : smallestHeld values b.fit with
  | some e =>
    have hne : b.fit.total ≠ 0 := fun h => by simp [(smallestHeld_eq_none_iff values b.fit).mpr h] at hf
    cases fit <;> simp [hf, hne]
  | none =>
    have h0 : b.fit.total = 0 := (smallestHeld_eq_none_iff values b.fit).mp hf
    cases hu : smallestHeld values b.unfit <;> cases fit <;> simp [hf, hu, h0]

/-! ## The destination of a note -/

theorem Ix.mem_all (k : Ix) : k ∈ Ix.all := by cases k <;> decide

/-- The first cassette a test holds of. -/
theorem firstCassette_eq_some_iff (test : Ix → Bool) (k : Ix) :
    Ix.all.find? test = some k ↔ test k = true ∧ ∀ j : Ix, j.number < k.number → ¬test j = true := by
  have hp : Ix.all.Pairwise (fun j k => j.number < k.number) := by decide
  have low (j : Ix) (hne : j ≠ k) (h : ¬j.number < k.number) : k.number < j.number := by
    cases j <;> cases k <;> simp_all [Ix.number]
  rw [find?_eq_some_iff_of_pairwise _ (fun _ _ => Nat.lt_asymm) _ _ hp]
  constructor
  · rintro ⟨-, hk, hmin⟩
    exact ⟨hk, fun j hj ht => Nat.lt_asymm hj (hmin j (Ix.mem_all j) (by rintro rfl; omega) ht)⟩
  · rintro ⟨hk, hmin⟩
    exact ⟨Ix.mem_all k, hk, fun j _ hne ht => low j hne fun hlt => hmin j hlt ht⟩

theorem firstCassette_eq_none_iff (test : Ix → Bool) : Ix.all.find? test = none ↔ ∀ j : Ix, ¬test j = true := by
  simp [List.find?_eq_none, Ix.mem_all]

/-- The destination of a note: a fit note's RECYCLE cassette, otherwise the DEPOSIT cassette (R112). -/
theorem destination_eq_some_iff (s : State) (d k : Ix) (fit : Bool) :
    s.destination d fit = some k ↔
      (fit = true ∧ Ix.all.find? (fun j => (s.position.cassettes.get j).recycleFor d) = some k) ∨
        ((fit = true → Ix.all.find? (fun j => (s.position.cassettes.get j).recycleFor d) = none) ∧
          Ix.all.find? (fun j => (s.position.cassettes.get j).depositFor) = some k) := by
  unfold State.destination
  cases fit <;> simp [Option.or_eq_some_iff]

/-- Settles O35: the list of the denominations is ordered by value and number, so the first one held is the next note's; and of the
cassettes in ascending number the first that fits is the destination. -/
theorem deliveryOrderAndDestinations : Obligations.DeliveryOrderAndDestinations := by
  unfold Obligations.DeliveryOrderAndDestinations
  constructor
  · intro values b d fit
    rw [Bundle.next_eq_some_iff, smallestHeld_eq_some_iff]
    rfl
  · intro s d k fit
    rw [destination_eq_some_iff, firstCassette_eq_some_iff, firstCassette_eq_some_iff, firstCassette_eq_none_iff]
    simp only [Cassette.recycleFor, Cassette.depositFor, Bool.and_eq_true, Bool.or_eq_true, Bool.not_eq_true', Bool.or_eq_false_iff,
      beq_iff_eq, decide_eq_true_eq, beq_eq_false_iff_ne, ne_eq, and_assoc, or_assoc]

end Sys2Proof.Machine
end

section
/-! How a request that reaches its block completes, whatever it answers: what the ports keep, the reply, the approval consumed. -/
namespace Sys2Proof.Machine

/-! ## What raised notices leave of the ports -/

/-- What a port holds but for its pending notices, their number and its receiver: its marks, its held request, its transmitter. -/
def Ports.lines (ps : Ports) (q : Port) : (Bool × Bool × Option ApprovalClass × Bool × Nat) × Option Held × Transmitter :=
  ((ps.get q).marks, (ps.get q).held, (ps.get q).transmitter)

@[simp] theorem raise_lines (p : Port) (x : Notice) (s : State) : (raise p x s).ports.lines = s.ports.lines := by
  funext q
  obtain ⟨h1, h2, h3⟩ := raise_port p q x s
  simp only [Ports.lines, h1, h2, h3]

@[simp] theorem raiseTo_lines (ps : List Port) (x : Notice) (s : State) : (raiseTo ps x s).ports.lines = s.ports.lines := by
  unfold raiseTo
  induction ps generalizing s with
  | nil => rfl
  | cons p ps ih => simp [ih]

@[simp] theorem raiseRestriction_lines (s : State) : (raiseRestriction s).ports.lines = s.ports.lines := by
  simp [raiseRestriction]

@[simp] theorem raiseJournalHigh_lines (s : State) : (raiseJournalHigh s).ports.lines = s.ports.lines := by
  simp [raiseJournalHigh]

@[simp] theorem watchHighWater_lines (s : State) : (watchHighWater s).ports.lines = s.ports.lines := by
  unfold watchHighWater; split <;> simp

@[simp] theorem watchExhausted_lines (s : State) : (watchExhausted s).ports.lines = s.ports.lines := by
  unfold watchExhausted; split <;> simp

@[simp] theorem stage_lines (d : Draft) (s : State) : (stage d s).2.ports.lines = s.ports.lines := by
  unfold stage; split <;> simp

@[simp] theorem loseRecord_lines (s : State) : (loseRecord s).ports.lines = s.ports.lines := by
  unfold loseRecord; simp only []; split <;> simp

@[simp] theorem eventRecord_lines (d : Draft) (s : State) : (eventRecord d s).2.ports.lines = s.ports.lines := by
  unfold eventRecord; split <;> simp

@[simp] theorem stageApplied_lines (d : Draft) (s : State) : (stageApplied d s).2.ports.lines = s.ports.lines := by
  simp [stageApplied]

@[simp] theorem eventApplied_lines (d : Draft) (s : State) : (eventApplied d s).2.ports.lines = s.ports.lines := by
  simp [eventApplied]

@[simp] theorem addCause_lines (c : AuditCause) (s : State) : (addCause c s).ports.lines = s.ports.lines := by
  unfold addCause; simp only []; split <;> simp

@[simp] theorem integrityFailure_lines (w : GuardedRecord) (s : State) :
    (integrityFailure w s).ports.lines = s.ports.lines := by
  simp [integrityFailure]

@[simp] theorem verifyCassette_lines (k : Ix) (s : State) : (verifyCassette k s).2.ports.lines = s.ports.lines := by
  unfold verifyCassette; split <;> simp

@[simp] theorem verifyAccount_lines (a : AccountId) (s : State) : (verifyAccount a s).2.ports.lines = s.ports.lines := by
  unfold verifyAccount; split <;> simp

@[simp] theorem watchLow_lines (k : Ix) (b : CassetteState) (s : State) :
    (watchLow k b s).ports.lines = s.ports.lines := by
  unfold watchLow; simp only []; split <;> simp

@[simp] theorem writeCassette_lines (k : Ix) (c : Cassette) (s : State) :
    (writeCassette k c s).ports.lines = s.ports.lines := by
  simp [writeCassette]

@[simp] theorem writeCassetteAs_lines (k : Ix) (c : Cassette) (s : State) :
    (writeCassetteAs k c s).ports.lines = s.ports.lines := by
  simp [writeCassetteAs]

/-- Ports whose lines are as they were keep their marks. -/
theorem kept_ports_of_lines (s t : State) (h : t.ports.lines = s.ports.lines) : Kept .ports s t := by
  intro p
  have e := congrFun h p
  simp only [Ports.lines, PortState.marks, Prod.mk.injEq] at e
  obtain ⟨⟨h1, h2, h3, h4, -⟩, -, -⟩ := e
  exact ⟨h1, h2, h3, h4⟩

/-! ## Requests that are answered at once -/

/-- A request that reaches its block and is answered at once: the step ends with the reply, with what the block has left, and with every
notice it has raised. -/
theorem answered_of (c : Instr) (r : Request) (f : Frame) (owner : Bool → State → Answer × State) (st : Status)
    (reason : Option Reason) (res : Results) (s s' : State) (he : exec c s = done (takeConsuming r f owner s))
    (h : Taken r f s) (ho : owner (consumed r f s) (reached r f s) = (.reply st reason res, s')) (hq : Quiet s')
    (hr : s'.startUp.phase = .ready) (hl : s'.ports.lines = (reached r f s).ports.lines) :
    ∃ t : State, exec c s = .next t ∧ Answers r f st reason res s t ∧ KeptBut [] s' t ∧
      ∀ p n, Told p n s' → n.kind ≠ .alarmChange → Told p n t := by
  have hport := reached_port r f s h
  have e := congrFun hl f.port
  simp only [Ports.lines, PortState.marks, Prod.mk.injEq] at e
  obtain ⟨⟨h1, h2, -⟩, h3, -⟩ := e
  have hf : (s'.ports.get f.port).faultsPending = (s.ports.get f.port).faultsPending := by
    simp [PortState.faultsPending, h1, h2, hport]
  obtain ⟨ha, hk⟩ := taken_answers r f s s' st reason res h hq hr h3 hf
  refine ⟨settle (formReply f.port st reason res s'), ?_, ha, hk, fun p n ht hn => ?_⟩
  · rw [he, taken_forms r f owner s h, ho]; rfl
  · refine settle_told p n _ (quiet_of_eq s' _ hq (by simp) (by simp) (by simp)) (by simp [State.powered, hr]) ?_ hn
    exact formReply_told _ _ _ _ _ _ _ ht

/-- Nothing waits where the request is asked. -/
theorem reached_quiet (r : Request) (f : Frame) (s : State) (h : Taken r f s) : Quiet (reached r f s) := by
  have k := reached_keeps r f s h
  obtain ⟨-, -, -, -, hq, -⟩ := h
  exact quiet_of_eq s _ hq (by simp [k]) (by simp [k]) (by simp [k])

theorem reached_ready (r : Request) (f : Frame) (s : State) (h : Taken r f s) :
    (reached r f s).startUp.phase = .ready := by
  rw [(reached_keeps r f s h).1]; exact h.1

/-- What the approval a request consumes leaves at the ports stays through a step that keeps their lines. -/
theorem approvalUsed_of (r : Request) (f : Frame) (s s' t : State) (h : Taken r f s)
    (hl : s'.ports.lines = (reached r f s).ports.lines) (hk : Kept .ports s' t) : ApprovalUsed r f s t := by
  have hu := reached_used r f s h
  have hp := kept_ports_of_lines _ _ hl
  intro q
  obtain ⟨a1, a2, a3, a4⟩ := hu q
  obtain ⟨b1, b2, b3, b4⟩ := hp q
  obtain ⟨c1, c2, c3, c4⟩ := hk q
  exact ⟨c1.trans (b1.trans a1), c2.trans (b2.trans a2), c4.trans (b4.trans a3), (c3.trans b3).trans a4⟩

/-- A request refused without effect but for the approval it consumed. -/
theorem refused_of (c : Instr) (r : Request) (f : Frame) (owner : Bool → State → Answer × State) (why : Reason)
    (res : Results) (s : State) (he : exec c s = done (takeConsuming r f owner s)) (h : Taken r f s)
    (ho : owner (consumed r f s) (reached r f s) = (.reply .refused (some why) res, reached r f s)) :
    ∃ t : State, exec c s = .next t ∧ Answers r f .refused (some why) res s t ∧ KeptBut [.ports] s t ∧
      ApprovalUsed r f s t := by
  obtain ⟨t, e, ha, hk, -⟩ :=
    answered_of c r f owner _ _ _ s _ he h ho (reached_quiet r f s h) (reached_ready r f s h) rfl
  exact ⟨t, e, ha, (reached_keptBut r f s h).trans (hk.mono (by simp)), approvalUsed_of r f s _ t h rfl (hk .ports (by simp))⟩

/-- A request without approval class that reaches its block and is answered at once. -/
theorem replies_with (c : Instr) (r : Request) (f : Frame) (owner : Bool → State → Answer × State) (st : Status)
    (res : Results) (changed : List Block) (s s' : State) (effect : State → Prop)
    (he : exec c s = done (takeConsuming r f owner s)) (h : Taken r f s)
    (ho : owner (consumed r f s) (reached r f s) = (.reply st none res, s')) (hq : Quiet s')
    (hr : s'.startUp.phase = .ready) (hl : s'.ports.lines = (reached r f s).ports.lines) (hk : KeptBut changed s s')
    (hx : ∀ t, KeptBut [] s' t → (∀ p n, Told p n s' → n.kind ≠ .alarmChange → Told p n t) → effect t) :
    Replies c r f st res changed s effect := by
  obtain ⟨t, e, ha, hk', hn⟩ := answered_of c r f owner st none res s s' he h ho hq hr hl
  exact ⟨t, e, ha, hk.trans (hk'.mono (by simp)), hx t hk' hn⟩

end Sys2Proof.Machine
end

section
/-! What a check word that fails leaves, what a booking with its record leaves, and the requests that end in either. -/
namespace Sys2Proof.Machine

/-! ## Notices that stay told -/

/-- What was told to a port stays told, but for notices of the kinds listed, which may have been raised anew. -/
def Tells (raised : List NoticeKind) (s t : State) : Prop :=
  ∀ (p : Port) (x : Notice), Told p x s → x.kind ∉ raised → Told p x t

theorem Tells.trans {ks : List NoticeKind} {s t u : State} (h : Tells ks s t) (k : Tells ks t u) : Tells ks s u :=
  fun p x hx hn => k p x (h p x hx hn) hn

theorem Tells.mono {ks ls : List NoticeKind} {s t : State} (h : Tells ks s t) (hs : ∀ k, k ∈ ks → k ∈ ls) : Tells ls s t :=
  fun p x hx hn => h p x hx fun hk => hn (hs _ hk)

theorem tells_of_ports {s t : State} (ks : List NoticeKind) (h : t.ports = s.ports) : Tells ks s t :=
  fun p x hx _ => told_of_ports p x s t hx h

theorem tells_raise (ks : List NoticeKind) (p : Port) (x : Notice) (s : State) (hk : x.kind ∈ ks) : Tells ks s (raise p x s) :=
  fun q y hy hn => raise_told_other q p y x s hy (.inr fun e => hn (e ▸ hk))

theorem tells_raiseTo (ks : List NoticeKind) (ps : List Port) (x : Notice) (s : State) (hk : x.kind ∈ ks) :
    Tells ks s (raiseTo ps x s) := by
  unfold raiseTo
  induction ps generalizing s with
  | nil => exact tells_of_ports _ rfl
  | cons p ps ih => exact (tells_raise ks p x s hk).trans (ih _)

theorem tells_raiseRestriction (s : State) : Tells [.restriction] s (raiseRestriction s) :=
  tells_raiseTo _ _ _ s (by simp [Notice.kind])

theorem tells_addCause (c : AuditCause) (s : State) : Tells [.restriction] s (addCause c s) := by
  unfold addCause
  simp only []
  split
  · exact tells_of_ports _ rfl
  · exact (tells_of_ports (t := s.onPosition _) _ rfl).trans (tells_raiseRestriction _)

theorem tells_raiseJournalHigh (s : State) : Tells [.journalHigh] s (raiseJournalHigh s) :=
  tells_raise _ _ _ s (by simp [Notice.kind])

theorem tells_watchHighWater (s : State) : Tells [.journalHigh] s (watchHighWater s) := by
  unfold watchHighWater
  split
  · exact (tells_of_ports (t := s.onJournal _) _ rfl).trans (tells_raiseJournalHigh _)
  · exact tells_of_ports _ rfl

theorem tells_watchExhausted (s : State) : Tells [.journalHigh] s (watchExhausted s) := by
  unfold watchExhausted
  split
  · exact tells_raiseJournalHigh _
  · exact tells_of_ports _ rfl

theorem tells_stage (d : Draft) (s : State) : Tells [.journalHigh] s (stage d s).2 := by
  unfold stage
  split
  · exact tells_of_ports _ rfl
  · exact (tells_of_ports (t := s.onJournal _) _ rfl).trans ((tells_watchHighWater _).trans (tells_watchExhausted _))

theorem tells_loseRecord (s : State) : Tells [.journalHigh] s (loseRecord s) := by
  unfold loseRecord
  simp only []
  split
  · exact (tells_of_ports (t := s.onJournal _) _ rfl).trans (tells_raiseJournalHigh _)
  · exact tells_of_ports _ rfl

theorem tells_eventRecord (d : Draft) (s : State) : Tells [.journalHigh] s (eventRecord d s).2 := by
  unfold eventRecord
  split
  · exact tells_stage d s
  · exact tells_loseRecord s

theorem tells_stageApplied (d : Draft) (s : State) : Tells [.journalHigh] s (stageApplied d s).2 := by
  unfold stageApplied
  exact (tells_stage d s).trans (tells_of_ports _ (by simp))

theorem tells_eventApplied (d : Draft) (s : State) : Tells [.journalHigh] s (eventApplied d s).2 := by
  unfold eventApplied
  exact (tells_eventRecord d s).trans (tells_of_ports _ (by simp))

/-! ## Check words that fail -/

/-- What reading check words leaves, `failed` saying whether one of them failed: nothing where none did; otherwise what R9 says, and a
cause that stood before tells no port anew. Only the position and the pending notices can change. -/
structure WordsRead (failed : Prop) (s t : State) : Prop where
  rest : t = { s with position := t.position, ports := t.ports }
  lines : t.ports.lines = s.ports.lines
  fine : ¬failed → t = s
  found : failed → WordFailed s.position t.position s t
  again : s.position.causes.any = true → t.ports = s.ports
  tells : Tells [.restriction] s t

theorem WordsRead.refl (s : State) : WordsRead False s s :=
  ⟨rfl, rfl, fun _ => rfl, False.elim, fun _ => rfl, tells_of_ports _ rfl⟩

theorem WordsRead.congr {a b : Prop} {s t : State} (h : WordsRead a s t) (e : a ↔ b) : WordsRead b s t := propext e ▸ h

/-- INTEGRITY among the causes is a cause. -/
theorem any_of_integrity (c : Causes) (h : c.integrity = true) : c.any = true := by
  simp [Causes.any, h]

/-- Check words are read one after the other. -/
theorem WordsRead.trans {a b : Prop} {s t u : State} (h : WordsRead a s t) (k : WordsRead b t u) : WordsRead (a ∨ b) s u := by
  by_cases ha : a
  · have hc : t.position.causes.any = true := by
      rw [(h.found ha).1]; exact any_of_integrity _ rfl
    have hports : u.ports = t.ports := k.again hc
    refine ⟨?_, ?_, fun hn => absurd (.inl ha) hn, fun _ => ?_, fun hs => hports.trans (h.again hs),
      h.tells.trans k.tells⟩
    · rw [k.rest, h.rest]
    · rw [hports, h.lines]
    · by_cases hb : b
      · obtain ⟨p1, p2, p3, p4⟩ := h.found ha
        obtain ⟨q1, q2, q3, -⟩ := k.found hb
        have hclock : t.clock = s.clock := by rw [h.rest]
        have hcauses : u.position.causes = t.position.causes := by rw [q1, p1]
        refine ⟨?_, fun x hx => q2 x (p2 x hx), fun hn => ?_, fun hs y hy => ?_⟩
        · rw [q1, p1]
        · obtain ⟨w, hw⟩ := p3 hn
          exact ⟨w, q2 _ hw⟩
        · rw [hcauses]
          exact told_of_ports _ _ _ _ (p4 hs y hy) hports
      · rw [k.fine hb]; exact h.found ha
  · have hts := h.fine ha
    subst hts
    exact k.congr (by simp [ha])

/-- The first audit cause is told to ports A, B and S (R10). -/
theorem addCause_told (c : AuditCause) (s : State) (h : s.position.causes.any = false) (y : Port) (hy : y ≠ .m) :
    Told y (.restriction s.alarm.restriction (s.position.causes.add c)) (addCause c s) := by
  rw [addCause_first _ _ (by simpa [State.auditRequired] using h)]
  generalize hx : State.onPosition s _ = x
  have hc : x.position.causes = s.position.causes.add c := by rw [← hx]; rfl
  have ha : x.alarm.restriction = s.alarm.restriction := by rw [← hx]; rfl
  simp only [raiseRestriction, raiseTo, List.foldl_cons, List.foldl_nil, hc, ha]
  cases y
  case m => exact absurd rfl hy
  case a =>
    exact raise_told_other _ _ _ _ _ (raise_told_other _ _ _ _ _ (raise_told _ _ _) (.inl (by decide))) (.inl (by decide))
  case b => exact raise_told_other _ _ _ _ _ (raise_told _ _ _) (.inl (by decide))
  case s => exact raise_told _ _ _

/-- An integrity fault is found (R9, R10). -/
theorem integrityFailure_read (w : GuardedRecord) (s : State) : WordsRead True s (integrityFailure w s) := by
  have hp := integrityFailure_position w s
  refine ⟨?_, integrityFailure_lines w s, fun h => absurd trivial h, fun _ => ⟨?_, ?_, ?_, ?_⟩, ?_,
    (tells_of_ports (t := s.onPosition _) _ rfl).trans (tells_addCause _ _)⟩
  · have k := integrityFailure_keeps w s
    generalize integrityFailure w s = t at *
    cases t; cases s
    simp_all
  · rw [hp]
  · intro x hx; rw [hp, hx]
  · intro hn; exact ⟨w, by rw [hp, hn]⟩
  · intro hn y hy
    rw [hp]
    unfold integrityFailure
    exact addCause_told .integrity _ (by exact hn) y hy
  · intro hs
    unfold integrityFailure addCause
    simp only [State.auditRequired, State.onPosition, hs, if_true]

theorem verifyCassette_read (k : Ix) (s : State) :
    WordsRead ((s.position.cassettes.get k).intact = false) s (verifyCassette k s).2 := by
  unfold verifyCassette
  cases h : (s.position.cassettes.get k).intact
  · exact (integrityFailure_read _ s).congr (by simp)
  · exact (WordsRead.refl s).congr (by simp)

theorem verifyAccount_read (a : AccountId) (s : State) :
    WordsRead ((s.position.account a).intact = false) s (verifyAccount a s).2 := by
  unfold verifyAccount
  cases h : (s.position.account a).intact
  · exact (integrityFailure_read _ s).congr (by simp)
  · exact (WordsRead.refl s).congr (by simp)

@[simp] theorem verifyCassette_fst (k : Ix) (s : State) : (verifyCassette k s).1 = (s.position.cassettes.get k).intact := by
  unfold verifyCassette; split <;> simp_all

@[simp] theorem verifyAccount_fst (a : AccountId) (s : State) : (verifyAccount a s).1 = (s.position.account a).intact := by
  unfold verifyAccount; split <;> simp_all

/-- Reading check words leaves every record as it was. -/
theorem WordsRead.records {failed : Prop} {s t : State} (h : WordsRead failed s t) :
    t.position = { s.position with causes := t.position.causes, integrityFault := t.position.integrityFault } := by
  by_cases hf : failed
  · rw [(h.found hf).1]
  · rw [h.fine hf]

theorem WordsRead.account {failed : Prop} {s t : State} (h : WordsRead failed s t) (a : AccountId) :
    t.position.account a = s.position.account a := by
  rw [h.records]; cases a <;> rfl

theorem WordsRead.cassettes {failed : Prop} {s t : State} (h : WordsRead failed s t) :
    t.position.cassettes = s.position.cassettes := by
  rw [h.records]

/-- All four cassette records match: so each of them does. -/
theorem wordsMatch_iff (s : State) :
    WordsMatch s ↔ (s.position.cassettes.get .i1).intact = true ∧ (s.position.cassettes.get .i2).intact = true ∧
      (s.position.cassettes.get .i3).intact = true ∧ (s.position.cassettes.get .i4).intact = true :=
  ⟨fun h => ⟨h _, h _, h _, h _⟩, fun ⟨_, _, _, _⟩ k => by cases k <;> assumption⟩

/-- All four cassette records are read, whatever the first ones show (R36). -/
theorem verifyCassettes_read (s : State) :
    ((verifyCassettes s).1 = true ↔ WordsMatch s) ∧ WordsRead (¬WordsMatch s) s (verifyCassettes s).2 := by
  have r1 := verifyCassette_read .i1 s
  have r2 := r1.trans (verifyCassette_read .i2 _)
  have r3 := r2.trans (verifyCassette_read .i3 _)
  have r4 := r3.trans (verifyCassette_read .i4 _)
  simp only [r1.cassettes, r2.cassettes, r3.cassettes] at r4
  constructor
  · simp only [verifyCassettes, Ix.all, List.foldl_cons, List.foldl_nil, verifyCassette_fst, r1.cassettes, r2.cassettes, r3.cassettes]
    simp [wordsMatch_iff, and_assoc]
  · refine WordsRead.congr (s := s) r4 ?_
    simp only [wordsMatch_iff, not_and_or, Bool.not_eq_true, or_assoc]

/-- A failure found stays found when further words are read, and nothing is told anew. -/
theorem WordFailed.read {failed : Prop} {q : Position} {s t u : State} (h : WordFailed q t.position s t) (k : WordsRead failed t u) :
    WordFailed q u.position s u ∧ u.ports = t.ports := by
  obtain ⟨p1, p2, p3, p4⟩ := h
  have hports : u.ports = t.ports := k.again (by rw [p1]; exact any_of_integrity _ rfl)
  refine ⟨?_, hports⟩
  by_cases hb : failed
  · obtain ⟨q1, q2, -, -⟩ := k.found hb
    have hcauses : u.position.causes = t.position.causes := by rw [q1, p1]
    refine ⟨by rw [q1, p1], fun x hx => q2 x (p2 x hx), fun hn => ?_, fun hs y hy => ?_⟩
    · obtain ⟨w, hw⟩ := p3 hn
      exact ⟨w, q2 _ hw⟩
    · rw [hcauses]
      exact told_of_ports _ _ _ _ (p4 hs y hy) hports
  · rw [k.fine hb]
    exact ⟨p1, p2, p3, p4⟩

/-- What reading leaves may be told later in the step. -/
theorem WordFailed.transfer {q p : Position} {s t s' t' : State} (h : WordFailed q p s t) (hc : s'.clock = s.clock)
    (ha : s'.alarm = s.alarm) (hn : Tells [.alarmChange, .journalHigh] t t') : WordFailed q p s' t' := by
  obtain ⟨h1, h2, h3, h4⟩ := h
  exact ⟨h1, h2, by rw [hc]; exact h3, fun hq y hy => by rw [ha]; exact hn _ _ (h4 hq y hy) (by simp [Notice.kind])⟩

/-- An integrity fault found is found in what the step ends in. -/
theorem IntegrityFound.transfer {s s' t t' : State} (h : WordFailed s.position t.position s t) (hp : s'.position = s.position)
    (hc : s'.clock = s.clock) (ha : s'.alarm = s.alarm) (ht : t'.position = t.position)
    (hn : ∀ p n, Told p n t → n.kind ≠ .alarmChange → Told p n t') : IntegrityFound s' t' := by
  obtain ⟨h1, h2, h3, h4⟩ := h
  simp only [IntegrityFound, WordFailed, hp, hc, ha, ht]
  exact ⟨h1, h2, h3, fun hq y hy => hn _ _ (h4 hq y hy) (by simp [Notice.kind])⟩

/-! ## Records -/

theorem Recorded.transfer {n : Nat} {holds : Record → Prop} {s s' t t' : State} (h : Recorded n holds s t)
    (hs : s'.journal = s.journal) (hc : s'.clock = s.clock) (ht : t'.journal = t.journal) : Recorded n holds s' t' := by
  simpa only [Recorded, Staged, hs, hc, ht] using h

theorem Recorded.imp {n : Nat} {holds holds' : Record → Prop} {s t : State} (h : Recorded n holds s t)
    (hh : ∀ r, holds r → holds' r) : Recorded n holds' s t := by
  obtain ⟨r, h1, h2, h3, h4, h5, h6⟩ := h
  exact ⟨r, h1, h2, h3, h4, h5, hh r h6⟩

/-- A record staged with a number left (R160). -/
theorem stage_recorded (d : Draft) (s : State) (n : Nat) (h : s.journal.next = some n) :
    (stage d s).1 = some n ∧ Recorded n (· = d.record n s.clock) s (stage d s).2 := by
  obtain ⟨h1, h2, h3, h4, h5⟩ := stage_some d s n h
  exact ⟨h1, _, rfl, h2, h3, h4, h5, rfl⟩

/-- The same with the last-applied sequence set to its number (R13). -/
theorem stageApplied_recorded (d : Draft) (s : State) (n : Nat) (h : s.journal.next = some n) :
    (stageApplied d s).1 = some n ∧ (stageApplied d s).2.position = { s.position with lastApplied := n } ∧
      Recorded n (· = d.record n s.clock) s (stageApplied d s).2 := by
  obtain ⟨h1, h2⟩ := stage_recorded d s n h
  have e : stageApplied d s = (some n, applyTo (some n) (stage d s).2) := by simp [stageApplied, h1]
  rw [e]
  refine ⟨rfl, ?_, h2.transfer rfl rfl rfl⟩
  rw [applyTo_position]
  simp

/-! ## Requests that touch the position and the journal alone -/

theorem quiet_of_kept (bs : List Block) (s t : State) (h : Quiet s) (k : KeptBut bs s t) (hd : .dispenses ∉ bs)
    (hp : .path ∉ bs) (he : .escrow ∉ bs) : Quiet t :=
  quiet_of_eq s t h (k .dispenses hd) (k .path hp) (congrArg Escrow.op (k .escrow he))

/-- An answer books: it is given with the results, the position is P, and a record takes the number n; nothing else changes, but for notices
at the ports. -/
def Books (st : Status) (res : Results) (n : Nat) (P : Position) (holds : Record → Prop) (s : State) (answer : Answer × State) : Prop :=
  ∃ t : State, answer = (.reply st none res, t) ∧ t.ports.lines = s.ports.lines ∧ KeptBut [.position, .journal, .ports] s t ∧
    t.position = P ∧ Recorded n holds s t

/-- A request that books. -/
theorem books_of (c : Instr) (r : Request) (f : Frame) (owner : Bool → State → Answer × State) (st : Status) (res : Results)
    (n : Nat) (P : Position) (holds : Record → Prop) (s : State) (he : exec c s = done (takeConsuming r f owner s))
    (h : Taken r f s) (hb : Books st res n P holds (reached r f s) (owner (consumed r f s) (reached r f s))) :
    Replies c r f st res [.position, .journal, .ports] s
      (fun t => ApprovalUsed r f s t ∧ t.position = P ∧ Recorded n holds s t) := by
  obtain ⟨s', ho, hl, hk, hp, hr⟩ := hb
  have k := reached_keeps r f s h
  have hq := quiet_of_kept _ _ _ (reached_quiet r f s h) hk (by simp) (by simp) (by simp)
  have hready : s'.startUp.phase = .ready := by rw [hk .startUp (by simp)]; exact reached_ready r f s h
  refine replies_with c r f owner st res _ s s' _ he h ho hq hready hl
    (((reached_keptBut r f s h).mono (by simp)).trans hk) fun t hkept _ => ⟨?_, ?_, ?_⟩
  · exact approvalUsed_of r f s s' t h hl (hkept .ports (by simp))
  · rw [← hp]; exact hkept .position (by simp)
  · exact hr.transfer (by simp only [k]) (by simp only [k]) (hkept .journal (by simp))

/-- A request refused where a check word it reads fails. -/
theorem refusedFinding_of (c : Instr) (r : Request) (f : Frame) (owner : Bool → State → Answer × State) (failed : Prop)
    {why : Reason} {res : Results} (s s' : State) (he : exec c s = done (takeConsuming r f owner s)) (h : Taken r f s)
    (ho : owner (consumed r f s) (reached r f s) = (.reply .refused (some why) res, s'))
    (hw : WordsRead failed (reached r f s) s') (hf : failed) :
    ∃ t : State, exec c s = .next t ∧ Answers r f .refused (some why) res s t ∧ KeptBut [.position, .ports] s t ∧
      ApprovalUsed r f s t ∧ IntegrityFound s t := by
  have hk : KeptBut [.position, .ports] (reached r f s) s' := by
    intro b hb
    rw [hw.rest]
    cases b
    case position | ports => simp at hb
    all_goals simp [Kept]
  have hq := quiet_of_kept _ _ _ (reached_quiet r f s h) hk (by simp) (by simp) (by simp)
  have hready : s'.startUp.phase = .ready := by rw [hk .startUp (by simp)]; exact reached_ready r f s h
  obtain ⟨t, e, ha, hkept, hn⟩ := answered_of c r f owner _ _ _ s s' he h ho hq hready hw.lines
  refine ⟨t, e, ha, ((reached_keptBut r f s h).mono (by simp)).trans (hk.trans (hkept.mono (by simp))), ?_, ?_⟩
  · exact approvalUsed_of r f s s' t h hw.lines (hkept .ports (by simp))
  · have k := reached_keeps r f s h
    exact IntegrityFound.transfer (hw.found hf) (by simp [k]) (by simp [k]) (by simp [k]) (hkept .position (by simp)) hn

end Sys2Proof.Machine
end

section
/-! POST: its checks and its booking. -/
namespace Sys2Proof.Machine

theorem consumed_eq_approved (r : Request) (f : Frame) (s : State) : consumed r f s = Approved r f s := by
  unfold consumed Approved
  cases Request.consumes r <;> simp

/-- An applied POST: the account's new contents with the record's number, and its record (R16). -/
theorem applyPost_books (p : Port) (k : PostKind) (x : Nat) (balance : Int) (coinDue n : Nat) (s : State)
    (h : s.journal.next = some n) :
    Books .ok (.posted (some n) balance coinDue) n
      { s.position.setAccount (postAccount p) ⟨balance, coinDue, true⟩ with lastApplied := n }
      (fun r => r.kind = .posting ∧ r.port = some p ∧ r.outcome = k.code ∧ r.amount = recordAmount (k.signed x)) s
      (applyPost p k x balance coinDue s) := by
  obtain ⟨h1, h2, h3⟩ := stageApplied_recorded { kind := .posting, port := some p, outcome := k.code, amount := k.signed x }
    (writeAccount (postAccount p) balance coinDue s) n (by simpa using h)
  refine ⟨(applyPost p k x balance coinDue s).2, by simp only [applyPost, ok, h1], ?_, ?_, ?_, ?_⟩
  · simp [applyPost, ok, writeAccount]
  · intro b hb
    cases b
    case position | journal | ports => simp at hb
    all_goals simp [Kept, applyPost, ok]
  · exact h2
  · refine (h3.imp ?_).transfer (by simp) (by simp) rfl
    rintro r rfl
    exact ⟨rfl, rfl, rfl, rfl⟩

/-- Checks 5 to 8 of POST, where the account's check word matches (R14). -/
theorem judgePost_of_intact (p : Port) (kind : Option PostKind) (x : Nat) (expected : Option Int) (used : Bool) (s : State)
    (h : (s.position.account (postAccount p)).intact = true) :
    judgePost p kind x expected used s =
      if p.teller?.isSome ∧ s.settings.postingLimit < x ∧ used = false then refuse .approval s
      else if expected.getD (s.position.account (postAccount p)).balance ≠ (s.position.account (postAccount p)).balance then
        refuseWith .mismatch (.balances (s.position.account (postAccount p)).balance (s.position.account (postAccount p)).coinDue) s
      else
        match kind.bind (fun k => (postResult k x (s.position.account (postAccount p))).map (fun q => (k, q))) with
        | none => refuse .range s
        | some (k, balance, coinDue) => withRoom 1 1 s (applyPost p k x balance coinDue s) := by
  unfold judgePost
  rw [verifyAccount_intact _ _ h]
  rfl

/-- The account's check word fails: refused, with the fault found (R9). -/
theorem judgePost_of_failed (p : Port) (kind : Option PostKind) (x : Nat) (expected : Option Int) (used : Bool) (s : State)
    (h : (s.position.account (postAccount p)).intact = false) :
    judgePost p kind x expected used s = (.reply .refused (some .audit) .none, (verifyAccount (postAccount p) s).2) := by
  simp [judgePost, h, refuse]

/-- A POST that passes its checks: refused for want of room, or applied (R14, R162). -/
theorem post_books (f : Frame) (k : PostKind) (x : Nat) (balance : Int) (coinDue : Nat) (s : State) (h : Taken .post f s)
    (ho : postOwner f (consumed .post f s) (reached .post f s) =
      withRoom 1 1 (reached .post f s) (applyPost f.port k x balance coinDue (reached .post f s))) :
    (∀ why : Reason, s.journal.roomCheck 1 1 = some why →
      ∃ t : State, exec (.post f) s = .next t ∧ Answers .post f .refused (some why) s.journal.roomFigures s t ∧
        KeptBut [.ports] s t ∧ ApprovalUsed .post f s t) ∧
    ∀ n : Nat, RoomFor 1 1 s → s.journal.next = some n →
      Replies (.post f) .post f .ok (.posted (some n) balance coinDue) [.position, .journal, .ports] s (fun t =>
        ApprovalUsed .post f s t ∧
          t.position = { s.position.setAccount (postAccount f.port) ⟨balance, coinDue, true⟩ with lastApplied := n } ∧
          Recorded n
            (fun r => r.kind = .posting ∧ r.port = some f.port ∧ r.outcome = k.code ∧ r.amount = recordAmount (k.signed x))
            s t) := by
  have kept := reached_keeps .post f s h
  have hj : (reached .post f s).journal = s.journal := by simp only [kept]
  have hp : (reached .post f s).position = s.position := by simp only [kept]
  constructor
  · intro why hwhy
    refine refused_of _ _ f (postOwner f) why _ s rfl h ?_
    simp only [ho, withRoom, hj, hwhy, refuseWith, Journal.roomFigures]
  · intro n hroom hn
    refine books_of _ _ f (postOwner f) _ _ n _ _ s rfl h ?_
    rw [ho, withRoom, hj, show s.journal.roomCheck 1 1 = none from hroom, ← hp]
    exact applyPost_books f.port k x balance coinDue n (reached .post f s) (by rw [hj, hn])

/-- Settles O28: the checks of R14 one after the other, and the booking of each kind. -/
theorem postBooksAccount : Obligations.PostBooksAccount := by
  unfold Obligations.PostBooksAccount
  intro f s h
  have kept := reached_keeps .post f s h
  have hp : (reached .post f s).position = s.position := by simp only [kept]
  have hset : (reached .post f s).settings = s.settings := by simp only [kept]
  have haud : (reached .post f s).auditRequired = s.auditRequired := by simp only [State.auditRequired, hp]
  have hteller : f.port.teller?.isSome = true ↔ f.port ≠ .s := by
    have hm : Request.permitted .post f.port = true := h.2.2.1
    cases e : f.port <;> simp [Port.teller?, e, Request.permitted] at hm ⊢
  have refuses (why : Reason) (res : Results)
      (ho : postOwner f (consumed .post f s) (reached .post f s) = (.reply .refused (some why) res, reached .post f s)) :=
    refused_of (.post f) .post f (postOwner f) why res s rfl h ho
  intro a r refused posts
  have ha : a = postAccount f.port := rfl
  have hr : r = (reached .post f s).position.account (postAccount f.port) := by rw [hp]; rfl
  have books (k : PostKind) (x : Nat) (balance : Int) (coinDue : Nat)
      (ho : postOwner f (consumed .post f s) (reached .post f s) =
        withRoom 1 1 (reached .post f s) (applyPost f.port k x balance coinDue (reached .post f s))) :
      posts k.code (k.signed x) balance coinDue := post_books f k x balance coinDue s h ho
  by_cases haudit : s.auditRequired = true
  · rw [if_pos haudit]
    exact refuses _ _ (by simp only [postOwner, haud, haudit, if_true, refuse])
  rw [if_neg haudit]
  cases hx : readU4 (field f.operands 1 4) with
  | error p =>
    exact refuses _ _ (by simp only [postOwner, haud, if_neg haudit, hx, refuseDigit, refuseWith])
  | ok x =>
    cases he : expectedBalance f.operands with
    | error p =>
      exact refuses _ _ (by simp only [postOwner, haud, if_neg haudit, hx, he, refuseDigit, refuseWith])
    | ok expected =>
      simp only []
      have howner : postOwner f (consumed .post f s) (reached .post f s) =
          if x = 0 then refuse .zeroAmount (reached .post f s)
          else judgePost f.port (postKindOf (byteField f.operands 0)) x expected (consumed .post f s) (reached .post f s) := by
        simp only [postOwner, haud, if_neg haudit, hx, he]
      by_cases hzero : x = 0
      · rw [if_pos hzero]
        exact refuses _ _ (by rw [howner, if_pos hzero, refuse])
      rw [if_neg hzero] at howner ⊢
      cases hi : r.intact
      · rw [if_pos rfl]
        refine refusedFinding_of _ _ f (postOwner f) _ s _ rfl h ?_ (verifyAccount_read (postAccount f.port) _) (hr ▸ hi)
        rw [howner, judgePost_of_failed _ _ _ _ _ _ (hr ▸ hi)]
      rw [if_neg (by simp)]
      simp only [judgePost_of_intact _ _ _ _ _ _ (hr ▸ hi), hset, hteller, consumed_eq_approved, ← hr] at howner
      by_cases happ : f.port ≠ .s ∧ s.settings.postingLimit < x ∧ Approved .post f s = false
      · rw [if_pos happ] at howner ⊢
        exact refuses _ _ howner
      rw [if_neg happ] at howner ⊢
      by_cases hexp : expected.getD r.balance ≠ r.balance
      · rw [if_pos hexp] at howner ⊢
        exact refuses _ _ howner
      rw [if_neg hexp] at howner ⊢
      have range (k : PostKind) (hk : postKindOf (byteField f.operands 0) = some k) (hq : postResult k x r = none) :
          refused .range .none :=
        refuses _ _ (by rw [consumed_eq_approved, howner, hk]; simp only [Option.bind_some, hq, Option.map_none, refuse])
      have booked (k : PostKind) (balance : Int) (coinDue : Nat) (hk : postKindOf (byteField f.operands 0) = some k)
          (hq : postResult k x r = some (balance, coinDue)) : posts k.code (k.signed x) balance coinDue :=
        books k x balance coinDue
          (by rw [consumed_eq_approved, howner, hk]; simp only [Option.bind_some, hq, Option.map_some])
      match hcode : byteField f.operands 0 with
      | 1 =>
        simp only [hcode] at range booked ⊢
        split
        · exact range .cashIn rfl (if_pos ‹_›)
        · exact booked .cashIn _ _ rfl (if_neg ‹_›)
      | 2 =>
        simp only [hcode] at range booked ⊢
        split
        · exact range .cashOut rfl (if_pos ‹_›)
        · exact booked .cashOut _ _ rfl (if_neg ‹_›)
      | 3 =>
        simp only [hcode] at range booked ⊢
        split
        · exact range .coinPaid rfl (if_pos ‹_›)
        · exact booked .coinPaid _ _ rfl (if_neg ‹_›)
      | 0 => exact refuses _ _ (by rw [consumed_eq_approved, howner, hcode]; rfl)
      | n + 4 => exact refuses _ _ (by rw [consumed_eq_approved, howner, hcode]; rfl)

end Sys2Proof.Machine
end

section
/-! HANDOVER: its checks and its three options. -/
namespace Sys2Proof.Machine

/-! ## Requests without an approval class -/

theorem portsKept_of_used (r : Request) (f : Frame) (s t : State) (hc : Request.consumes r = none) (h : ApprovalUsed r f s t) :
    Kept .ports s t := by
  intro q
  obtain ⟨h1, h2, h3, h4⟩ := h q
  simp only [hc, Option.isSome_none, Bool.false_eq_true, false_and, and_false, if_false] at h4
  exact ⟨h1, h2, h4, h3⟩

theorem keptBut_without_ports {bs bs' : List Block} {s t : State} (h : KeptBut bs s t) (hp : Kept .ports s t)
    (hs : ∀ b, b ∈ bs → b = .ports ∨ b ∈ bs') : KeptBut bs' s t := by
  intro b hb
  by_cases e : b = .ports
  · subst e; exact hp
  · exact h b fun hm => (hs b hm).elim e hb

/-- A request that books without an approval class. -/
theorem booksPlain_of (c : Instr) (r : Request) (f : Frame) (owner : Bool → State → Answer × State) (st : Status) (res : Results)
    (n : Nat) (P : Position) (holds : Record → Prop) (s : State) (he : exec c s = done (takeConsuming r f owner s))
    (h : Taken r f s) (hc : Request.consumes r = none)
    (hb : Books st res n P holds (reached r f s) (owner (consumed r f s) (reached r f s))) :
    Replies c r f st res [.position, .journal] s (fun t => t.position = P ∧ Recorded n holds s t) := by
  obtain ⟨t, e, ha, hkept, hu, heff⟩ := books_of c r f owner st res n P holds s he h hb
  exact ⟨t, e, ha, keptBut_without_ports hkept (portsKept_of_used r f s t hc hu) (by simp), heff⟩

/-- A request without an approval class that books once the journal has room: refused for want of it, or booked (R162). -/
theorem roomBooks_of (c : Instr) (r : Request) (f : Frame) (own : State → Answer × State) (st : Status) (res : Results)
    (a b : Nat) (P : Nat → Position) (holds : Record → Prop) (s : State) (apply : State → Answer × State)
    (he : exec c s = done (takeConsuming r f (fun _ => own) s)) (h : Taken r f s) (hc : Request.consumes r = none)
    (ho : own (reached r f s) = withRoom a b (reached r f s) (apply (reached r f s)))
    (hb : ∀ n, (reached r f s).journal.next = some n → Books st res n (P n) holds (reached r f s) (apply (reached r f s))) :
    (∀ why : Reason, s.journal.roomCheck a b = some why → Refuses c r f why s.journal.roomFigures s) ∧
    ∀ n : Nat, RoomFor a b s → s.journal.next = some n →
      Replies c r f st res [.position, .journal] s (fun t => t.position = P n ∧ Recorded n holds s t) := by
  have hj : (reached r f s).journal = s.journal := by simp only [reached_keeps r f s h]
  constructor
  · intro why hwhy
    refine refuses_of _ _ f (fun _ => own) why _ s he h hc ?_
    simp only [ho, withRoom, hj, hwhy, refuseWith, Journal.roomFigures]
  · intro n hroom hn
    refine booksPlain_of _ _ f (fun _ => own) _ _ n _ _ s he h hc ?_
    rw [ho, withRoom, hj, show s.journal.roomCheck a b = none from hroom]
    exact hb n (by rw [hj, hn])

/-- A request without an approval class refused where a check word it reads fails. -/
theorem refusedFindingPlain_of (c : Instr) (r : Request) (f : Frame) (owner : Bool → State → Answer × State) (failed : Prop)
    {why : Reason} {res : Results} (s s' : State) (he : exec c s = done (takeConsuming r f owner s)) (h : Taken r f s)
    (hc : Request.consumes r = none) (ho : owner (consumed r f s) (reached r f s) = (.reply .refused (some why) res, s'))
    (hw : WordsRead failed (reached r f s) s') (hf : failed) :
    ∃ t : State, exec c s = .next t ∧ Answers r f .refused (some why) res s t ∧ KeptBut [.position] s t ∧
      IntegrityFound s t := by
  obtain ⟨t, e, ha, hkept, hu, hx⟩ := refusedFinding_of c r f owner failed s s' he h ho hw hf
  exact ⟨t, e, ha, keptBut_without_ports hkept (portsKept_of_used r f s t hc hu) (by simp), hx⟩

/-! ## Handover -/

/-- An applied HANDOVER: the contents of the two accounts, and its record (R17). -/
theorem applyHandover_books (o : HandoverOption) (a : Nat) (src dst : AccountId) (after : Account × Account) (n : Nat) (s : State)
    (h : s.journal.next = some n) :
    Books .ok (.handedOver after.1.balance after.1.coinDue after.2.balance after.2.coinDue) n
      { (s.position.setAccount src ⟨after.1.balance, after.1.coinDue, true⟩).setAccount dst
          ⟨after.2.balance, after.2.coinDue, true⟩ with lastApplied := n }
      (fun r => r.kind = .handover ∧ r.port = none ∧ r.outcome = o.code ∧
        r.amount = recordAmount (handoverAmount o a (s.position.account src)) ∧
        r.extra = accountCode (some src) * 256 + accountCode (some dst))
      s (applyHandover o a src dst after s) := by
  obtain ⟨-, h2, h3⟩ := stageApplied_recorded
    { kind := .handover, outcome := o.code, amount := handoverAmount o a (s.position.account src),
      extra := accountCode (some src) * 256 + accountCode (some dst) }
    (writeAccount dst after.2.balance after.2.coinDue (writeAccount src after.1.balance after.1.coinDue s)) n (by simpa using h)
  refine ⟨(applyHandover o a src dst after s).2, rfl, ?_, ?_, ?_, ?_⟩
  · simp [applyHandover, ok, writeAccount]
  · intro b hb
    cases b
    case position | journal | ports => simp at hb
    all_goals simp [Kept, applyHandover, ok]
  · exact h2
  · refine (h3.imp ?_).transfer (by simp) (by simp) rfl
    rintro r rfl
    exact ⟨rfl, rfl, rfl, rfl, rfl⟩

/-- An account record that a HANDOVER reads fails its check word: refused, with the fault found (R9, R17). -/
theorem judgeHandover_of_failed (o : HandoverOption) (a : Nat) (src dst : AccountId) (s : State)
    (h : ((s.position.account src).intact && (s.position.account dst).intact) = false) :
    ∃ t : State, judgeHandover o a src dst s = (.reply .refused (some .audit) .none, t) ∧
      WordsRead ((s.position.account src).intact = false ∨ (s.position.account dst).intact = false) s t := by
  have r1 := verifyAccount_read src s
  have r2 := r1.trans (verifyAccount_read dst _)
  rw [r1.account] at r2
  refine ⟨_, ?_, r2⟩
  simp only [judgeHandover, verifyAccount_fst, r1.account, h, Bool.not_false, if_true, refuse]

/-- Both account records match: the balances move, or the range refuses them (R17). -/
theorem judgeHandover_of_intact (o : HandoverOption) (a : Nat) (src dst : AccountId) (s : State)
    (h : ((s.position.account src).intact && (s.position.account dst).intact) = true) :
    judgeHandover o a src dst s =
      match handoverResult o a (s.position.account src) (s.position.account dst) with
      | none => refuse .range s
      | some after => withRoom 1 1 s (applyHandover o a src dst after s) := by
  obtain ⟨h1, h2⟩ := (Bool.and_eq_true _ _).mp h
  unfold judgeHandover
  rw [verifyAccount_intact _ _ h1]
  simp only []
  rw [verifyAccount_intact _ _ h2]
  rfl

/-- Settles O29: the checks of R17 one after the other, and the three options. -/
theorem handoverMovesBalances : Obligations.HandoverMovesBalances := by
  unfold Obligations.HandoverMovesBalances
  intro f s h
  have kept := reached_keeps .handover f s h
  have hp : (reached .handover f s).position = s.position := by simp only [kept]
  have haud : (reached .handover f s).auditRequired = s.auditRequired := by simp only [State.auditRequired, hp]
  have refuses (why : Reason) (res : Results)
      (ho : handoverOwner f.operands (reached .handover f s) = (.reply .refused (some why) res, reached .handover f s)) :
      Refuses (.handover f) .handover f why res s :=
    refuses_of (.handover f) .handover f (fun _ => handoverOwner f.operands) why res s rfl h rfl ho
  constructor
  · rintro (hnone | hnone)
    · exact refuses _ _ (by simp [handoverOwner, hnone, refuse])
    · exact refuses _ _ (by cases e : accountOf (byteField f.operands 0) <;> simp [handoverOwner, hnone, e, refuse])
  intro src dst hsrc hdst from_ to_ fine fails moves
  have howner : handoverOwner f.operands (reached .handover f s) =
      handoverBetween src dst (handoverOptionOf (byteField f.operands 2)) (readU4 (field f.operands 3 4)) (reached .handover f s) := by
    simp only [handoverOwner, hsrc, hdst]
  by_cases haudit : s.auditRequired = true
  · rw [if_pos haudit]
    exact refuses _ _ (by simp only [howner, handoverBetween, haud, haudit, if_true, refuse])
  rw [if_neg haudit]
  by_cases hsame : src = dst
  · rw [if_pos hsame]
    exact refuses _ _ (by simp only [howner, handoverBetween, haud, if_neg haudit, if_pos hsame, refuse])
  rw [if_neg hsame]
  simp only [handoverBetween, haud, if_neg haudit, if_neg hsame] at howner
  -- the judgement of the two accounts, whatever the option
  have failed (o : HandoverOption) (a : Nat)
      (ho : handoverOwner f.operands (reached .handover f s) = judgeHandover o a src dst (reached .handover f s))
      (hfine : fine = false) : fails := by
    rw [← Bool.not_eq_true, Bool.and_eq_true, not_and_or, Bool.not_eq_true, Bool.not_eq_true] at hfine
    obtain ⟨t, e, hw⟩ := judgeHandover_of_failed o a src dst (reached .handover f s)
      (by rw [hp]; rcases hfine with e | e <;> simp only [from_, to_] at e <;> simp [e])
    rw [hp] at hw
    exact refusedFindingPlain_of _ _ f (fun _ => handoverOwner f.operands) _ s t rfl h rfl (ho.trans e) hw hfine
  have intact (o : HandoverOption) (a : Nat)
      (ho : handoverOwner f.operands (reached .handover f s) = judgeHandover o a src dst (reached .handover f s))
      (hfine : fine = true) :
      handoverOwner f.operands (reached .handover f s) =
        match handoverResult o a from_ to_ with
        | none => refuse .range (reached .handover f s)
        | some after => withRoom 1 1 (reached .handover f s) (applyHandover o a src dst after (reached .handover f s)) := by
    rw [ho, judgeHandover_of_intact _ _ _ _ _ (by rw [hp]; exact hfine), hp]
  have ranged (o : HandoverOption) (a : Nat)
      (ho : handoverOwner f.operands (reached .handover f s) = judgeHandover o a src dst (reached .handover f s))
      (hfine : fine = true) (hnone : handoverResult o a from_ to_ = none) : Refuses (.handover f) .handover f .range .none s :=
    refuses _ _ (by rw [intact o a ho hfine, hnone]; rfl)
  have booked (o : HandoverOption) (a : Nat) (after : Account × Account)
      (ho : handoverOwner f.operands (reached .handover f s) = judgeHandover o a src dst (reached .handover f s))
      (hfine : fine = true) (hsome : handoverResult o a from_ to_ = some after) :
      moves o.code (handoverAmount o a from_) ⟨after.1.balance, after.1.coinDue, true⟩ ⟨after.2.balance, after.2.coinDue, true⟩ :=
    roomBooks_of (.handover f) .handover f (handoverOwner f.operands) _ _ 1 1 _ _ s (applyHandover o a src dst after) rfl h rfl
      (by rw [intact o a ho hfine, hsome])
      (fun n hn => by
        have hb := applyHandover_books o a src dst after n (reached .handover f s) hn
        rwa [hp] at hb)
  refine ⟨fun hcode => ?_, fun hcode => ?_, fun hcode => ?_, fun hcode => ?_⟩
  case refine_1 =>
    have ho : handoverOwner f.operands (reached .handover f s) = judgeHandover .exchange 0 src dst (reached .handover f s) := by
      rw [howner, hcode]; rfl
    split
    · exact failed _ _ ho ‹_›
    · exact booked .exchange 0 (to_, from_) ho (by simpa using ‹¬fine = false›) rfl
  case refine_2 =>
    have ho : handoverOwner f.operands (reached .handover f s) = judgeHandover .moveAll 0 src dst (reached .handover f s) := by
      rw [howner, hcode]; rfl
    split
    · exact failed _ _ ho ‹_›
    have hfine : fine = true := by simpa using ‹¬fine = false›
    split
    · exact booked .moveAll 0 _ ho hfine (if_pos ‹_›)
    · exact ranged .moveAll 0 ho hfine (if_neg ‹_›)
  case refine_3 =>
    rw [hcode] at howner
    cases hx : readU4 (field f.operands 3 4) with
    | error p =>
      exact refuses _ _ (by rw [howner, hx]; rfl)
    | ok x =>
      rw [hx] at howner
      simp only []
      by_cases hzero : x = 0
      · rw [if_pos hzero]
        exact refuses _ _ (by rw [howner]; simp only [handoverOptionOf, if_pos hzero, refuse])
      rw [if_neg hzero]
      have ho : handoverOwner f.operands (reached .handover f s) =
          judgeHandover .moveAmount x src dst (reached .handover f s) := by
        rw [howner]; simp only [handoverOptionOf, if_neg hzero]
      split
      · exact failed _ _ ho ‹_›
      have hfine : fine = true := by simpa using ‹¬fine = false›
      split
      · exact booked .moveAmount x _ ho hfine (if_pos ‹_›)
      · exact ranged .moveAmount x ho hfine (if_neg ‹_›)
  case refine_4 =>
    have hnone : handoverOptionOf (byteField f.operands 2) = none := by
      unfold handoverOptionOf
      split <;> first | rfl | omega
    exact refuses _ _ (by rw [howner, hnone]; rfl)

end Sys2Proof.Machine
end

section
/-! LOAD and UNLOAD: their checks and their bookings. -/
namespace Sys2Proof.Machine

/-- The ownership check is the claim's and the other ports' operations (R48). -/
theorem ownershipCheck_of (s : State) (p : Port) :
    (s.claim.owner.ownedBy p = false → s.ownershipCheck p = some .notClaimed) ∧
      (¬s.claim.owner.ownedBy p = false → s.otherOpInFlight p = true → s.ownershipCheck p = some .busy) ∧
      (¬s.claim.owner.ownedBy p = false → ¬s.otherOpInFlight p = true → s.ownershipCheck p = none) := by
  unfold State.ownershipCheck
  refine ⟨fun h => ?_, fun h h' => ?_, fun h h' => ?_⟩ <;> simp_all

/-! ## What the request finds of the custody's state -/

theorem reached_ownershipCheck (r : Request) (f : Frame) (s : State) (h : Taken r f s) (p : Port) :
    (reached r f s).ownershipCheck p = s.ownershipCheck p := by
  have k := reached_keeps r f s h
  simp only [State.ownershipCheck, State.otherOpInFlight, State.opInFlight, State.dispenseInFlight, k]
  rfl

theorem reached_anyOpInFlight (r : Request) (f : Frame) (s : State) (h : Taken r f s) :
    (reached r f s).anyOpInFlight = s.anyOpInFlight := by
  have k := reached_keeps r f s h
  simp only [State.anyOpInFlight, State.dispenseInFlight, k]

/-! ## LOAD (R18) -/

/-- The counts given fit where no denomination but the cassette's own, defined, is among them (R18). -/
theorem countsFit_eq_false_iff (values : Quad Nat) (c : Cassette) (counts : Quad Nat) :
    countsFit values c counts = false ↔
      c.mode ≠ .deposit ∧
        Ix.all.any (fun d => counts.get d != 0 && (c.index != some d || values.get d == 0)) = true := by
  unfold countsFit
  rw [← Bool.not_eq_true, List.all_eq_true, List.any_eq_true]
  by_cases hm : c.mode = .deposit
  · simp [hm]
  · simp only [not_forall]
    constructor
    · rintro ⟨d, hd, hx⟩
      refine ⟨hm, d, hd, ?_⟩
      simpa [hm, imp_iff_not_or] using hx
    · rintro ⟨-, d, hd, hx⟩
      refine ⟨d, hd, ?_⟩
      simpa [hm, imp_iff_not_or] using hx

/-- An accepted LOAD of a cassette whose check word matches (R18). -/
theorem acceptLoad_books (k : Ix) (counts : Quad Nat) (n : Nat) (s : State) (hi : (s.position.cassettes.get k).intact = true)
    (h : s.journal.next = some n) :
    let after := { s.position.cassettes.get k with counts := counts, pickFailed := false }
    Books .ok .none n
      { s.position with
        cassettes := s.position.cassettes.set k { after with state := after.derivedState }
        flows := { s.position.flows with loaded := Quad.add s.position.flows.loaded counts }
        generation := s.position.generation + 1
        lastApplied := n }
      (fun r => r.kind = .load ∧ r.counts = counts.toInt ∧ r.amount = recordAmount (s.value counts) ∧ r.extra = k.number) s
      (acceptLoad k counts s) := by
  intro after
  obtain ⟨-, h2, h3⟩ := stageApplied_recorded
    { kind := .load, counts := counts.toInt, amount := s.value counts, extra := k.number }
    (bumpGeneration (writeCassetteAs k { after with state := after.derivedState }
      (s.onPosition (fun p => { p with flows := { p.flows with loaded := Quad.add p.flows.loaded counts } })))) n (by simpa using h)
  have hv : (writeCassetteAs k { after with state := after.derivedState }
      (s.onPosition (fun p => { p with flows := { p.flows with loaded := Quad.add p.flows.loaded counts } }))).value counts =
      s.value counts := by simp [State.value]
  refine ⟨(acceptLoad k counts s).2, rfl, ?_, ?_, ?_, ?_⟩
  · simp [acceptLoad, ok, bumpGeneration, State.onPosition]
  · intro b hb
    cases b
    case position | journal | ports => simp at hb
    all_goals simp [Kept, acceptLoad, ok]
  · simp only [acceptLoad, ok]
    rw [hv]
    rw [h2, bumpGeneration, State.onPosition, writeCassetteAs_position]
    simp [State.onPosition, after, hi]
  · refine (h3.imp ?_).transfer (by simp) (by simp) ?_
    · rintro r rfl
      exact ⟨rfl, rfl, rfl, rfl⟩
    · simp only [acceptLoad, ok]
      rw [hv]

/-! ## UNLOAD (R19, R21) -/

/-- A cassette whose check word matches is released (R19). -/
theorem releaseCassette_of_intact (k : Ix) (s : State) (hi : (s.position.cassettes.get k).intact = true) :
    releaseCassette k s =
      if (s.position.cassettes.get k).state = .absent then refuse .inUse s
      else if (s.position.cassettes.get k).state = .released then ok .none s
      else ok .none (bumpGeneration (writeCassetteAs k { s.position.cassettes.get k with state := .released } s)) := by
  unfold releaseCassette
  rw [verifyCassette_intact _ _ hi]
  rfl

/-- An accepted UNLOAD of a bin (R21). -/
theorem acceptUnloadBin_books (x : UnloadPlace) (n : Nat) (s : State) (h : s.journal.next = some n) :
    Books .ok .none n { s.position.unloadBin x with generation := (s.position.unloadBin x).generation + 1, lastApplied := n }
      (fun r => r.kind = .unload ∧ r.counts = (s.position.binCounts x).toInt ∧ r.extra = placeCode x ∧
        r.amount = recordAmount ((if x = .suspect then 0 else s.value (s.position.binCounts x) : Nat) : Int)) s
      (acceptUnloadBin x s) := by
  obtain ⟨-, h2, h3⟩ := stageApplied_recorded
    { kind := .unload, counts := (s.position.binCounts x).toInt,
      amount := ((if x = .suspect then 0 else s.value (s.position.binCounts x) : Nat) : Int), extra := placeCode x }
    (bumpGeneration (s.onPosition (fun p => p.unloadBin x))) n (by simpa using h)
  refine ⟨(acceptUnloadBin x s).2, rfl, ?_, ?_, h2, ?_⟩
  · simp [acceptUnloadBin, ok, bumpGeneration, State.onPosition]
  · intro b hb
    cases b
    case position | journal | ports => simp at hb
    all_goals simp [Kept, acceptUnloadBin, ok]
  · refine (h3.imp ?_).transfer (by simp) (by simp) rfl
    rintro r rfl
    exact ⟨rfl, rfl, rfl, rfl⟩

/-- A place code that is a cassette's number (11.2). -/
theorem unloadPlaceOf_number (k : Ix) : unloadPlaceOf k.number = some (.cassette k) := by cases k <;> rfl

theorem unloadPlaceOf_eq_none (n : Nat) (h : ¬(1 ≤ n ∧ n ≤ 7)) : unloadPlaceOf n = none := by
  match n with
  | 0 => rfl
  | n + 8 => rfl
  | 1 | 2 | 3 | 4 | 5 | 6 | 7 => omega

theorem ixOf_eq_none (n : Nat) (h : ¬(1 ≤ n ∧ n ≤ 4)) : ixOf n = none := by
  match n with
  | 0 => rfl
  | n + 5 => rfl
  | 1 | 2 | 3 | 4 => omega

/-! ## The statement's five parts -/

/-- LOAD of a cassette whose check word matches: the checks of R18 in order. -/
theorem loadOwner_of (f : Frame) (s : State) (k : Ix) (h : Taken .load f s) (hk : ixOf (byteField f.operands 0) = some k)
    (hi : (s.position.cassettes.get k).intact = true) :
    let c := s.position.cassettes.get k
    let counts := countsField f.operands 1
    loadOwner f.operands (reached .load f s) =
      if s.claim.owner.ownedBy .s = false then refuse .notClaimed (reached .load f s)
      else if s.otherOpInFlight .s = true then refuse .busy (reached .load f s)
      else if c.state ≠ .uncounted then refuse .inUse (reached .load f s)
      else if c.mode ≠ .deposit ∧
          Ix.all.any (fun d => counts.get d != 0 && (c.index != some d || s.settings.denominations.get d == 0)) = true then
        refuse .range (reached .load f s)
      else if c.capacity < counts.total ∨ s.position.marginsExceeded = true then refuse .range (reached .load f s)
      else withRoom 1 1 (reached .load f s) (acceptLoad k counts (reached .load f s)) := by
  intro c counts
  have kept := reached_keeps .load f s h
  have hp : (reached .load f s).position = s.position := by simp only [kept]
  have hs : (reached .load f s).settings = s.settings := by simp only [kept]
  obtain ⟨o1, o2, o3⟩ := ownershipCheck_of s .s
  simp only [loadOwner, hk, loadCassette, reached_ownershipCheck .load f s h]
  by_cases hown : s.claim.owner.ownedBy .s = false
  · rw [o1 hown, if_pos hown]
  rw [if_neg hown]
  by_cases hbusy : s.otherOpInFlight .s = true
  · rw [o2 hown hbusy, if_pos hbusy]
  rw [o3 hown hbusy, if_neg hbusy]
  simp only []
  rw [verifyCassette_intact _ _ (by rw [hp]; exact hi)]
  simp only [hp, hs, Bool.not_true, Bool.false_eq_true, if_false, countsFit_eq_false_iff, withMargins, c, counts]
  by_cases hcap : (s.position.cassettes.get k).capacity < (countsField f.operands 1).total
  · simp only [hcap, if_true, true_or]
  · simp only [hcap, if_false, false_or]

/-- What an UNLOAD does once no check that all places share refuses it: a cassette is released, a bin booked out (R19, R21). -/
def unloadChecked (x : UnloadPlace) (s : State) : Answer × State :=
  match x with
  | .cassette k => releaseCassette k s
  | x => withMargins 1 1 s (acceptUnloadBin x s)

/-- UNLOAD of a place: the checks of R19 and R21 that all places share. -/
theorem unloadOwner_of (f : Frame) (s : State) (x : UnloadPlace) (h : Taken .unload f s)
    (hx : unloadPlaceOf (byteField f.operands 0) = some x) :
    unloadOwner f.operands (reached .unload f s) =
      if s.claim.owner.ownedBy .s = false then refuse .notClaimed (reached .unload f s)
      else if s.otherOpInFlight .s = true ∨ s.anyOpInFlight = true then refuse .busy (reached .unload f s)
      else unloadChecked x (reached .unload f s) := by
  obtain ⟨o1, o2, o3⟩ := ownershipCheck_of s .s
  simp only [unloadOwner, hx, unloadPlace, reached_ownershipCheck .unload f s h, reached_anyOpInFlight .unload f s h]
  by_cases hown : s.claim.owner.ownedBy .s = false
  · rw [o1 hown, if_pos hown]
  rw [if_neg hown]
  by_cases hbusy : s.otherOpInFlight .s = true
  · rw [o2 hown hbusy, if_pos (Or.inl hbusy)]
  rw [o3 hown hbusy]
  simp only [hbusy, false_or, Bool.false_eq_true]
  cases x <;> rfl

/-- LOAD of a cassette whose check word matches. -/
theorem load_settled (f : Frame) (s : State) (k : Ix) (h : Taken .load f s) (hk : ixOf (byteField f.operands 0) = some k)
    (hi : (s.position.cassettes.get k).intact = true) :
    let c := s.position.cassettes.get k
    let counts := countsField f.operands 1
    let after := { c with counts := counts, pickFailed := false }
    if s.claim.owner.ownedBy .s = false then Refuses (.load f) .load f .notClaimed .none s
    else if s.otherOpInFlight .s = true then Refuses (.load f) .load f .busy .none s
    else if c.state ≠ .uncounted then Refuses (.load f) .load f .inUse .none s
    else if c.mode ≠ .deposit ∧
        Ix.all.any (fun d => counts.get d != 0 && (c.index != some d || s.settings.denominations.get d == 0)) = true then
      Refuses (.load f) .load f .range .none s
    else if c.capacity < counts.total ∨ s.position.marginsExceeded = true then Refuses (.load f) .load f .range .none s
    else
      (∀ why : Reason, s.journal.roomCheck 1 1 = some why → Refuses (.load f) .load f why s.journal.roomFigures s) ∧
      ∀ n : Nat, RoomFor 1 1 s → s.journal.next = some n →
        Replies (.load f) .load f .ok .none [.position, .journal] s (fun t =>
          t.position =
              { s.position with
                cassettes := s.position.cassettes.set k { after with state := after.derivedState }
                flows := { s.position.flows with loaded := Quad.add s.position.flows.loaded counts }
                generation := s.position.generation + 1
                lastApplied := n } ∧
            Recorded n
              (fun r =>
                r.kind = .load ∧ r.counts = counts.toInt ∧ r.amount = recordAmount (s.value counts) ∧
                  r.extra = k.number)
              s t) := by
  intro c counts after
  have kept := reached_keeps .load f s h
  have hp : (reached .load f s).position = s.position := by simp only [kept]
  have hv : (reached .load f s).value counts = s.value counts := by simp only [State.value, kept]
  have refuses (why : Reason) (res : Results)
      (ho : loadOwner f.operands (reached .load f s) = (.reply .refused (some why) res, reached .load f s)) :
      Refuses (.load f) .load f why res s :=
    refuses_of (.load f) .load f (fun _ => loadOwner f.operands) why res s rfl h rfl ho
  have ho := loadOwner_of f s k h hk hi
  simp only [] at ho
  split
  · exact refuses _ _ (ho.trans (if_pos ‹_›))
  rw [if_neg ‹_›] at ho
  split
  · exact refuses _ _ (ho.trans (if_pos ‹_›))
  rw [if_neg ‹_›] at ho
  split
  · exact refuses _ _ (ho.trans (if_pos ‹_›))
  rw [if_neg ‹_›] at ho
  split
  · exact refuses _ _ (ho.trans (if_pos ‹_›))
  rw [if_neg ‹_›] at ho
  split
  · exact refuses _ _ (ho.trans (if_pos ‹_›))
  rw [if_neg ‹_›] at ho
  refine roomBooks_of (.load f) .load f (loadOwner f.operands) _ _ 1 1 _ _ s (acceptLoad k counts) rfl h rfl ho fun n hn => ?_
  have hb := acceptLoad_books k counts n (reached .load f s) (by rw [hp]; exact hi) hn
  simpa only [hp, hv] using hb

/-- UNLOAD of a cassette whose check word matches. -/
theorem unloadCassette_settled (f : Frame) (s : State) (k : Ix) (h : Taken .unload f s) (hk : byteField f.operands 0 = k.number)
    (hi : (s.position.cassettes.get k).intact = true) :
    let c := s.position.cassettes.get k
    if s.claim.owner.ownedBy .s = false then Refuses (.unload f) .unload f .notClaimed .none s
    else if s.otherOpInFlight .s = true ∨ s.anyOpInFlight = true then Refuses (.unload f) .unload f .busy .none s
    else if c.state = .absent then Refuses (.unload f) .unload f .inUse .none s
    else if c.state = .released then Replies (.unload f) .unload f .ok .none [] s (fun _ => True)
    else
      Replies (.unload f) .unload f .ok .none [.position] s (fun t =>
        t.position =
          { s.position with
            cassettes := s.position.cassettes.set k { c with state := .released }
            generation := s.position.generation + 1 }) := by
  intro c
  have kept := reached_keeps .unload f s h
  have hp : (reached .unload f s).position = s.position := by simp only [kept]
  have refuses (why : Reason) (res : Results)
      (ho : unloadOwner f.operands (reached .unload f s) = (.reply .refused (some why) res, reached .unload f s)) :
      Refuses (.unload f) .unload f why res s :=
    refuses_of (.unload f) .unload f (fun _ => unloadOwner f.operands) why res s rfl h rfl ho
  have ho := unloadOwner_of f s (.cassette k) h (by rw [hk]; exact unloadPlaceOf_number k)
  split
  · exact refuses _ _ (ho.trans (if_pos ‹_›))
  rw [if_neg ‹_›] at ho
  split
  · exact refuses _ _ (ho.trans (if_pos ‹_›))
  rw [if_neg ‹_›, unloadChecked, releaseCassette_of_intact _ _ (by rw [hp]; exact hi), hp] at ho
  split
  · exact refuses _ _ (ho.trans (if_pos ‹_›))
  rw [if_neg ‹_›] at ho
  have hplain := reached_kept .unload f s h rfl
  split
  · exact replies_with _ _ f (fun _ => unloadOwner f.operands) _ _ _ s _ _ rfl h (ho.trans (if_pos ‹_›))
      (reached_quiet .unload f s h) (reached_ready .unload f s h) rfl hplain fun _ _ _ => trivial
  rw [if_neg ‹_›] at ho
  have hkept : KeptBut [.position] (reached .unload f s)
      (bumpGeneration (writeCassetteAs k { s.position.cassettes.get k with state := .released } (reached .unload f s))) := by
    intro b hb
    cases b
    case position => simp at hb
    case ports => exact kept_ports_of_lines _ _ (by simp [bumpGeneration, State.onPosition])
    all_goals simp [Kept]
  refine replies_with _ _ f (fun _ => unloadOwner f.operands) _ _ _ s _ _ rfl h ho
    (quiet_of_kept _ _ _ (reached_quiet .unload f s h) hkept (by simp) (by simp) (by simp))
    (by rw [hkept .startUp (by simp)]; exact reached_ready .unload f s h)
    (by simp [bumpGeneration, State.onPosition]) ((hplain.mono (by simp)).trans hkept) fun t hk' _ => ?_
  rw [show t.position = _ from hk' .position (by simp), bumpGeneration, State.onPosition, writeCassetteAs_position, hp]
  simp [c, hi]

/-- UNLOAD of a bin or of the compartment. -/
theorem unloadBin_settled (f : Frame) (s : State) (x : UnloadPlace) (h : Taken .unload f s)
    (hx : unloadPlaceOf (byteField f.operands 0) = some x) (hbin : ∀ k : Ix, x ≠ .cassette k) :
    if s.claim.owner.ownedBy .s = false then Refuses (.unloadBin f) .unload f .notClaimed .none s
    else if s.otherOpInFlight .s = true ∨ s.anyOpInFlight = true then Refuses (.unloadBin f) .unload f .busy .none s
    else if s.position.marginsExceeded = true then Refuses (.unloadBin f) .unload f .range .none s
    else
      (∀ why : Reason, s.journal.roomCheck 1 1 = some why →
        Refuses (.unloadBin f) .unload f why s.journal.roomFigures s) ∧
      ∀ n : Nat, RoomFor 1 1 s → s.journal.next = some n →
        Replies (.unloadBin f) .unload f .ok .none [.position, .journal] s (fun t =>
          t.position =
            { s.position.unloadBin x with generation := (s.position.unloadBin x).generation + 1, lastApplied := n } ∧
          Recorded n
            (fun r => r.kind = .unload ∧ r.counts = (s.position.binCounts x).toInt ∧ r.extra = placeCode x ∧
              r.amount = recordAmount ((if x = .suspect then 0 else s.value (s.position.binCounts x) : Nat) : Int))
            s t) := by
  have kept := reached_keeps .unload f s h
  have hp : (reached .unload f s).position = s.position := by simp only [kept]
  have hv (q : Quad Nat) : (reached .unload f s).value q = s.value q := by simp only [State.value, kept]
  have refuses (why : Reason) (res : Results)
      (ho : unloadOwner f.operands (reached .unload f s) = (.reply .refused (some why) res, reached .unload f s)) :
      Refuses (.unloadBin f) .unload f why res s :=
    refuses_of (.unloadBin f) .unload f (fun _ => unloadOwner f.operands) why res s rfl h rfl ho
  have ho := unloadOwner_of f s x h hx
  have hfree : unloadChecked x (reached .unload f s) =
      withMargins 1 1 (reached .unload f s) (acceptUnloadBin x (reached .unload f s)) := by
    cases x with
    | cassette k => exact absurd rfl (hbin k)
    | reject | retract | suspect => rfl
  split
  · exact refuses _ _ (ho.trans (if_pos ‹_›))
  rw [if_neg ‹_›] at ho
  split
  · exact refuses _ _ (ho.trans (if_pos ‹_›))
  rw [if_neg ‹_›, hfree, withMargins, hp] at ho
  split
  · exact refuses _ _ (ho.trans (if_pos ‹_›))
  rw [if_neg ‹_›] at ho
  refine roomBooks_of (.unloadBin f) .unload f (unloadOwner f.operands) _ _ 1 1 _ _ s (acceptUnloadBin x) rfl h rfl ho fun n hn => ?_
  have hb := acceptUnloadBin_books x n (reached .unload f s) hn
  simpa only [hp, hv] using hb

/-- Settles O30: a number or place that names none, and the three completions. -/
theorem loadAndUnloadBookNotes : Obligations.LoadAndUnloadBookNotes := by
  unfold Obligations.LoadAndUnloadBookNotes
  refine ⟨fun f s h hn => ?_, fun f s h hn => ?_, load_settled, unloadCassette_settled, fun f s x h hx hbin => ?_⟩
  · exact refuses_of (.load f) .load f (fun _ => loadOwner f.operands) _ _ s rfl h rfl
      (by simp only [loadOwner, ixOf_eq_none _ hn, refuse])
  · have ho : unloadOwner f.operands (reached .unload f s) = refuse .range (reached .unload f s) := by
      simp only [unloadOwner, unloadPlaceOf_eq_none _ hn]
    exact ⟨refuses_of (.unload f) .unload f (fun _ => unloadOwner f.operands) _ _ s rfl h rfl ho,
      refuses_of (.unloadBin f) .unload f (fun _ => unloadOwner f.operands) _ _ s rfl h rfl ho⟩
  · have key := unloadBin_settled f s x h hx hbin
    cases x with
    | cassette k => exact absurd rfl (hbin k)
    | reject => exact key
    | retract => exact key
    | suspect => exact key

end Sys2Proof.Machine
end

section
/-! POSITION_READ, APPROVE, its expiry and STATUS. -/
namespace Sys2Proof.Machine

/-- One byte of the operands, 0 where there is none. -/
theorem byteField_eq (ops : List Byte) (i : Nat) : byteField ops i = (ops.getD i 0#8).toNat := by
  have e : ops[i]? = (ops.drop i).head? := by rw [List.head?_drop]
  unfold byteField intField field
  rw [List.getD_eq_getElem?_getD, e]
  cases ops.drop i <;> simp [natOf]

/-- A request that no claim owner's idle timer hangs on leaves the claim. -/
theorem reached_claim (r : Request) (f : Frame) (s : State) (h : Taken r f s) (ht : Request.touchesIdle r = false) :
    (reached r f s).claim = s.claim := by
  unfold reached
  rw [hearFrame_taken r f s h]
  unfold touchIdle
  simp only [ht, Bool.false_eq_true, false_and, if_false]
  unfold consumeApproval hold
  (repeat' split) <;> simp

/-- A request without an approval class refused with nothing changed that a claim speaks of. -/
theorem refusesPlain_of (c : Instr) (r : Request) (f : Frame) (owner : Bool → State → Answer × State) (why : Reason)
    (res : Results) (s s' : State) (he : exec c s = done (takeConsuming r f owner s)) (h : Taken r f s)
    (hc : Request.consumes r = none) (ho : owner (consumed r f s) (reached r f s) = (.reply .refused (some why) res, s'))
    (hl : s'.ports.lines = (reached r f s).ports.lines) (hk : KeptBut [] (reached r f s) s') : Refuses c r f why res s := by
  obtain ⟨t, e, ha, hkept, -⟩ := answered_of c r f owner _ _ _ s s' he h ho
    (quiet_of_kept _ _ _ (reached_quiet r f s h) hk (by simp) (by simp) (by simp))
    (by rw [hk .startUp (by simp)]; exact reached_ready r f s h) hl
  exact ⟨t, e, ha, (reached_kept r f s h hc).trans (hk.trans hkept)⟩

/-! ## POSITION_READ (R12) -/

/-- Every record that POSITION_READ reports matches its check word. -/
def State.sound (s : State) : Prop := WordsMatch s ∧ ∀ a : AccountId, (s.position.account a).intact = true

/-- POSITION_READ reads every check word (R12). -/
theorem positionReadOwner_read (s : State) :
    ∃ t : State, positionReadOwner s = (.reply .ok none (.position s.positionReport), t) ∧ WordsRead (¬s.sound) s t := by
  have r1 := (verifyCassettes_read s).2
  have r2 := r1.trans (verifyAccount_read .drawerA _)
  have r3 := r2.trans (verifyAccount_read .drawerB _)
  have r4 := r3.trans (verifyAccount_read .branchCash _)
  simp only [r1.account, r2.account, r3.account] at r4
  refine ⟨_, rfl, r4.congr ?_⟩
  have hall : (∀ a : AccountId, (s.position.account a).intact = true) ↔
      (s.position.account .drawerA).intact = true ∧ (s.position.account .drawerB).intact = true ∧
        (s.position.account .branchCash).intact = true :=
    ⟨fun h => ⟨h _, h _, h _⟩, fun ⟨_, _, _⟩ a => by cases a <;> assumption⟩
  simp only [State.sound, hall, not_and_or, Bool.not_eq_true, or_assoc]

theorem positionRead_settled (f : Frame) (s : State) (h : Taken .positionRead f s) :
    (s.sound → Replies (.positionRead f) .positionRead f .ok (.position s.positionReport) [] s (fun _ => True)) ∧
      (¬s.sound →
        Replies (.positionRead f) .positionRead f .ok (.position s.positionReport) [.position] s (IntegrityFound s)) := by
  have kept := reached_keeps .positionRead f s h
  have hrep : (reached .positionRead f s).positionReport = s.positionReport := by simp only [State.positionReport, kept]
  have hsound : (reached .positionRead f s).sound ↔ s.sound := by simp only [State.sound, WordsMatch, kept]
  obtain ⟨s', ho, hw⟩ := positionReadOwner_read (reached .positionRead f s)
  rw [hrep] at ho
  have hplain := reached_kept .positionRead f s h rfl
  constructor
  · intro hs
    have e := hw.fine (not_not.mpr (hsound.mpr hs))
    rw [e] at ho
    exact replies_with _ _ f (fun _ => positionReadOwner) _ _ _ s _ _ rfl h ho (reached_quiet .positionRead f s h)
      (reached_ready .positionRead f s h) rfl hplain fun _ _ _ => trivial
  · intro hs
    have hk : KeptBut [.position] (reached .positionRead f s) s' := by
      intro b hb
      cases b
      case position => simp at hb
      case ports => exact kept_ports_of_lines _ _ hw.lines
      all_goals rw [hw.rest]; simp [Kept]
    refine replies_with _ _ f (fun _ => positionReadOwner) _ _ _ s s' _ rfl h ho
      (quiet_of_kept _ _ _ (reached_quiet .positionRead f s h) hk (by simp) (by simp) (by simp))
      (by rw [hk .startUp (by simp)]; exact reached_ready .positionRead f s h) hw.lines ((hplain.mono (by simp)).trans hk)
      fun t hkept hn => ?_
    exact IntegrityFound.transfer (hw.found (mt hsound.mp hs)) (by simp only [kept]) (by simp only [kept])
      (by simp only [kept]) (hkept .position (by simp)) hn

/-! ## APPROVE and the expiry (R188, R189) -/

/-- What a port's approval slot takes, and nothing else at the ports. -/
theorem onPort_approval_portIs (p : Port) (a : Option ApprovalClass) (s x t : State) (hx : Kept .ports s x)
    (ht : Kept .ports (x.onPort p (fun q => { q with approval := a })) t) :
    PortIs p (s.ports.get p).frameFlag (s.ports.get p).overrunFlag a (s.ports.get p).duressPending s t := by
  intro q
  obtain ⟨x1, x2, x3, x4⟩ := hx q
  obtain ⟨t1, t2, t3, t4⟩ := ht q
  by_cases e : q = p
  · subst e
    simp only [onPort_get_self] at t1 t2 t3 t4
    simp only [if_true]
    exact ⟨t1.trans x1, t2.trans x2, t3, t4.trans x4⟩
  · simp only [onPort_get_other _ _ _ _ e] at t1 t2 t3 t4
    simp only [if_neg e]
    exact ⟨t1.trans x1, t2.trans x2, t3.trans x3, t4.trans x4⟩

theorem approvalExpiry_settled (p : Port) (s : State) (h : s.running = true) (hq : Quiet s) :
    Does (.approvalExpiry p) [.ports] s
      (PortIs p (s.ports.get p).frameFlag (s.ports.get p).overrunFlag none (s.ports.get p).duressPending s) := by
  refine does_done _ _ s (approvalExpired p s) _ ?_ (quiet_of_eq s _ hq (by simp [approvalExpired]) (by simp [approvalExpired])
    (by simp [approvalExpired])) (by simpa [approvalExpired, State.powered] using powered_of_running s h) ?_ ?_
  · exact congrArg done (event_running _ s h)
  · intro b hb
    cases b
    case ports => simp at hb
    all_goals simp [Kept, approvalExpired]
  · intro t hk _
    exact onPort_approval_portIs p none s s t (fun q => ⟨rfl, rfl, rfl, rfl⟩) (hk .ports (by simp))

/-- The number of a port names it (11.2). -/
theorem portOf_portCode (p : Port) : portOf (portCode (some p)) = some p := by cases p <;> rfl

/-- The class codes (11.2): 1 names DEPOSIT_OVERRIDE alone, and 0 and those above 3 name none. -/
theorem classOf_eq_some (n : Nat) (c : ApprovalClass) (h : classOf n = some c) :
    1 ≤ n ∧ n ≤ 3 ∧ (c = .depositOverride ↔ n = 1) := by
  unfold classOf at h
  split at h <;> cases h <;> simp

/-- The port codes (11.2). -/
theorem portOf_eq_some (n : Nat) (p : Port) (h : portOf n = some p) : n = portCode (some p) := by
  unfold portOf at h
  split at h <;> cases h <;> rfl

theorem approve_settled (f : Frame) (s : State) (h : Taken .approve f s) :
    let b (i : Nat) : Nat := (f.operands.getD i 0#8).toNat
    if b 0 = 0 ∨ 3 < b 0 ∨ b 1 = 0 ∨ 3 < b 1 ∨ (b 0 = 3 ∧ b 1 ≠ 1) then Refuses (.approve f) .approve f .range .none s
    else
      ∀ (p : Port) (c : ApprovalClass), portCode (some p) = b 0 → classOf (b 1) = some c →
        let q := s.ports.get p
        Replies (.approve f) .approve f .ok (.approved q.approval) [.ports] s
          (PortIs p q.frameFlag q.overrunFlag (some c) q.duressPending s) := by
  intro b
  have hplain := reached_kept .approve f s h rfl
  have hown : approveOwner f.operands (reached .approve f s) =
      match portOf (b 0), classOf (b 1) with
      | some p, some c =>
        if p = .m ∨ (p = .s ∧ c ≠ .depositOverride) then refuse .range (reached .approve f s)
        else
          ok (.approved ((reached .approve f s).ports.get p).approval)
            ((reached .approve f s).onPort p (fun q => { q with approval := some c }))
      | _, _ => refuse .range (reached .approve f s) := by
    simp only [approveOwner, byteField_eq]; rfl
  split
  · next hbad =>
    refine refuses_of (.approve f) .approve f (fun _ => approveOwner f.operands) _ _ s rfl h rfl ?_
    rw [hown]
    cases hp : portOf (b 0) with
    | none => rfl
    | some p =>
      cases hc : classOf (b 1) with
      | none => rfl
      | some c =>
        have hp' := portOf_eq_some _ _ hp
        obtain ⟨c1, c2, c3⟩ := classOf_eq_some _ _ hc
        refine if_pos ?_
        cases p with
        | a | b => simp only [portCode] at hp'; omega
        | m => exact .inl rfl
        | s =>
          simp only [portCode] at hp'
          exact .inr ⟨rfl, fun e => by have := c3.mp e; omega⟩
  · next hgood =>
    intro p c hp hc q
    have hp' := portOf_portCode p
    rw [hp] at hp'
    obtain ⟨-, -, c3⟩ := classOf_eq_some _ _ hc
    have hpass : ¬(p = .m ∨ (p = .s ∧ c ≠ .depositOverride)) := by
      rintro (rfl | ⟨rfl, hne⟩) <;> simp only [portCode] at hp
      · omega
      · have : b 1 ≠ 1 := fun e => hne (c3.mpr e)
        omega
    have hq : ((reached .approve f s).ports.get p).approval = q.approval := (hplain .ports (by simp) p).2.2.1
    obtain ⟨-, hf1, hf2⟩ := reached_port .approve f s h
    refine replies_of (.approve f) .approve f (fun _ => approveOwner f.operands) _ _ _ s
      ((reached .approve f s).onPort p (fun q => { q with approval := some c })) _ rfl h ?_
      (quiet_of_eq _ _ (reached_quiet .approve f s h) rfl rfl rfl) (reached_ready .approve f s h) ?_ ?_ ?_ ?_
    · rw [hown, hp', hc]
      simp only [if_neg hpass, hq, ok]
    · by_cases e : f.port = p
      · rw [e]; simp
      · rw [onPort_get_other _ _ _ _ e]
    · by_cases e : f.port = p
      · rw [e] at hf1 hf2 ⊢; simp [PortState.faultsPending, hf1, hf2]
      · rw [onPort_get_other _ _ _ _ e]; simp [PortState.faultsPending, hf1, hf2]
    · refine (hplain.mono (by simp)).trans fun x hx => ?_
      cases x
      case ports => simp at hx
      all_goals simp [Kept]
    · intro t hk _
      exact onPort_approval_portIs p (some c) s _ t (hplain .ports (by simp)) (hk .ports (by simp))

/-! ## STATUS (R183) -/

/-- The section that STATUS names, as its port is shown it, or none (R183). -/
def State.askedSection (s : State) (f : Frame) : Option StatusSection :=
  (sectionOf (byteField f.operands 0)).bind (fun x => s.statusSection f.port x s.freeCount)

theorem statusOwner_eq (f : Frame) (s : State) :
    statusOwner f s =
      match s.askedSection f with
      | some x => ok (.status x s.clock.count s.clock.invalid s.position.causes) s.takeFree.2
      | none => refuse .range s.takeFree.2 := by
  have e (x : Section) : s.takeFree.2.statusSection f.port x s.takeFree.1 = s.statusSection f.port x s.freeCount := by
    cases x <;> rfl
  unfold statusOwner State.askedSection
  simp only [e]
  rfl

/-- Taking a free value leaves every block. -/
theorem takeFree_kept (s : State) : KeptBut [] s s.takeFree.2 := fun b _ => by cases b <;> simp [Kept]

/-- A section of STATUS that the port is shown (R183). -/
theorem status_gives (f : Frame) (s : State) (x : StatusSection) (h : Taken .status f s)
    (hx : (reached .status f s).askedSection f = some x) :
    Replies (.status f) .status f .ok (.status x s.clock.count s.clock.invalid s.position.causes) [] s (fun _ => True) := by
  have kept := reached_keeps .status f s h
  have hc : (reached .status f s).clock = s.clock := by simp only [kept]
  have hp : (reached .status f s).position = s.position := by simp only [kept]
  refine replies_with _ _ f (fun _ => statusOwner f) _ _ _ s (reached .status f s).takeFree.2 _ rfl h ?_
    (quiet_of_eq _ _ (reached_quiet .status f s h) rfl rfl rfl) (reached_ready .status f s h) rfl
    ((reached_kept .status f s h rfl).trans (takeFree_kept _)) fun _ _ _ => trivial
  simp only [statusOwner_eq, hx, ok, hc, hp]

/-- A section that names none, or that the port is not shown, is refused RANGE (R183, R202). -/
theorem status_ranged (f : Frame) (s : State) (h : Taken .status f s) (hx : (reached .status f s).askedSection f = none) :
    Refuses (.status f) .status f .range .none s := by
  refine refusesPlain_of _ _ f (fun _ => statusOwner f) _ _ s (reached .status f s).takeFree.2 rfl h rfl ?_ rfl (takeFree_kept _)
  simp only [statusOwner_eq, hx, refuse]

theorem status_settled (f : Frame) (s : State) (h : Taken .status f s) :
    let q := s.ports.get f.port
    let gives (x : StatusSection) : Prop :=
      Replies (.status f) .status f .ok (.status x s.clock.count s.clock.invalid s.position.causes) [] s (fun _ => True)
    let ranged : Prop := Refuses (.status f) .status f .range .none s
    match (f.operands.headD 0#8).toNat with
    | 1 =>
      ∃ left : Nat, left ≤ 60 ∧ gives (.port q.frameFlag q.overrunFlag (q.approval.map (fun c => (c, left))))
    | 2 =>
      ∃ left : Nat, (∀ n, s.claim.idle = some n → left ≤ n) ∧
        gives (.module s.claim.owner s.claim.waiting (s.claim.idle.map (fun _ => left)) s.path.state)
    | 3 =>
      match f.port with
      | .a => gives (.dispense [s.shownDispense .a])
      | .b => gives (.dispense [s.shownDispense .b])
      | .s => gives (.dispense [s.shownDispense .a, s.shownDispense .b])
      | .m => ranged
    | 4 =>
      let e := s.escrow
      if f.port = .m then ranged
      else if f.port = .s ∨ (e.isOpen = true ∧ f.port = e.owner.port) then
        gives (.escrow e.isOpen e.owner e.purpose (drawerOf e.owner) e.declared e.verdict e.stack)
      else gives (.escrowOther e.isOpen e.owner)
    | 5 =>
      let d := s.depository
      ∃ mouth : Bool,
        gives
          (.slot d.slot d.phase d.supervisorOpen
            ⟨decide (s.settings.binCapacity ≤ d.bin.count), s.restricted .slotClose, !d.supervisorOpen⟩ d.envelope d.sequence
            d.bin s.settings.binCapacity d.pullbacks.length d.imprinterFault d.receiptOut mouth)
    | 6 =>
      if f.port = .a ∨ f.port = .b then gives (.alarmTeller s.alarm.restriction) else gives (.alarm s.alarm.summary)
    | 7 => gives (.journal s.journal.figures)
    | _ => ranged := by
  intro q gives ranged
  have kept := reached_keeps .status f s h
  have hclaim := reached_claim .status f s h rfl
  have hplain := reached_kept .status f s h rfl
  have hcode : (f.operands.headD 0#8).toNat = byteField f.operands 0 := by
    rw [byteField_eq]; cases f.operands <;> rfl
  rw [hcode]
  have shows (x : StatusSection) := status_gives f s x h
  have hides := status_ranged f s h
  simp only [State.askedSection] at shows hides
  match hb : byteField f.operands 0 with
  | 1 =>
    obtain ⟨q1, q2, q3, -⟩ := hplain .ports (by simp) f.port
    refine ⟨leftOf 60 (reached .status f s).freeCount, Nat.min_le_left _ _, shows _ ?_⟩
    simp only [hb, sectionOf, Option.bind_some, State.statusSection, q1, q2, q3]
    rfl
  | 2 =>
    refine ⟨(s.claim.idle.map (fun n => leftOf n (reached .status f s).freeCount)).getD 0, fun n hn => ?_, shows _ ?_⟩
    · rw [hn]; exact Nat.min_le_left _ _
    · simp only [hb, sectionOf, Option.bind_some, State.statusSection, hclaim, kept]
      cases s.claim.idle <;> rfl
  | 3 =>
    simp only [hb, sectionOf, Option.bind_some, State.statusSection] at shows hides
    have hd (t : Teller) : (reached .status f s).shownDispense t = s.shownDispense t := by
      simp only [State.shownDispense, State.dispense, kept]
      rfl
    simp only [hd] at shows
    cases hport : f.port <;> simp only [hport] at shows hides ⊢
    case a | b | s => exact shows _ rfl
    case m => exact hides trivial
  | 4 =>
    simp only [hb, sectionOf, Option.bind_some, State.statusSection, State.escrowSection, kept] at shows hides
    simp only []
    by_cases hm : f.port = .m
    · rw [if_pos hm]; exact hides (if_pos hm)
    rw [if_neg hm]
    have hwhole : (f.port.teller?.isNone = true ∨ (s.escrow.isOpen = true ∧ f.port.teller? = some s.escrow.owner)) ↔
        (f.port = .s ∨ (s.escrow.isOpen = true ∧ f.port = s.escrow.owner.port)) := by
      cases hport : f.port <;> cases ho : s.escrow.owner <;> simp_all [Port.teller?, Teller.port]
    split
    · next hw => exact shows _ (by rw [if_neg hm, if_pos (hwhole.mpr hw)])
    · next hw => exact shows _ (by rw [if_neg hm, if_neg (mt hwhole.mp hw)])
  | 5 =>
    refine ⟨Config.mouthObject (reached .status f s).freeCount, shows _ ?_⟩
    simp only [hb, sectionOf, Option.bind_some, State.statusSection, State.slotSection, State.permitFailures, State.restricted, kept]
  | 6 =>
    simp only [hb, sectionOf, Option.bind_some, State.statusSection, kept] at shows
    simp only []
    have hteller : f.port.teller?.isSome = true ↔ (f.port = .a ∨ f.port = .b) := by cases f.port <;> simp [Port.teller?]
    split
    · next hw => exact shows _ (if_pos (hteller.mpr hw))
    · next hw => exact shows _ (if_neg (mt hteller.mp hw))
  | 7 =>
    refine shows _ ?_
    simp only [hb, sectionOf, Option.bind_some, State.statusSection, kept]
  | 0 => exact hides (by rw [hb]; rfl)
  | n + 8 => exact hides (by rw [hb]; rfl)

/-- Settles O55: the report, the approval and its expiry, and each section of STATUS. -/
theorem approvalsAndReports : Obligations.ApprovalsAndReports := by
  unfold Obligations.ApprovalsAndReports
  exact ⟨positionRead_settled, approve_settled, approvalExpiry_settled, status_settled⟩

end Sys2Proof.Machine
end

section
/-! DISPENSE: what its mix reads and finds, and its checks in order. -/
namespace Sys2Proof.Machine

/-! ## The mix (R36 to R42) -/

/-- What R42 says of a mix once its cassettes' words are read, the accounts' words with it. -/
def MixResult.judged (t : Teller) (target : RemainderTarget) (limit : Nat) (m : MixResult) (p : Position) : MixOutcome :=
  if m.notes = 0 then .failed .notPayable (.notPayable m.payable)
  else if limit < m.remainder then .failed .inexact (.inexact m.mix m.notes m.value m.remainder m.payable)
  else if !((p.account (remainderAccount t target)).intact && (p.account (drawerOf t)).intact) then .failed .audit .none
  else if Config.coinDueMax < (p.account (remainderAccount t target)).coinDue + m.remainder then
    .failed .range (.mixRange m.mix m.value m.remainder (.coinDue (remainderAccount t target)))
  else if !balanceInRange ((p.account (drawerOf t)).balance + m.value) then
    .failed .range (.mixRange m.mix m.value m.remainder (.balance (drawerOf t)))
  else .payable m

/-- The judgement of a mix reads two account records, and finds AUDIT exactly where one of them fails. -/
theorem judgeMix_spec (t : Teller) (target : RemainderTarget) (limit : Nat) (m : MixResult) (s : State) :
    (judgeMix t target limit m s).1 = m.judged t target limit s.position ∧
      WordsRead (m.judged t target limit s.position = .failed .audit .none) s (judgeMix t target limit m s).2 := by
  have r1 := verifyAccount_read (remainderAccount t target) s
  have r2 := r1.trans (verifyAccount_read (drawerOf t) _)
  rw [r1.account] at r2
  unfold judgeMix MixResult.judged
  by_cases h1 : m.notes = 0
  · simp only [h1, if_true]
    exact ⟨trivial, (WordsRead.refl s).congr (by simp)⟩
  by_cases h2 : limit < m.remainder
  · simp only [h1, h2, if_true, if_false]
    exact ⟨trivial, (WordsRead.refl s).congr (by simp)⟩
  simp only [h1, h2, if_false, verifyAccount_fst, r1.account, r2.account]
  cases ho : (s.position.account (remainderAccount t target)).intact <;>
    cases hd : (s.position.account (drawerOf t)).intact <;>
    simp only [ho, hd, Bool.and_true, Bool.and_false, Bool.not_true, Bool.not_false, Bool.false_eq_true,
      if_true, if_false] at r2 ⊢
  · exact ⟨trivial, r2.congr (by simp)⟩
  · exact ⟨trivial, r2.congr (by simp)⟩
  · exact ⟨trivial, r2.congr (by simp)⟩
  · split
    · exact ⟨rfl, r2.congr (by simp)⟩
    · split
      · exact ⟨rfl, r2.congr (by simp)⟩
      · exact ⟨rfl, r2.congr (by simp)⟩

/-- What the mix of a request finds (R36, R37, R42). -/
def State.mixFound (s : State) (t : Teller) (amount cap : Nat) (order : List Ix) (target : RemainderTarget) : MixOutcome :=
  if s.restricted .dispenseCap ∧ s.settings.holdupCap = 0 then .failed .halted .none
  else if (verifyCassettes s).1 = false then .failed .audit .none
  else
    (s.mix order Quad.zero cap (s.mixTarget amount) (amount - s.mixTarget amount)).judged t target s.settings.remainderLimit
      s.position

/-- The mix of a request reads the check words it needs, and finds AUDIT exactly where one of them fails. -/
theorem requestMix_spec (t : Teller) (amount cap : Nat) (order : List Ix) (target : RemainderTarget) (s : State) :
    (requestMix t amount cap order target s).1 = s.mixFound t amount cap order target ∧
      WordsRead (s.mixFound t amount cap order target = .failed .audit .none) s (requestMix t amount cap order target s).2 := by
  unfold requestMix State.mixFound
  by_cases h1 : s.restricted .dispenseCap = true ∧ s.settings.holdupCap = 0
  · rw [if_pos h1, if_pos h1]
    exact ⟨rfl, (WordsRead.refl s).congr (by simp)⟩
  rw [if_neg h1, if_neg h1]
  by_cases hw : WordsMatch s
  · rw [verifyCassettes_intact s hw, if_neg (by simp)]
    exact judgeMix_spec _ _ _ _ _
  · obtain ⟨r1, r2⟩ := verifyCassettes_read s
    have hfalse : (verifyCassettes s).1 = false := Bool.eq_false_iff.mpr (mt r1.mp hw)
    rw [if_pos hfalse]
    simp only [hfalse, Bool.not_false, if_true]
    exact ⟨trivial, r2.congr (by simp [hw])⟩

/-- AUDIT carries nothing. -/
theorem mixFound_audit (s : State) (t : Teller) (amount cap : Nat) (order : List Ix) (target : RemainderTarget) (carried : Results)
    (h : s.mixFound t amount cap order target = .failed .audit carried) : carried = .none := by
  unfold State.mixFound MixResult.judged at h
  (repeat' split at h) <;> simp at h <;> exact h.symm

/-- The mix depends on the position, the settings and the restriction set alone. -/
theorem mixFound_congr (s x : State) (t : Teller) (amount cap : Nat) (order : List Ix) (target : RemainderTarget)
    (hp : x.position = s.position) (hs : x.settings = s.settings) (ha : x.alarm = s.alarm) :
    x.mixFound t amount cap order target = s.mixFound t amount cap order target := by
  have hw : (verifyCassettes x).1 = (verifyCassettes s).1 := by
    rw [Bool.eq_iff_iff, (verifyCassettes_read x).1, (verifyCassettes_read s).1, WordsMatch, WordsMatch, hp]
  unfold State.mixFound State.mix State.mixTarget State.cassetteValues State.availability State.restricted
  rw [hw, hp, hs, ha]

/-! ## DISPENSE (R71) -/

/-- A stale generation is answered once the cassettes' words are read (R71). -/
theorem refuseStale_of (s : State) :
    (WordsMatch s → refuseStale s = (.reply .refused (some .stale) s.staleResults, s)) ∧
      (¬WordsMatch s → ∃ t, refuseStale s = (.reply .refused (some .audit) .none, t) ∧ WordsRead (¬WordsMatch s) s t) := by
  obtain ⟨r1, r2⟩ := verifyCassettes_read s
  constructor
  · intro hw
    unfold refuseStale
    rw [verifyCassettes_intact s hw]
    rfl
  · intro hw
    refine ⟨_, ?_, r2⟩
    have hfalse : (verifyCassettes s).1 = false := Bool.eq_false_iff.mpr (mt r1.mp hw)
    simp only [refuseStale, hfalse, Bool.false_eq_true, if_false, refuse]

/-- What the checks of DISPENSE read of the state is as it was where the request is asked. -/
theorem reached_delayApplies (f : Frame) (s : State) (h : Taken .dispense f s) (amount : Nat) (used : Bool) :
    (reached .dispense f s).delayApplies amount used = s.delayApplies amount used := by
  simp only [State.delayApplies, State.restricted, reached_keeps .dispense f s h]

theorem reached_opInFlight (r : Request) (f : Frame) (s : State) (h : Taken r f s) (p : Port) :
    (reached r f s).opInFlight p = s.opInFlight p := by
  simp only [State.opInFlight, State.dispenseInFlight, reached_keeps r f s h]

/-- Checks 10 to 13 of DISPENSE (R71). -/
theorem judgeDispense_settled (w : Teller) (f : Frame) (s : State) (amount : Nat) (h : Taken .dispense f s)
    (ho : dispenseOwner f (consumed .dispense f s) (reached .dispense f s) =
      judgeDispense w (dispenseOperands f.operands) amount (consumed .dispense f s) (reached .dispense f s)) :
    let o := dispenseOperands f.operands
    let refused (why : Reason) (results : Results) : Prop :=
      ∃ t : State, exec (.dispense f) s = .next t ∧ Answers .dispense f .refused (some why) results s t ∧
        KeptBut [.ports] s t ∧ ApprovalUsed .dispense f s t
    let faulted : Prop :=
      ∃ t : State, exec (.dispense f) s = .next t ∧ Answers .dispense f .refused (some .audit) .none s t ∧
        KeptBut [.ports, .position] s t ∧ ApprovalUsed .dispense f s t ∧ IntegrityFound s t
    (∀ (carried : Results) (y : State),
      requestMix w amount o.cap o.preference o.target s = (.failed .audit carried, y) → faulted) ∧
    (∀ (why : Reason) (carried : Results),
      requestMix w amount o.cap o.preference o.target s = (.failed why carried, s) → why ≠ .audit → refused why carried) ∧
    ∀ m : MixResult, requestMix w amount o.cap o.preference o.target s = (.payable m, s) →
      if s.position.binsFull = true then refused .binFull .none
      else if s.delayApplies amount (Approved .dispense f s) = true ∧ s.escrow.stack ≠ [] then refused .escrowNotEmpty .none
      else if s.position.marginsExceeded = true then refused .range .none
      else
        ∀ why : Reason, s.journal.roomCheck 2 1 = some why →
          refused why (.room s.journal.room s.journal.reservations.length s.journal.stagingFree) := by
  intro o refused faulted
  have kept := reached_keeps .dispense f s h
  have hp : (reached .dispense f s).position = s.position := by simp only [kept]
  have hj : (reached .dispense f s).journal = s.journal := by simp only [kept]
  have he : (reached .dispense f s).escrow = s.escrow := by simp only [kept]
  have refuses (why : Reason) (res : Results)
      (ho : dispenseOwner f (consumed .dispense f s) (reached .dispense f s) =
        (.reply .refused (some why) res, reached .dispense f s)) : refused why res :=
    refused_of (.dispense f) .dispense f (dispenseOwner f) why res s rfl h ho
  obtain ⟨x1, x2⟩ := requestMix_spec w amount o.cap o.preference o.target (reached .dispense f s)
  have hcongr := mixFound_congr s (reached .dispense f s) w amount o.cap o.preference o.target hp (by simp only [kept])
    (by simp only [kept])
  have hs := (requestMix_spec w amount o.cap o.preference o.target s).1
  rw [hcongr] at x1 x2
  -- the mix at the request's block is the mix of the state before, and reads nothing into it unless a word fails
  have same (out : MixOutcome) (y : State) (hm : requestMix w amount o.cap o.preference o.target s = (out, y))
      (hne : out ≠ .failed .audit .none) :
      requestMix w amount o.cap o.preference o.target (reached .dispense f s) = (out, reached .dispense f s) := by
    have hout : s.mixFound w amount o.cap o.preference o.target = out := by rw [← hs, hm]
    exact Prod.ext (x1.trans hout) (x2.fine (by rw [hout]; exact hne))
  rw [judgeDispense] at ho
  refine ⟨fun carried y hm => ?_, fun why carried hm hne => ?_, fun m hm => ?_⟩
  · have hout : s.mixFound w amount o.cap o.preference o.target = .failed .audit carried := by rw [← hs, hm]
    have hnone := mixFound_audit _ _ _ _ _ _ _ hout
    subst hnone
    obtain ⟨t, e, ha, hk, hu, hx⟩ := refusedFinding_of (.dispense f) .dispense f (dispenseOwner f) _ s
      (requestMix w amount o.cap o.preference o.target (reached .dispense f s)).2 rfl h
      (by
        rw [ho, show requestMix w amount o.cap o.preference o.target (reached .dispense f s) = (.failed .audit .none, _) from
          Prod.ext (x1.trans hout) rfl]
        rfl) x2 hout
    exact ⟨t, e, ha, hk.mono (by simp), hu, hx⟩
  · refine refuses _ _ ?_
    rw [ho, same _ _ hm (by simpa using fun e => absurd e hne)]
    rfl
  · rw [same _ _ hm (by simp)] at ho
    simp only [hp, he, reached_delayApplies f s h, consumed_eq_approved, withMargins, withRoom, hj] at ho
    rw [← consumed_eq_approved] at ho ⊢
    split
    · exact refuses _ _ (ho.trans (if_pos ‹_›))
    rw [if_neg ‹_›] at ho
    split
    · exact refuses _ _ (ho.trans (if_pos ‹_›))
    rw [if_neg ‹_›] at ho
    split
    · exact refuses _ _ (ho.trans (if_pos ‹_›))
    rw [if_neg ‹_›] at ho
    intro why hwhy
    refine refuses _ _ ?_
    rw [ho, hwhy]
    rfl

/-- Settles O16: the checks of R71 one after the other. -/
theorem dispenseChecksInOrder : Obligations.DispenseChecksInOrder := by
  unfold Obligations.DispenseChecksInOrder
  intro w f s hw h o refused faulted
  have kept := reached_keeps .dispense f s h
  have hp : (reached .dispense f s).position = s.position := by simp only [kept]
  have refuses (why : Reason) (res : Results)
      (ho : dispenseOwner f (consumed .dispense f s) (reached .dispense f s) =
        (.reply .refused (some why) res, reached .dispense f s)) : refused why res :=
    refused_of (.dispense f) .dispense f (dispenseOwner f) why res s rfl h ho
  have haud : (reached .dispense f s).auditRequired = s.auditRequired := by simp only [State.auditRequired, hp]
  have ho : dispenseOwner f (consumed .dispense f s) (reached .dispense f s) =
      dispenseAt w f.operands (consumed .dispense f s) (reached .dispense f s) := by
    cases w <;> simp only [dispenseOwner, hw, Teller.port, Port.teller?]
  obtain ⟨o1, o2, o3⟩ := ownershipCheck_of s f.port
  have hdisp : (reached .dispense f s).dispense w = s.dispense w := by simp only [State.dispense, kept]
  have hres (e : Effect) : (reached .dispense f s).restricted e = s.restricted e := by simp only [State.restricted, kept]
  rw [dispenseAt, hdisp, ← hw, reached_opInFlight .dispense f s h, reached_ownershipCheck .dispense f s h] at ho
  by_cases hidle : (s.dispense w).state ≠ .idle ∨ s.opInFlight f.port = true
  · rw [if_pos hidle]; exact refuses _ _ (ho.trans (if_pos hidle))
  rw [if_neg hidle] at ho ⊢
  by_cases hown : s.claim.owner.ownedBy f.port = false
  · rw [if_pos hown]; rw [o1 hown] at ho; exact refuses _ _ ho
  rw [if_neg hown]
  by_cases hbusy : s.otherOpInFlight f.port = true
  · rw [if_pos hbusy]; rw [o2 hown hbusy] at ho; exact refuses _ _ ho
  rw [if_neg hbusy]
  rw [o3 hown hbusy] at ho
  have hpath : (reached .dispense f s).path = s.path := by simp only [kept]
  simp only [State.moduleCheck, hpath] at ho
  by_cases hjam : s.path.state = .jammed
  · rw [if_pos hjam]; rw [hjam] at ho; exact refuses _ _ ho
  rw [if_neg hjam]
  by_cases hpurge : s.path.state = .purging
  · rw [if_pos hpurge]; rw [hpurge] at ho; exact refuses _ _ ho
  rw [if_neg hpurge]
  have hready : s.path.state = .ready := by cases e : s.path.state <;> simp_all
  rw [hready] at ho
  simp only [haud, hres] at ho
  by_cases haudit : s.auditRequired = true
  · rw [if_pos haudit]; exact refuses _ _ (ho.trans (if_pos haudit))
  rw [if_neg haudit] at ho ⊢
  by_cases hhalt : s.restricted .dispenseHalt = true ∨ s.restricted .moduleLock = true
  · rw [if_pos hhalt]; exact refuses _ _ (ho.trans (if_pos hhalt))
  rw [if_neg hhalt] at ho ⊢
  cases ham : o.amount with
  | error p =>
    rw [show (dispenseOperands f.operands).amount = .error p from ham] at ho
    exact refuses _ _ ho
  | ok amount =>
    rw [show (dispenseOperands f.operands).amount = .ok amount from ham] at ho
    simp only [] at ho ⊢
    by_cases hzero : amount = 0
    · rw [if_pos hzero]; exact refuses _ _ (ho.trans (if_pos hzero))
    rw [if_neg hzero] at ho ⊢
    rw [hp] at ho
    by_cases hstale : o.generation.getD s.position.generation ≠ s.position.generation
    · rw [if_pos hstale] at ho ⊢
      obtain ⟨r1, r2⟩ := refuseStale_of (reached .dispense f s)
      have hw : WordsMatch (reached .dispense f s) ↔ WordsMatch s := by rw [WordsMatch, WordsMatch, hp]
      constructor
      · intro hm
        refine refuses _ _ ?_
        rw [ho, r1 (hw.mpr hm), State.staleResults, hp]
      · intro hm
        obtain ⟨y, e, hr⟩ := r2 (mt hw.mp hm)
        obtain ⟨t, e, ha, hk, hu, hx⟩ := refusedFinding_of (.dispense f) .dispense f (dispenseOwner f) _ s y rfl h
          (ho.trans e) hr (mt hw.mp hm)
        exact ⟨t, e, ha, hk.mono (by simp), hu, hx⟩
    · rw [if_neg hstale] at ho ⊢
      exact judgeDispense_settled w f s amount h ho

end Sys2Proof.Machine
end

section
/-! Bookings to accounts at an end, the record that closes an operation, and the end of a commit. -/
namespace Sys2Proof.Machine

/-! ## Bookings that read check words -/

/-- A booking leaves the audit causes and the integrity fault record alone, whatever they hold. -/
def LeavesAudit (f : Position → Position) : Prop :=
  ∀ (p : Position) (c : Causes) (i : Option IntegrityFault),
    f { p with causes := c, integrityFault := i } = { f p with causes := c, integrityFault := i }

/-- A booking f that reads check words, `failed` saying whether one of them failed: the position is what f makes of it, and where a word
failed what R9 says besides. -/
structure Booked (failed : Prop) (f : Position → Position) (s t : State) : Prop where
  rest : t = { s with position := t.position, ports := t.ports }
  lines : t.ports.lines = s.ports.lines
  fine : ¬failed → t = { s with position := f s.position }
  found : failed → WordFailed (f s.position) t.position s t
  again : s.position.causes.any = true → t.ports = s.ports
  tells : Tells [.restriction] s t

theorem WordsRead.booked {failed : Prop} {s t : State} (h : WordsRead failed s t) : Booked failed id s t :=
  ⟨h.rest, h.lines, h.fine, h.found, h.again, h.tells⟩

theorem Booked.congr {a b : Prop} {f : Position → Position} {s t : State} (h : Booked a f s t) (e : a ↔ b) : Booked b f s t :=
  propext e ▸ h

theorem LeavesAudit.causes {f : Position → Position} (h : LeavesAudit f) (p : Position) : (f p).causes = p.causes := by
  have e := h p p.causes p.integrityFault
  rw [show ({ p with causes := p.causes, integrityFault := p.integrityFault } : Position) = p from rfl] at e
  rw [e]

theorem LeavesAudit.fault {f : Position → Position} (h : LeavesAudit f) (p : Position) :
    (f p).integrityFault = p.integrityFault := by
  have e := h p p.causes p.integrityFault
  rw [show ({ p with causes := p.causes, integrityFault := p.integrityFault } : Position) = p from rfl] at e
  rw [e]

/-- A booking that reads no check word. -/
theorem booked_onPosition (f : Position → Position) (s : State) : Booked False f s (s.onPosition f) :=
  ⟨rfl, rfl, fun _ => rfl, False.elim, fun _ => rfl, tells_of_ports _ rfl⟩

/-- Bookings are made one after the other. -/
theorem Booked.trans {a b : Prop} {f g : Position → Position} {s t u : State} (h : Booked a f s t) (k : Booked b g t u)
    (hf : LeavesAudit f) (hg : LeavesAudit g) : Booked (a ∨ b) (fun p => g (f p)) s u := by
  have hrest : u = { s with position := u.position, ports := u.ports } := by rw [k.rest, h.rest]
  have htells := h.tells.trans k.tells
  by_cases ha : a
  · obtain ⟨p1, p2, p3, p4⟩ := h.found ha
    have hc : t.position.causes.any = true := by rw [p1]; exact any_of_integrity _ rfl
    have hports : u.ports = t.ports := k.again hc
    have hclock : t.clock = s.clock := by rw [h.rest]
    have hgp : g t.position = { g (f s.position) with
        causes := { (f s.position).causes with integrity := true }, integrityFault := t.position.integrityFault } := by
      rw [← hg, ← p1]
    refine ⟨hrest, by rw [hports, h.lines], fun hn => absurd (.inl ha) hn, fun _ => ?_, fun hs => hports.trans (h.again hs), htells⟩
    have key : u.position = { g (f s.position) with
          causes := { (f s.position).causes with integrity := true }, integrityFault := u.position.integrityFault } ∧
        (∀ x, t.position.integrityFault = some x → u.position.integrityFault = some x) := by
      by_cases hb : b
      · obtain ⟨q1, q2, -, -⟩ := k.found hb
        refine ⟨?_, fun x hx => q2 x (by rw [hgp]; exact hx)⟩
        rw [q1, hgp]
      · have hu : u.position = g t.position := by rw [k.fine hb]
        exact ⟨by rw [hu, hgp], fun x hx => by rw [hu, hgp]; exact hx⟩
    obtain ⟨key1, key2⟩ := key
    have hcauses : u.position.causes = t.position.causes := by rw [key1, p1]
    refine ⟨?_, fun x hx => key2 x (p2 x ?_), fun hn => ?_, fun hs y hy => ?_⟩
    · rw [key1, hg.causes]
    · rwa [hg.fault] at hx
    · rw [hg.fault] at hn
      obtain ⟨w, hw⟩ := p3 hn
      exact ⟨w, key2 _ hw⟩
    · rw [hg.causes] at hs
      rw [hcauses]
      exact told_of_ports _ _ _ _ (p4 hs y hy) hports
  · have ht := h.fine ha
    have hports : t.ports = s.ports := by rw [ht]
    have hpos : t.position = f s.position := by rw [ht]
    have hclock : t.clock = s.clock := by rw [ht]
    have halarm : t.alarm = s.alarm := by rw [ht]
    refine ⟨hrest, by rw [k.lines, hports], fun hn => ?_, fun hb => ?_, fun hs => ?_, htells⟩
    · rw [k.fine fun hb => hn (.inr hb), ht]
    · have hb := hb.resolve_left ha
      have w := k.found hb
      simp only [WordFailed, hpos, hclock, halarm] at w
      exact w
    · rw [k.again (by rw [hpos, hf.causes]; exact hs), hports]

/-- What a booking leaves, as the end of the step shows it. -/
theorem Booked.audit {failed : Prop} {f : Position → Position} {s t s' t' : State} {ks : List NoticeKind} (h : Booked failed f s t)
    (hc : s'.clock = s.clock) (ha : s'.alarm = s.alarm) (hp : s'.position = s.position)
    (ht : Tells ks t t') (hks : NoticeKind.restriction ∉ ks := by simp) : AuditFollows failed (f s'.position) t.position s' t' := by
  rw [hp]
  refine ⟨fun hn => by rw [h.fine hn], fun hf => ?_⟩
  obtain ⟨h1, h2, h3, h4⟩ := h.found hf
  refine ⟨h1, h2, by rw [hc]; exact h3, fun hq y hy => ?_⟩
  rw [ha]
  exact ht _ _ (h4 hq y hy) (by simpa only [Notice.kind] using hks)

/-- Reading check words changes nothing of the position but the audit. -/
theorem Booked.generation {failed : Prop} {f : Position → Position} {s t : State} (h : Booked failed f s t)
    (hf : ∀ p, (f p).generation = p.generation) : t.position.generation = s.position.generation := by
  by_cases hn : failed
  · rw [(h.found hn).1]; exact hf _
  · rw [h.fine hn]; exact hf _

/-! ## Accounts (R35) -/

theorem Position.setAccount_account (p : Position) (a : AccountId) : p.setAccount a (p.account a) = p := by cases a <;> rfl

/-- An amount booked to an account's balance, where it can be (R35). -/
def Position.bookedBalance (a : AccountId) (v : Int) (p : Position) : Position :=
  if balanceFits (p.account a) v then p.setAccount a { p.account a with balance := (p.account a).balance + v } else p

/-- A remainder booked to an account's coin due, where it can be (R35). -/
def Position.bookedCoinDue (a : AccountId) (n : Nat) (p : Position) : Position :=
  if coinDueFits (p.account a) n then p.setAccount a { p.account a with coinDue := (p.account a).coinDue + n } else p

theorem bookedBalance_leaves (a : AccountId) (v : Int) : LeavesAudit (Position.bookedBalance a v) := by
  intro p c i
  have e : ({ p with causes := c, integrityFault := i } : Position).account a = p.account a := by cases a <;> rfl
  unfold Position.bookedBalance
  rw [e]
  by_cases h : balanceFits (p.account a) v = true
  · simp only [if_pos h]; cases a <;> rfl
  · simp only [if_neg h]

theorem bookedCoinDue_leaves (a : AccountId) (n : Nat) : LeavesAudit (Position.bookedCoinDue a n) := by
  intro p c i
  have e : ({ p with causes := c, integrityFault := i } : Position).account a = p.account a := by cases a <;> rfl
  unfold Position.bookedCoinDue
  rw [e]
  by_cases h : coinDueFits (p.account a) n = true
  · simp only [if_pos h]; cases a <;> rfl
  · simp only [if_neg h]

/-- An amount is booked to a balance, or is answered as missed (R35). -/
theorem bookBalance_booked (a : AccountId) (v : Int) (s : State) :
    (bookBalance a v s).1 = (if balanceFits (s.position.account a) v then 0 else v.natAbs) ∧
      Booked (v ≠ 0 ∧ (s.position.account a).intact = false) (Position.bookedBalance a v) s (bookBalance a v s).2 := by
  by_cases hv : v = 0
  · have hf : balanceFits (s.position.account a) v = true := by simp [balanceFits, hv]
    have e : Position.bookedBalance a v s.position = s.position := by
      rw [Position.bookedBalance, if_pos hf, hv]
      simp only [Int.add_zero]
      exact Position.setAccount_account _ _
    have eb : bookBalance a v s = (0, s) := if_pos hv
    rw [eb, if_pos hf]
    refine ⟨rfl, ⟨rfl, rfl, fun _ => by rw [e], fun h => absurd hv h.1, fun _ => rfl, tells_of_ports _ rfl⟩⟩
  · cases hi : (s.position.account a).intact
    · have hf : balanceFits (s.position.account a) v = false := by simp [balanceFits, hv, hi]
      have r := verifyAccount_read a s
      have e : Position.bookedBalance a v s.position = s.position := by simp [Position.bookedBalance, hf]
      have eb : bookBalance a v s = (v.natAbs, (verifyAccount a s).2) := by simp [bookBalance, hv, hi]
      rw [eb, hf]
      refine ⟨rfl, ?_⟩
      have rb := r.booked
      exact ⟨rb.rest, rb.lines, fun h => absurd ⟨hv, rfl⟩ h, fun _ => by rw [e]; exact r.found hi, rb.again, rb.tells⟩
    · have eb : bookBalance a v s =
          if balanceInRange ((s.position.account a).balance + v) then
            (0, writeAccount a ((s.position.account a).balance + v) (s.position.account a).coinDue s)
          else (v.natAbs, s) := by simp [bookBalance, hv, hi]
      have hf : balanceFits (s.position.account a) v = balanceInRange ((s.position.account a).balance + v) := by
        simp [balanceFits, hv, hi]
      rw [eb, hf]
      split
      · next hr =>
        refine ⟨rfl, ⟨rfl, rfl, fun _ => ?_, fun h => by simp at h, fun _ => rfl, tells_of_ports _ rfl⟩⟩
        simp [writeAccount, State.onPosition, Position.bookedBalance, hf, hr, ← hi]
      · next hr =>
        refine ⟨rfl, ⟨rfl, rfl, fun _ => ?_, fun h => by simp at h, fun _ => rfl, tells_of_ports _ rfl⟩⟩
        simp [Position.bookedBalance, hf, hr]

/-- A remainder is booked to a coin due, or is answered as missed (R35). -/
theorem bookCoinDue_booked (a : AccountId) (n : Nat) (s : State) :
    (bookCoinDue a n s).1 = (if coinDueFits (s.position.account a) n then 0 else n) ∧
      Booked (n ≠ 0 ∧ (s.position.account a).intact = false) (Position.bookedCoinDue a n) s (bookCoinDue a n s).2 := by
  by_cases hn : n = 0
  · have hf : coinDueFits (s.position.account a) n = true := by simp [coinDueFits, hn]
    have e : Position.bookedCoinDue a n s.position = s.position := by
      rw [Position.bookedCoinDue, if_pos hf, hn]
      exact Position.setAccount_account _ _
    have eb : bookCoinDue a n s = (0, s) := if_pos hn
    rw [eb, if_pos hf]
    refine ⟨rfl, ⟨rfl, rfl, fun _ => by rw [e], fun h => absurd hn h.1, fun _ => rfl, tells_of_ports _ rfl⟩⟩
  · cases hi : (s.position.account a).intact
    · have hf : coinDueFits (s.position.account a) n = false := by simp [coinDueFits, hn, hi]
      have r := verifyAccount_read a s
      have e : Position.bookedCoinDue a n s.position = s.position := by simp [Position.bookedCoinDue, hf]
      have eb : bookCoinDue a n s = (n, (verifyAccount a s).2) := by simp [bookCoinDue, hn, hi]
      rw [eb, hf]
      refine ⟨rfl, ?_⟩
      have rb := r.booked
      exact ⟨rb.rest, rb.lines, fun h => absurd ⟨hn, rfl⟩ h, fun _ => by rw [e]; exact r.found hi, rb.again, rb.tells⟩
    · have eb : bookCoinDue a n s =
          if (s.position.account a).coinDue + n ≤ Config.coinDueMax then
            (0, writeAccount a (s.position.account a).balance ((s.position.account a).coinDue + n) s)
          else (n, s) := by simp [bookCoinDue, hn, hi]
      have hf : coinDueFits (s.position.account a) n = decide ((s.position.account a).coinDue + n ≤ Config.coinDueMax) := by
        simp [coinDueFits, hn, hi]
      rw [eb, hf]
      simp only [decide_eq_true_eq]
      split
      · next hr =>
        refine ⟨rfl, ⟨rfl, rfl, fun _ => ?_, fun h => by simp at h, fun _ => rfl, tells_of_ports _ rfl⟩⟩
        simp [writeAccount, State.onPosition, Position.bookedCoinDue, hf, hr, ← hi]
      · next hr =>
        refine ⟨rfl, ⟨rfl, rfl, fun _ => ?_, fun h => by simp at h, fun _ => rfl, tells_of_ports _ rfl⟩⟩
        simp [Position.bookedCoinDue, hf, hr]

end Sys2Proof.Machine
end

section
/-! The record that closes an operation, and the end of a commit. -/
namespace Sys2Proof.Machine

/-! ## The closing record (R91, R105, R109, R114) -/

theorem Staged.of_journal {r : Record} {s s' t t' : State} (h : Staged r s t) (hn : s'.journal.next = s.journal.next)
    (hst : s'.journal.staging = s.journal.staging) (hre : s'.journal.retained = s.journal.retained)
    (hdu : s'.journal.durable = s.journal.durable) (htr : s'.journal.trimPoint = s.journal.trimPoint)
    (hlo : s'.journal.lost = s.journal.lost) (hc : s'.clock = s.clock) (hn' : t'.journal.next = t.journal.next)
    (hst' : t'.journal.staging = t.journal.staging) (hre' : t'.journal.retained = t.journal.retained)
    (hdu' : t'.journal.durable = t.journal.durable) (htr' : t'.journal.trimPoint = t.journal.trimPoint)
    (hlo' : t'.journal.lost = t.journal.lost) : Staged r s' t' := by
  simpa only [Staged, hn, hst, hre, hdu, htr, hlo, hc, hn', hst', hre', hdu', htr', hlo'] using h

/-- What writing the record that closes an operation does, once its account bookings are made: the reservation goes, the record takes the
next number, and the last-applied sequence and the generation follow. -/
structure Closes (d : Draft) (p : Port) (k : OpKind) (changed : Bool) (n : Nat) (s t : State) : Prop where
  position : t.position =
    { s.position with lastApplied := n, generation := if changed then s.position.generation + 1 else s.position.generation }
  reservations : t.journal.reservations = removeFirst (fun r => r.port == p && r.kind == k && !r.jammed) s.journal.reservations
  staged : Staged (d.record n s.clock) s t
  endHold : t.journal.endHold = s.journal.endHold
  waitingDone : t.journal.waitingDone = s.journal.waitingDone
  lines : t.ports.lines = s.ports.lines
  tells : Tells [.journalHigh] s t
  rest : t = { s with position := t.position, journal := t.journal, ports := t.ports }

/-- A state that differs in the position, the journal and the ports alone. -/
theorem rest_of_fields {s t : State} (h1 : t.startUp = s.startUp) (h2 : t.clock = s.clock) (h3 : t.pins = s.pins)
    (h4 : t.settings = s.settings) (h5 : t.claim = s.claim) (h6 : t.path = s.path) (h7 : t.dispenses = s.dispenses)
    (h8 : t.escrow = s.escrow) (h9 : t.depository = s.depository) (h10 : t.alarm = s.alarm) (h11 : t.freeCount = s.freeCount)
    (h12 : t.pending = s.pending) : t = { s with position := t.position, journal := t.journal, ports := t.ports } := by
  cases s; cases t; simp_all

theorem stepGeneration_ports (c : Bool) (s : State) : (stepGeneration c s).ports = s.ports := by
  unfold stepGeneration; split <;> rfl

theorem stepGeneration_position (c : Bool) (s : State) :
    (stepGeneration c s).position =
      { s.position with generation := if c then s.position.generation + 1 else s.position.generation } := by
  unfold stepGeneration; split <;> simp_all [bumpGeneration, State.onPosition]

theorem closes_of (d : Draft) (p : Port) (k : OpKind) (changed : Bool) (n : Nat) (s : State) (h : s.journal.next = some n) :
    (stageApplied d (release p k s)).1 = some n ∧
      Closes d p k changed n s (stepGeneration changed (stageApplied d (release p k s)).2) := by
  obtain ⟨h1, h2, r, hs, hst, hre, heh, hwd, rfl⟩ := stageApplied_recorded d (release p k s) n (by simpa [release_journal] using h)
  have hj : (stepGeneration changed (stageApplied d (release p k s)).2).journal = (stageApplied d (release p k s)).2.journal := by
    simp
  refine ⟨h1, ⟨?_, ?_, ?_, ?_, ?_, ?_, ?_, ?_⟩⟩
  · rw [stepGeneration_position, h2]; simp
  · rw [hj, hre, release_journal]
  · have hst' : Staged (d.record n s.clock) (release p k s) (stageApplied d (release p k s)).2 := by simpa using hst
    exact hst'.of_journal rfl rfl rfl rfl rfl rfl (by simp) (by rw [hj]) (by rw [hj]) (by rw [hj]) (by rw [hj]) (by rw [hj])
      (by rw [hj])
  · rw [hj, heh, release_journal]
  · rw [hj, hwd, release_journal]
  · rw [stepGeneration_ports, stageApplied_lines]; simp
  · exact (tells_of_ports (t := release p k s) _ (by simp)).trans
      ((tells_stageApplied _ _).trans (tells_of_ports _ (stepGeneration_ports _ _)))
  · apply rest_of_fields <;> simp

/-! ## The end of a commit (R113, R114) -/

/-- What a commit's outcome was caused by, none where everything is committed. -/
def CommitOutcome.cause : CommitOutcome → Option CommitCause
  | .committed => none
  | .partial_ c => some c

theorem debitedPosition_leaves (tally : CommitTally) (value : Nat) : LeavesAudit (debitedPosition tally value) := by
  intro p c i
  have e : ({ p with causes := c, integrityFault := i } : Position).account (drawerOf tally.owner) =
      p.account (drawerOf tally.owner) := by cases drawerOf tally.owner <;> rfl
  unfold debitedPosition
  simp only [e]
  by_cases h : tally.purpose = .drawer ∧ balanceFits (p.account (drawerOf tally.owner)) (-(value : Int)) = true
  · simp only [if_pos h]; cases drawerOf tally.owner <;> rfl
  · simp only [if_neg h]

theorem Position.setAccount_generation (p : Position) (a : AccountId) (r : Account) :
    (p.setAccount a r).generation = p.generation := by cases a <;> rfl

theorem debitedPosition_generation (tally : CommitTally) (value : Nat) (p : Position) :
    (debitedPosition tally value p).generation = p.generation := by
  unfold debitedPosition
  simp only []
  split
  · exact Position.setAccount_generation _ _ _
  · rfl

/-- The drawer debit of a commit: applied, or what it misses (R35, R114). -/
theorem debitCommit_booked (s : State) :
    let tally := s.escrow.tally
    let value : Nat := s.value (Quad.add tally.fit tally.unfit)
    let x := s.onEscrow (fun e => { e with tally := CommitTally.zero })
    (debitCommit s).1 = debitMissed tally value s.position ∧
      Booked (DebitWordFails tally value s.position) (debitedPosition tally value) x (debitCommit s).2 := by
  intro tally value x
  cases hp : tally.purpose with
  | customer =>
    have e : debitCommit s = (0, x) := by
      simp only [debitCommit, CommitTally.account, show s.escrow.tally.purpose = .customer from hp, x]
    rw [e]
    refine ⟨by simp [debitMissed, hp], ⟨rfl, rfl, fun _ => ?_, fun h => ?_, fun _ => rfl, tells_of_ports _ rfl⟩⟩
    · simp [debitedPosition, hp]
    · simp [DebitWordFails, hp] at h
  | drawer =>
    have e : debitCommit s = bookBalance (drawerOf tally.owner) (-(value : Int)) x := by
      simp only [debitCommit, CommitTally.account, show s.escrow.tally.purpose = .drawer from hp]
      rfl
    have hx : x.position = s.position := rfl
    obtain ⟨b1, b2⟩ := bookBalance_booked (drawerOf tally.owner) (-(value : Int)) x
    have ef : Position.bookedBalance (drawerOf tally.owner) (-(value : Int)) = debitedPosition tally value := by
      funext p
      simp only [Position.bookedBalance, debitedPosition, hp, true_and, Int.sub_eq_add_neg]
    rw [e]
    rw [ef] at b2
    refine ⟨?_, b2.congr ?_⟩
    · rw [b1, hx]
      simp only [debitMissed, hp, true_and]
      cases balanceFits (s.position.account (drawerOf tally.owner)) (-(value : Int)) <;> simp
    · simp only [DebitWordFails, hp, true_and, hx]
      simp

/-- A commit's end, seen from states that agree with those in which it was made. -/
theorem CommitEnded.transfer {o o' : CommitOp} {tally : CommitTally} {cause : Option CommitCause} {n : Nat} {s t s' t' : State}
    (h : CommitEnded o tally cause n s t) (ho : o'.port = o.port) (hc : s'.clock = s.clock) (ha : s'.alarm = s.alarm) (hset : s'.settings = s.settings)
    (hp : s'.position = s.position) (hj : s'.journal = s.journal)
    (hpath : { s'.path with timers := s'.path.timersBut .escrow } = { s.path with timers := s.path.timersBut .escrow })
    (he : s'.escrow = { s.escrow with op := s'.escrow.op, tally := s'.escrow.tally })
    (te : t'.escrow = t.escrow) (tpath : t'.path = t.path)
    (tp : t'.position = t.position) (tj : t'.journal = t.journal) (ht : Tells [.alarmChange] t t') :
    CommitEnded o' tally cause n s' t' := by
  obtain ⟨h1, h2, ⟨p, ⟨h3, h4⟩, h5⟩, h6, ⟨r, h7⟩, h8⟩ := h
  have hv (q : Quad Nat) : s'.value q = s.value q := by rw [State.value, State.value, hset]
  refine ⟨?_, ?_, ⟨p, ⟨?_, ?_⟩, ?_⟩, ?_, ⟨r, ?_⟩, ?_⟩
  · rw [te, h1, he]
  · rw [tpath, h2, hpath]
  · intro hn; rw [hv, hp] at *; exact h3 hn
  · intro hf
    rw [hv, hp] at *
    obtain ⟨w1, w2, w3, w4⟩ := h4 hf
    exact ⟨w1, w2, by rw [hc]; exact w3, fun hq y hy => by
      rw [ha]; exact ht _ _ (w4 hq y hy) (by simp [Notice.kind])⟩
  · rw [tp, h5, hp]
  · rw [tj, h6, hj, ho]
  · simpa only [Staged, hv, hp, hj, hc, tj, ho] using h7
  · rw [he]
    simpa only [hv, hp, hj, tj, ho] using h8

/-- The end of a commit that the journal has room for. -/
structure CommitEnds (o : CommitOp) (cause : Option CommitCause) (n : Nat) (s t : State) : Prop where
  ended : CommitEnded o s.escrow.tally cause n s t
  kept : KeptBut [.escrow, .path, .position, .journal, .ports] s t
  lines : t.ports.lines = s.ports.lines
  tells : Tells [.restriction, .journalHigh] s t
  again : s.position.causes.any = true → Tells [.journalHigh] s t

theorem CommitOutcome.cause_eq_none_iff (outcome : CommitOutcome) : outcome.cause = none ↔ outcome = .committed := by
  cases outcome <;> simp [CommitOutcome.cause]

theorem CommitOutcome.number (outcome : CommitOutcome) :
    (match outcome with | .committed => 0 | .partial_ c => c.code) = commitCauseNumber outcome.cause := by
  cases outcome with
  | committed => rfl
  | partial_ c => cases c <;> rfl

theorem CommitOutcome.code_eq (outcome : CommitOutcome) :
    (match outcome with | .committed => 1 | .partial_ _ => 2) = if outcome.cause = none then 1 else 2 := by
  cases outcome <;> simp [CommitOutcome.cause]

/-- The COMMIT record's draft (R114). -/
def commitDraft (o : CommitOp) (outcome : CommitOutcome) (tally : CommitTally) (value unbooked : Nat) : Draft :=
  { kind := .commit, port := some o.port, outcome := match outcome with | .committed => 1 | .partial_ _ => 2
    marks := { unbooked := 0 < unbooked }, counts := tally.perCassette.toInt, amount := value
    detail :=
      .deposit
        { DepositDetail.zero with
          fit := tally.fit, unfit := tally.unfit, purpose := some tally.purpose
          account := if value = 0 ∨ 0 < unbooked then none else tally.account
          cause := match outcome with | .committed => 0 | .partial_ c => c.code
          unbooked := unbooked } }

/-- A commit's OP_DONE (R114). -/
def commitDone (outcome : CommitOutcome) (tally : CommitTally) (value unbooked : Nat) (stack : List Bundle) : OpDone :=
  { OpDone.zero .commit with
    outcome := match outcome with | .committed => 1 | .partial_ _ => 2
    marks := { unbooked := 0 < unbooked }, counts := tally.perCassette, value := value, unbooked := unbooked
    cause := match outcome with | .committed => 0 | .partial_ c => c.code
    remaining := stack }

/-- The end of a commit, step by step. -/
theorem finishCommit_eq (o : CommitOp) (outcome : CommitOutcome) (s : State) :
    let tally := s.escrow.tally
    let value := s.value tally.notes
    let x := stageApplied (commitDraft o outcome tally value (debitCommit s).1) (release o.port .commit (debitCommit s).2)
    let y := (stepGeneration (0 < tally.perCassette.total) x.2).onEscrow (fun e =>
      { e with
        verdict := .none
        declared := match outcome with | .committed => none | .partial_ _ => e.declared
        op := none })
    finishCommit o outcome s = awaitDurable o.port x.1 (commitDone outcome tally value (debitCommit s).1 y.escrow.stack) y := rfl

theorem timersBut_eq (o : MoveOwner) (q : NotePath) :
    q.timers.filter (fun n => n.owner != o || n.checked) = q.timersBut o := by
  unfold NotePath.timersBut
  congr 1
  funext n
  cases n.checked <;> simp [bne, decide_not, beq_eq_decide]

theorem stopTimers_path (o : MoveOwner) (s : State) : (stopTimers o s).path = { s.path with timers := s.path.timersBut o } := by
  unfold stopTimers
  simp only [State.onPath, timersBut_eq]

/-- The account that a COMMIT record names (R114). -/
theorem commitDetail_account (tally : CommitTally) (value unbooked : Nat) :
    (if value = 0 ∨ 0 < unbooked then none else tally.account) =
      if tally.purpose = .drawer ∧ value ≠ 0 ∧ unbooked = 0 then some (drawerOf tally.owner) else none := by
  unfold CommitTally.account
  cases tally.purpose
  · simp
  · by_cases h : value = 0 ∨ 0 < unbooked
    · rw [if_pos h, if_neg]; rintro ⟨-, h1, h2⟩; omega
    · rw [if_neg h, if_pos ⟨rfl, by omega, by omega⟩]

/-- The end of a commit, made at once: everything R114 says of it. -/
theorem endCommit_ends (o : CommitOp) (outcome : CommitOutcome) (n : Nat) (s : State) (h : EndRoom n s) :
    CommitEnds o outcome.cause n s (endCommit o outcome s) := by
  obtain ⟨hhold, hfree, hnext⟩ := h
  have hx : endCommit o outcome s = finishCommit { o with moving := false, ended := some outcome } outcome
      (stopTimers .escrow (s.onEscrow (fun e => { e with op := some (.commit { o with moving := false, ended := some outcome }) }))) := by
    unfold endCommit
    rw [holdOrFinish_now _ _ (by simpa using hhold) (by simpa using hfree)]
    simp [finishEnd]
  rw [hx, finishCommit_eq]
  generalize ho : ({ o with moving := false, ended := some outcome } : CommitOp) = o'
  have hport : o'.port = o.port := by rw [← ho]
  generalize hy : stopTimers .escrow (s.onEscrow (fun e => { e with op := some (.commit o') })) = x
  have xp : x.position = s.position := by rw [← hy]; simp
  have xj : x.journal = s.journal := by rw [← hy]; simp
  have xc : x.clock = s.clock := by rw [← hy]; simp
  have xa : x.alarm = s.alarm := by rw [← hy]; simp
  have xs : x.settings = s.settings := by rw [← hy]; simp
  have xports : x.ports = s.ports := by rw [← hy]; simp
  have xe : x.escrow = { s.escrow with op := some (.commit o') } := by rw [← hy]; simp
  have xpath : x.path = { s.path with timers := s.path.timersBut .escrow } := by rw [← hy, stopTimers_path]; rfl
  have xtally : x.escrow.tally = s.escrow.tally := by rw [xe]
  have xv (q : Quad Nat) : x.value q = s.value q := by rw [State.value, State.value, xs]
  obtain ⟨b1, b2⟩ := debitCommit_booked x
  have bj : (debitCommit x).2.journal = s.journal := by rw [← xj, b2.rest]; rfl
  have bc : (debitCommit x).2.clock = s.clock := by rw [← xc, b2.rest]; rfl
  simp only [xtally, xv, xp] at b1 b2
  simp only [xtally, xv]
  rw [show s.escrow.tally.notes = Quad.add s.escrow.tally.fit s.escrow.tally.unfit from rfl, b1]
  generalize hval : s.value (Quad.add s.escrow.tally.fit s.escrow.tally.unfit) = value at b1 b2 ⊢
  generalize hmiss : debitMissed s.escrow.tally value s.position = missed
  obtain ⟨c1, c2⟩ := closes_of (commitDraft o' outcome s.escrow.tally value missed) o'.port .commit
    (0 < s.escrow.tally.perCassette.total) n (debitCommit x).2 (by rw [bj, hnext])
  rw [c1]
  generalize stepGeneration _ _ = z at c2 ⊢
  have zrest : z = { x with
      escrow := { x.escrow with tally := CommitTally.zero }, position := z.position, journal := z.journal, ports := z.ports } := by
    rw [c2.rest, b2.rest]; rfl
  have ze : z.escrow = { x.escrow with tally := CommitTally.zero } := by rw [zrest]
  have zpath : z.path = x.path := by rw [zrest]
  have zalarm : z.alarm = s.alarm := by rw [zrest]; exact xa
  have zwait : z.journal.waitingDone = s.journal.waitingDone := by rw [c2.waitingDone, bj]
  have hd : outcome.cause = none ↔ outcome = .committed := outcome.cause_eq_none_iff
  refine ⟨⟨?_, ?_, ⟨(debitCommit x).2.position, ?_, ?_⟩, ?_,
    ⟨_, c2.staged.of_journal (by rw [bj]) (by rw [bj]) (by rw [bj]) (by rw [bj]) (by rw [bj]) (by rw [bj]) bc.symm rfl rfl rfl rfl rfl rfl,
      rfl, ?_, ?_, rfl, ?_, ?_, ?_⟩, ⟨{ commitDone outcome s.escrow.tally value missed s.escrow.stack with closing := n }, ?_⟩⟩, ?_, ?_, ?_, ?_⟩
  · simp only [awaitDurable_keeps, State.onEscrow, ze, xe]
    cases outcome <;> simp [CommitOutcome.cause]
  · simp only [awaitDurable_keeps, State.onEscrow, zpath, xpath]
  · simp only [hval]
    exact b2.audit (ks := [.journalHigh]) (by rw [← xc]; rfl) xa.symm xp.symm
      ((c2.tells.mono (by simp)).trans (tells_of_ports _ (by simp)))
  · simp only [awaitDurable_keeps, State.onEscrow_keeps, c2.position,
      b2.generation (debitedPosition_generation s.escrow.tally value)]
    simp [xp]
  · simp only [awaitDurable_journal, State.onEscrow_keeps, c2.reservations, bj, hport]
  · simp [commitDraft, Draft.record, hport]
  · simp only [commitDraft, Draft.record]; exact outcome.code_eq
  · simp only [commitDraft, Draft.record, hval]
  · simp only [commitDraft, Draft.record, hval, hmiss]
  · simp only [commitDraft, Draft.record, hval, hmiss, DepositDetail.zero, commitDetail_account, outcome.number]
  · simp only [hval, hmiss]
    refine ⟨?_, rfl, trivial, outcome.code_eq, rfl, rfl, rfl, rfl, outcome.number, rfl⟩
    simp only [awaitDurable_journal, zwait, hport, State.onEscrow, ze, xe]
  · intro b hb
    cases b
    case escrow | path | position | journal | ports => simp at hb
    all_goals simp only [Kept, awaitDurable_keeps, State.onEscrow_keeps]; rw [zrest, ← hy]; simp
  · simp only [awaitDurable_keeps, State.onEscrow_keeps, c2.lines, b2.lines, xports]
  · exact (((tells_of_ports (t := x) _ xports).trans (b2.tells.mono (by simp))).trans (c2.tells.mono (by simp))).trans
      (tells_of_ports _ (by simp))
  · intro hs
    have hq : (debitCommit x).2.ports = s.ports := by rw [b2.again (by rw [← xp] at hs; exact hs)]; exact xports
    exact ((tells_of_ports _ hq).trans c2.tells).trans (tells_of_ports _ (by simp))

end Sys2Proof.Machine
end

section
/-! INSERT, RETURN_LAST, RETURN_ALL and COMMIT: their checks, and the operations begun. -/
namespace Sys2Proof.Machine

/-! ## The shared checks (R48, R57, R96) -/

theorem ownEscrow_eq (p : Port) (s : State) (k : Answer × State) :
    ownEscrow p s k = match s.openRefusal p with | some why => refuse why s | none => k := by
  have hopen : s.escrowOpenFor p = OpenTo p s := by
    unfold State.escrowOpenFor OpenTo
    cases p <;> rfl
  unfold ownEscrow ownModule State.openRefusal State.ownRefusal State.ownershipCheck
  rw [hopen]
  cases s.opInFlight p
  · cases s.claim.owner.ownedBy p
    · simp
    · cases s.otherOpInFlight p <;> cases OpenTo p s <;> simp
  · simp

theorem moduleReady_eq (s : State) (k : Answer × State) :
    moduleReady s k = match s.stateRefusal with | some why => refuse why s | none => k := by
  unfold moduleReady State.moduleCheck State.stateRefusal
  cases s.path.state <;> rfl

theorem reached_openRefusal (r : Request) (f : Frame) (s : State) (h : Taken r f s) (p : Port) :
    (reached r f s).openRefusal p = s.openRefusal p := by
  have k := reached_keeps r f s h
  have ho : (reached r f s).otherOpInFlight p = s.otherOpInFlight p := by
    simp only [State.otherOpInFlight, reached_opInFlight r f s h]
  have hopen : OpenTo p (reached r f s) = OpenTo p s := by simp only [OpenTo, k]
  rw [State.openRefusal, State.openRefusal, State.ownRefusal, State.ownRefusal, reached_opInFlight r f s h, ho, hopen,
    k.2.2.2.2.2.1]

theorem reached_stateRefusal (r : Request) (f : Frame) (s : State) (h : Taken r f s) :
    (reached r f s).stateRefusal = s.stateRefusal := by
  simp only [State.stateRefusal, reached_keeps r f s h]

/-- With no refusal, no module operation is in flight, and so nothing waits for one to end. -/
theorem idle_of_openRefusal (s : State) (p : Port) (h : s.openRefusal p = none) : ∀ q : Port, s.opInFlight q = false := by
  unfold State.openRefusal State.ownRefusal at h
  cases h1 : s.opInFlight p
  · cases h2 : s.claim.owner.ownedBy p
    · simp [h1, h2] at h
    · cases h3 : s.otherOpInFlight p
      · intro q
        by_cases e : q = p
        · rw [e, h1]
        · simp only [State.otherOpInFlight, List.any_eq_false] at h3
          have := h3 q (by cases q <;> decide)
          simpa [e] using this
      · simp [h1, h2, h3] at h
  · simp [h1] at h

theorem quiet_of_idle (s t : State) (h : Quiet s) (hi : ∀ q : Port, s.opInFlight q = false) (hd : t.dispenses = s.dispenses)
    (hs : t.path.state = s.path.state) (hw : t.path.draw = s.path.draw) : Quiet t := by
  intro w
  obtain ⟨h1, h2⟩ := h w
  have hdw : t.dispense w = s.dispense w := by rw [State.dispense, State.dispense, hd]
  refine ⟨?_, ?_⟩
  · rintro ⟨a1, a2, -⟩
    rw [hdw] at a1 a2
    exact h1 ⟨a1, a2, hi _⟩
  · intro hr
    rw [hs]
    refine h2 ?_
    simpa only [State.retractWaits, hdw, hw] using hr

/-- An operation of the escrow begins: its reservation, and its record. -/
def beginEscrow (p : Port) (k : OpKind) (g : Escrow → Escrow) (s : State) : State := (reserve p k 0 s).onEscrow g

/-- A request without an approval class accepted with the operation begun. -/
theorem begins_of (c : Instr) (r : Request) (f : Frame) (own : State → Answer × State) (k : OpKind) (g : Escrow → Escrow)
    (s : State) (he : exec c s = done (takeConsuming r f (fun _ => own) s)) (h : Taken r f s) (hc : Request.consumes r = none)
    (hopen : s.openRefusal f.port = none)
    (ho : own (reached r f s) = withRoom 1 0 (reached r f s) (accepted .none (beginEscrow f.port k g (reached r f s)))) :
    (∀ why : Reason, s.journal.roomCheck 1 0 = some why → Refuses c r f why s.journal.roomFigures s) ∧
    (RoomFor 1 0 s →
      Replies c r f .accepted .none [.escrow, .journal] s (fun t =>
        t.journal =
            { s.journal with
              reservations := s.journal.reservations ++ [{ port := f.port, kind := k, startSequence := 0, jammed := false }] } ∧
          t.escrow = g s.escrow)) := by
  have kept := reached_keeps r f s h
  have hj : (reached r f s).journal = s.journal := by simp only [kept]
  have hesc : (reached r f s).escrow = s.escrow := by simp only [kept]
  constructor
  · intro why hwhy
    refine refuses_of _ _ f (fun _ => own) why _ s he h hc ?_
    simp only [ho, withRoom, hj, hwhy, refuseWith, Journal.roomFigures]
  · intro hroom
    have hi := idle_of_openRefusal s f.port hopen
    refine replies_with _ _ f (fun _ => own) _ _ _ s (beginEscrow f.port k g (reached r f s)) _ he h ?_ ?_
      (by simpa [beginEscrow] using reached_ready r f s h) (by simp [beginEscrow]) ?_ fun t hk _ => ⟨?_, ?_⟩
    · rw [ho, withRoom, hj, show s.journal.roomCheck 1 0 = none from hroom, accepted]
    · exact quiet_of_idle s _ h.2.2.2.2.1 hi (by simp [beginEscrow, kept]) (by simp [beginEscrow, kept]) (by simp [beginEscrow, kept])
    · refine ((reached_kept r f s h hc).mono (by simp)).trans fun b hb => ?_
      cases b
      case escrow | journal => simp at hb
      all_goals simp [Kept, beginEscrow]
    · rw [show t.journal = _ from hk .journal (by simp)]
      simp only [beginEscrow, State.onEscrow_keeps, reserve_journal, hj]
    · rw [show t.escrow = _ from hk .escrow (by simp)]
      simp [beginEscrow, State.onEscrow, hesc]

/-! ## INSERT (R100) -/

theorem insert_settled (w : Teller) (f : Frame) (s : State) (hw : f.port = w.port) (h : Taken .insertNotes f s) :
    match s.openRefusal f.port, s.stateRefusal with
    | some why, _ => Refuses (.insertNotes f) .insertNotes f why .none s
    | none, some why => Refuses (.insertNotes f) .insertNotes f why .none s
    | none, none =>
      if s.auditRequired then Refuses (.insertNotes f) .insertNotes f .audit .none s
      else if s.restricted .moduleLock then Refuses (.insertNotes f) .insertNotes f .halted .none s
      else if 8 ≤ s.escrow.stack.length ∨ 200 ≤ (stackNotes s.escrow.stack).total then
        Refuses (.insertNotes f) .insertNotes f .escrowFull .none s
      else if s.position.marginsExceeded then Refuses (.insertNotes f) .insertNotes f .range .none s
      else
        (∀ why : Reason, s.journal.roomCheck 1 0 = some why →
          Refuses (.insertNotes f) .insertNotes f why s.journal.roomFigures s) ∧
        (RoomFor 1 0 s →
          Replies (.insertNotes f) .insertNotes f .accepted .none [.escrow, .journal] s (fun t =>
            t.journal =
                { s.journal with reservations := s.journal.reservations ++ [{ port := f.port, kind := .insert, startSequence := 0, jammed := false }] } ∧
              t.escrow =
                { s.escrow with
                  stack := ⟨Quad.zero, Quad.zero, 0, 0, false, false⟩ :: s.escrow.stack
                  op := some (.insert ⟨w, .none, 0, false, false, none⟩) })) := by
  have kept := reached_keeps .insertNotes f s h
  have hp : (reached .insertNotes f s).position = s.position := by simp only [kept]
  have hesc : (reached .insertNotes f s).escrow = s.escrow := by simp only [kept]
  have haud : (reached .insertNotes f s).auditRequired = s.auditRequired := by simp only [State.auditRequired, hp]
  have hres (e : Effect) : (reached .insertNotes f s).restricted e = s.restricted e := by simp only [State.restricted, kept]
  have refuses (why : Reason) (res : Results)
      (ho : insertOwner f (reached .insertNotes f s) = (.reply .refused (some why) res, reached .insertNotes f s)) :
      Refuses (.insertNotes f) .insertNotes f why res s :=
    refuses_of (.insertNotes f) .insertNotes f (fun _ => insertOwner f) why res s rfl h rfl ho
  have ho : insertOwner f (reached .insertNotes f s) = insertAt w (reached .insertNotes f s) := by
    cases w <;> simp only [insertOwner, hw, Teller.port, Port.teller?]
  rw [insertAt, ownEscrow_eq, moduleReady_eq, ← hw, reached_openRefusal .insertNotes f s h,
    reached_stateRefusal .insertNotes f s h, hesc, haud, hres, withMargins, hp] at ho
  cases hopen : s.openRefusal f.port with
  | some why => rw [hopen] at ho; exact refuses _ _ ho
  | none =>
    cases hstate : s.stateRefusal with
    | some why => rw [hopen, hstate] at ho; exact refuses _ _ ho
    | none =>
      rw [hopen, hstate] at ho
      simp only [] at ho ⊢
      by_cases c1 : s.auditRequired = true
      · rw [if_pos c1]; exact refuses _ _ (ho.trans (if_pos c1))
      rw [if_neg c1] at ho ⊢
      by_cases c2 : s.restricted .moduleLock = true
      · rw [if_pos c2]; exact refuses _ _ (ho.trans (if_pos c2))
      rw [if_neg c2] at ho ⊢
      by_cases c3 : 8 ≤ s.escrow.stack.length ∨ 200 ≤ (stackNotes s.escrow.stack).total
      · rw [if_pos c3]; exact refuses _ _ (ho.trans (if_pos c3))
      rw [if_neg c3]
      rw [show (if Config.escrowBundles ≤ s.escrow.stack.length ∨ Config.escrowNotes ≤ s.escrow.notes then _ else _) = _ from
        if_neg c3] at ho
      by_cases c4 : s.position.marginsExceeded = true
      · rw [if_pos c4]; exact refuses _ _ (ho.trans (if_pos c4))
      rw [if_neg c4] at ho ⊢
      have hbegin : acceptInsert w (reached .insertNotes f s) =
          accepted .none (beginEscrow f.port .insert (fun e =>
            { e with
              stack := Bundle.fresh :: e.stack
              op := some (.insert ⟨w, .none, 0, false, false, none⟩) }) (reached .insertNotes f s)) := by
        rw [hw]; rfl
      exact begins_of (.insertNotes f) .insertNotes f (insertOwner f) .insert _ s rfl h rfl hopen (by rw [ho, hbegin])

/-! ## RETURN_LAST and RETURN_ALL (R107, R108) -/

theorem return_settled (every : Bool) (f : Frame) (s : State) :
    let c : Instr := if every then .returnAll f else .returnLast f
    let r : Request := if every then .returnAll else .returnLast
    Taken r f s →
    match s.openRefusal f.port, s.stateRefusal with
    | some why, _ => Refuses c r f why .none s
    | none, some why => Refuses c r f why .none s
    | none, none =>
      if s.restricted .moduleLock then Refuses c r f .halted .none s
      else if s.escrow.stack = [] then Refuses c r f .escrowEmpty .none s
      else
        (∀ why : Reason, s.journal.roomCheck 1 0 = some why → Refuses c r f why s.journal.roomFigures s) ∧
        (RoomFor 1 0 s →
          Replies c r f .accepted .none [.escrow, .journal] s (fun t =>
            t.journal =
                { s.journal with reservations := s.journal.reservations ++ [{ port := f.port, kind := .return_, startSequence := 0, jammed := false }] } ∧
              t.escrow =
                { s.escrow with
                  verdict := .none
                  op :=
                    some (.give
                      { port := f.port, window := s.escrow.owner, underHold := s.claim.owner == .hold, every := every,
                        moving := true, note := none, given := Quad.zero, bundlesOut := 0,
                        fields := ⟨0, 0, false, false⟩, first := s.escrow.stack.length, locked := false, ended := none }) })) := by
  intro c r h
  have he : exec c s = done (takeConsuming r f (fun _ => returnOwner f.port every) s) := by cases every <;> rfl
  have hc : Request.consumes r = none := by cases every <;> rfl
  have kept := reached_keeps r f s h
  have hesc : (reached r f s).escrow = s.escrow := by simp only [kept]
  have hown : (reached r f s).claim.owner = s.claim.owner := by simp only [kept]
  have hres (e : Effect) : (reached r f s).restricted e = s.restricted e := by simp only [State.restricted, kept]
  have refuses (why : Reason) (res : Results)
      (ho : returnOwner f.port every (reached r f s) = (.reply .refused (some why) res, reached r f s)) :
      Refuses c r f why res s := refuses_of c r f (fun _ => returnOwner f.port every) why res s he h hc ho
  have ho : returnOwner f.port every (reached r f s) = returnOwner f.port every (reached r f s) := rfl
  conv_rhs at ho => rw [returnOwner, ownEscrow_eq, moduleReady_eq, reached_openRefusal r f s h, reached_stateRefusal r f s h, hesc, hres]
  cases hopen : s.openRefusal f.port with
  | some why => rw [hopen] at ho; exact refuses _ _ ho
  | none =>
    cases hstate : s.stateRefusal with
    | some why => rw [hopen, hstate] at ho; exact refuses _ _ ho
    | none =>
      rw [hopen, hstate] at ho
      simp only [] at ho ⊢
      by_cases c2 : s.restricted .moduleLock = true
      · rw [if_pos c2]; exact refuses _ _ (ho.trans (if_pos c2))
      rw [if_neg c2] at ho ⊢
      by_cases c3 : s.escrow.stack = []
      · rw [if_pos c3]; exact refuses _ _ (ho.trans (if_pos c3))
      rw [if_neg c3] at ho ⊢
      simp only [acceptReturn, reserve_keeps, hown] at ho
      exact begins_of c r f (returnOwner f.port every) .return_ _ s he h hc hopen ho

/-! ## The choice of a destination (R112, R113) -/

theorem chooseNext_of_empty (o : CommitOp) (s : State) (h : s.escrow.stack = []) : chooseNext o s = endCommit o .committed s := by
  simp [chooseNext, Escrow.bottom, h]

theorem chooseNext_of_locked (o : CommitOp) (s : State) (b : Bundle) (h : s.escrow.stack.getLast? = some b)
    (hl : s.restricted .moduleLock = true) : chooseNext o s = endCommit o (.partial_ .lock) s := by
  simp [chooseNext, Escrow.bottom, h, hl]

/-- A check word fails at the choice (R9, R113). -/
theorem chooseNext_of_failed (o : CommitOp) (s : State) (b : Bundle) (h : s.escrow.stack.getLast? = some b)
    (hl : s.restricted .moduleLock = false) (hw : ¬WordsMatch s) :
    chooseNext o s = endCommit o (.partial_ .audit) (verifyCassettes s).2 := by
  have hfalse : (verifyCassettes s).1 = false := Bool.eq_false_iff.mpr (mt (verifyCassettes_read s).1.mp hw)
  simp [chooseNext, Escrow.bottom, h, hl, hfalse]

/-- Every check word matches: the mark of an earlier failure stops the commit (R113). -/
theorem chooseNext_of_stopped (o : CommitOp) (s : State) (b : Bundle) (h : s.escrow.stack.getLast? = some b)
    (hl : s.restricted .moduleLock = false) (hw : WordsMatch s) (ho : o.auditStop = true) :
    chooseNext o s = endCommit o (.partial_ .audit) s := by
  simp only [chooseNext, Escrow.bottom, h, hl, Bool.false_eq_true, if_false]
  rw [verifyCassettes_intact s hw]
  simp only [ho, or_true, if_true]

/-- No cassette takes the next note (R112, R113). -/
theorem chooseNext_of_noDestination (o : CommitOp) (s : State) (b : Bundle) (d : Ix) (fit : Bool)
    (h : s.escrow.stack.getLast? = some b) (hl : s.restricted .moduleLock = false) (hw : WordsMatch s) (ho : o.auditStop = false)
    (hn : b.next s.settings.denominations = some (d, fit)) (hd : s.destination d fit = none) :
    chooseNext o s = endCommit o (.partial_ .noDestination) s := by
  simp only [chooseNext, Escrow.bottom, h, hl, Bool.false_eq_true, if_false]
  rw [verifyCassettes_intact s hw]
  simp only [Bool.not_true, Bool.false_eq_true, false_or, hn, ho, hd, if_false]

/-- The commit goes on with the destination of the next note (R112). -/
theorem chooseNext_of_destination (o : CommitOp) (s : State) (b : Bundle) (d k : Ix) (fit : Bool)
    (h : s.escrow.stack.getLast? = some b) (hl : s.restricted .moduleLock = false) (hw : WordsMatch s) (ho : o.auditStop = false)
    (hn : b.next s.settings.denominations = some (d, fit)) (hd : s.destination d fit = some k) :
    chooseNext o s = setCommit { o with chosen := some k, moving := true, lost := false } s := by
  simp only [chooseNext, Escrow.bottom, h, hl, Bool.false_eq_true, if_false]
  rw [verifyCassettes_intact s hw]
  simp only [Bool.not_true, Bool.false_eq_true, false_or, hn, ho, hd, if_false]

/-! ## COMMIT (R111) -/

/-- Checks 10 to 12 of COMMIT: for purpose DRAWER the drawer's word and range, then the margins and the journal's room. -/
theorem judgeCommit_spec (p : Port) (used : Bool) (s : State) :
    let a := drawerOf s.escrow.owner
    (s.escrow.purpose = .drawer ∧ (s.position.account a).intact = false →
      judgeCommit p used s = (.reply .refused (some .audit) .none, (verifyAccount a s).2)) ∧
    (¬(s.escrow.purpose = .drawer ∧ (s.position.account a).intact = false) →
      judgeCommit p used s =
        if s.escrow.purpose = .drawer ∧ (s.position.account a).balance - s.escrowTotal < -Config.balanceMax then refuse .range s
        else withMargins 1 0 s (acceptCommit p used s)) := by
  intro a
  unfold judgeCommit
  cases s.escrow.purpose with
  | customer => simp
  | drawer =>
    constructor
    · rintro ⟨-, hi⟩
      simp [a, hi, refuse]
    · intro hn
      have hi : (s.position.account (drawerOf s.escrow.owner)).intact = true := by simpa using hn
      simp only []
      rw [verifyAccount_intact _ _ hi]
      simp [a]

/-- What a commit accepted begins with (R111). -/
def CommitOp.begun (p : Port) (underHold : Bool) (chosen : Option Ix) : CommitOp :=
  { port := p, underHold := underHold, chosen := chosen, note := none, moving := true, reduced := false, lost := false
    auditStop := false, ended := none }

/-- A COMMIT accepted is a reservation, a tally at zero, and the first choice (R111, R112). -/
theorem acceptCommit_eq (p : Port) (used : Bool) (s : State) :
    acceptCommit p used s =
      accepted (.commitAccepted s.escrowTotal used)
        (chooseNext (CommitOp.begun p (s.claim.owner == .hold) none)
          (beginEscrow p .commit (fun e =>
            { e with
              tally := ⟨Quad.zero, Quad.zero, Quad.zero, e.purpose, e.owner⟩
              op := some (.commit (CommitOp.begun p (s.claim.owner == .hold) none)) }) s)) := rfl

/-- A COMMIT that the room check lets pass: it begins with its first note's destination, or ends at once without one (R111 to R114). -/
theorem commit_begins (f : Frame) (s : State) (b : Bundle) (d : Ix) (fit : Bool) (h : Taken .commit f s)
    (hopen : s.openRefusal f.port = none) (hl : s.restricted .moduleLock = false) (hw : WordsMatch s)
    (hb : s.escrow.stack.getLast? = some b) (hn : b.next s.settings.denominations = some (d, fit))
    (ho : commitOwner f (consumed .commit f s) (reached .commit f s) =
      acceptCommit f.port (consumed .commit f s) (reached .commit f s)) :
    let total := s.value (stackNotes s.escrow.stack)
    let journal : Journal :=
      { s.journal with
        reservations :=
          s.journal.reservations ++ [{ port := f.port, kind := .commit, startSequence := 0, jammed := false }] }
    let escrow : Escrow :=
      { s.escrow with tally := ⟨Quad.zero, Quad.zero, Quad.zero, s.escrow.purpose, s.escrow.owner⟩ }
    let begun := CommitOp.begun f.port (s.claim.owner == .hold)
    let accepts := Replies (.commit f) .commit f .accepted (.commitAccepted total (Approved .commit f s))
    (∀ k : Ix, s.destination d fit = some k →
      accepts [.escrow, .journal, .ports] s (fun t =>
        ApprovalUsed .commit f s t ∧ t.journal = journal ∧
          t.escrow = { escrow with op := some (.commit (begun (some k))) })) ∧
    ∀ n : Nat, s.destination d fit = none → EndRoom n s →
      accepts [.escrow, .path, .position, .journal, .ports] s (fun t =>
        ApprovalUsed .commit f s t ∧
          CommitEnded (begun none) escrow.tally (some .noDestination) n { s with journal := journal, escrow := escrow } t) := by
  intro total journal escrow begun accepts
  have kept := reached_keeps .commit f s h
  have hi := idle_of_openRefusal s f.port hopen
  have hown : (reached .commit f s).claim.owner = s.claim.owner := by simp only [kept]
  have htotal : (reached .commit f s).escrowTotal = total := by simp only [State.escrowTotal, State.value, kept]; rfl
  rw [acceptCommit_eq, htotal, hown, consumed_eq_approved] at ho
  generalize hy : beginEscrow f.port .commit _ (reached .commit f s) = y at ho
  have ystart : y.startUp = s.startUp := by rw [← hy]; simp [beginEscrow, kept]
  have ypos : y.position = s.position := by rw [← hy]; simp [beginEscrow, kept]
  have yset : y.settings = s.settings := by rw [← hy]; simp [beginEscrow, kept]
  have yalarm : y.alarm = s.alarm := by rw [← hy]; simp [beginEscrow, kept]
  have yclock : y.clock = s.clock := by rw [← hy]; simp [beginEscrow, kept]
  have ypath : y.path = s.path := by rw [← hy]; simp [beginEscrow, kept]
  have ydisp : y.dispenses = s.dispenses := by rw [← hy]; simp [beginEscrow, kept]
  have yjournal : y.journal = journal := by
    rw [← hy]; simp only [beginEscrow, State.onEscrow_keeps, reserve_journal, kept]; rfl
  have yescrow : y.escrow = { escrow with op := some (.commit (begun none)) } := by
    rw [← hy]; simp [beginEscrow, State.onEscrow, kept, escrow, begun]
  have ylines : y.ports.lines = (reached .commit f s).ports.lines := by rw [← hy]; simp [beginEscrow]
  have ykept : KeptBut [.escrow, .journal, .ports] s y := by
    refine ((reached_keptBut .commit f s h).mono (by simp)).trans fun c hc => ?_
    rw [← hy]
    cases c
    case escrow | journal | ports => simp at hc
    all_goals simp [Kept, beginEscrow]
  have hdest : y.destination d fit = s.destination d fit := by simp only [State.destination, ypos]
  have ylast : y.escrow.stack.getLast? = some b := by rw [yescrow]; exact hb
  have ylock : y.restricted .moduleLock = false := by simpa only [State.restricted, yalarm] using hl
  have ymatch : WordsMatch y := by simpa only [WordsMatch, ypos] using hw
  have ynext : b.next y.settings.denominations = some (d, fit) := by rw [yset]; exact hn
  constructor
  · intro k hk
    rw [chooseNext_of_destination _ y b d k fit ylast ylock ymatch rfl ynext (hdest.trans hk)] at ho
    refine replies_with (.commit f) .commit f (commitOwner f) _ _ _ s _ _ rfl h ho ?_
      (by simpa [setCommit, ystart] using h.1) (by simp [setCommit, ylines]) ?_ fun t hkept _ => ⟨?_, ?_, ?_⟩
    · exact quiet_of_idle s _ h.2.2.2.2.1 hi (by simp [setCommit, ydisp]) (by simp [setCommit, ypath]) (by simp [setCommit, ypath])
    · refine ykept.trans fun c hc => ?_
      cases c
      case escrow | journal | ports => simp at hc
      all_goals simp [Kept, setCommit]
    · exact approvalUsed_of .commit f s _ t h (by simp [setCommit, ylines]) (hkept .ports (by simp))
    · rw [show t.journal = _ from hkept .journal (by simp)]
      simp only [setCommit, State.onEscrow_keeps, yjournal]
    · rw [show t.escrow = _ from hkept .escrow (by simp)]
      simp only [setCommit, State.onEscrow, yescrow]
      rfl
  · intro n hk hroom
    rw [chooseNext_of_noDestination _ y b d fit ylast ylock ymatch rfl ynext (hdest.trans hk)] at ho
    have hends := endCommit_ends (begun none) (.partial_ .noDestination) n y (by rw [EndRoom, yjournal]; exact hroom)
    simp only [begun] at hends
    generalize endCommit (CommitOp.begun f.port (s.claim.owner == .hold) none) (.partial_ .noDestination) y = z at ho hends
    refine replies_with (.commit f) .commit f (commitOwner f) _ _ _ s z _ rfl h ho ?_
      (by rw [hends.kept .startUp (by simp), ystart]; exact h.1) (by rw [hends.lines, ylines]) ?_ fun t hkept hn => ⟨?_, ?_⟩
    · have hpath : z.path = { y.path with timers := y.path.timersBut .escrow } := hends.ended.2.1
      exact quiet_of_idle s _ h.2.2.2.2.1 hi (by rw [hends.kept .dispenses (by simp), ydisp]) (by rw [hpath, ypath])
        (by rw [hpath, ypath])
    · exact (ykept.mono (by simp)).trans hends.kept
    · exact approvalUsed_of .commit f s _ t h (by rw [hends.lines, ylines]) (hkept .ports (by simp))
    · have he := hends.ended
      rw [yescrow] at he
      refine he.transfer rfl yclock.symm yalarm.symm yset.symm ypos.symm yjournal.symm (by rw [ypath]) ?_ (hkept .escrow (by simp))
        (hkept .path (by simp)) (hkept .position (by simp)) (hkept .journal (by simp)) ?_
      · rw [yescrow]
      · exact fun p x hx hne => hn p x hx (by simpa using hne)

theorem commit_settled (f : Frame) (s : State) (h : Taken .commit f s) :
    let total := s.value (stackNotes s.escrow.stack)
    let refused (why : Reason) (results : Results) : Prop :=
      ∃ t : State, exec (.commit f) s = .next t ∧ Answers .commit f .refused (some why) results s t ∧
        KeptBut [.ports] s t ∧ ApprovalUsed .commit f s t
    match s.openRefusal f.port, s.stateRefusal with
    | some why, _ => refused why .none
    | none, some why => refused why .none
    | none, none =>
      if s.auditRequired then refused .audit .none
      else if s.restricted .moduleLock then refused .halted .none
      else if s.escrow.stack = [] then refused .escrowEmpty .none
      else if s.escrow.verdict ≠ .match_ ∧ Approved .commit f s = false then refused .verdict .none
      else
        if s.escrow.purpose = .drawer ∧ (s.position.account (drawerOf s.escrow.owner)).intact = false then
          ∃ t : State, exec (.commit f) s = .next t ∧ Answers .commit f .refused (some .audit) .none s t ∧
            KeptBut [.position, .ports] s t ∧ ApprovalUsed .commit f s t ∧ IntegrityFound s t
        else if s.escrow.purpose = .drawer ∧
            (s.position.account (drawerOf s.escrow.owner)).balance - total < -999999999 then refused .range .none
        else if s.position.marginsExceeded then refused .range .none
        else
          let journal : Journal :=
            { s.journal with
              reservations :=
                s.journal.reservations ++ [{ port := f.port, kind := .commit, startSequence := 0, jammed := false }] }
          let escrow : Escrow :=
            { s.escrow with tally := ⟨Quad.zero, Quad.zero, Quad.zero, s.escrow.purpose, s.escrow.owner⟩ }
          let begun (chosen : Option Ix) : CommitOp :=
            { port := f.port, underHold := s.claim.owner == .hold, chosen := chosen, note := none, moving := true,
              reduced := false, lost := false, auditStop := false, ended := none }
          let accepts := Replies (.commit f) .commit f .accepted (.commitAccepted total (Approved .commit f s))
          (∀ why : Reason, s.journal.roomCheck 1 0 = some why → refused why s.journal.roomFigures) ∧
          ∀ (b : Bundle) (d : Ix) (fit : Bool), RoomFor 1 0 s →
            (∀ j : Ix, (s.position.cassettes.get j).intact = true) → s.escrow.stack.getLast? = some b →
            b.next s.settings.denominations = some (d, fit) →
            (∀ k : Ix, s.destination d fit = some k →
              accepts [.escrow, .journal, .ports] s (fun t =>
                ApprovalUsed .commit f s t ∧ t.journal = journal ∧
                  t.escrow = { escrow with op := some (.commit (begun (some k))) })) ∧
            ∀ n : Nat, s.destination d fit = none → EndRoom n s →
              accepts [.escrow, .path, .position, .journal, .ports] s (fun t =>
                ApprovalUsed .commit f s t ∧
                  CommitEnded (begun none) escrow.tally (some .noDestination) n { s with journal := journal, escrow := escrow } t) := by
  intro total refused
  have kept := reached_keeps .commit f s h
  have hp : (reached .commit f s).position = s.position := by simp only [kept]
  have hj : (reached .commit f s).journal = s.journal := by simp only [kept]
  have hesc : (reached .commit f s).escrow = s.escrow := by simp only [kept]
  have haud : (reached .commit f s).auditRequired = s.auditRequired := by simp only [State.auditRequired, hp]
  have hres (e : Effect) : (reached .commit f s).restricted e = s.restricted e := by simp only [State.restricted, kept]
  have htotal : (reached .commit f s).escrowTotal = total := by simp only [State.escrowTotal, State.value, kept]; rfl
  have refuses (why : Reason) (res : Results)
      (ho : commitOwner f (consumed .commit f s) (reached .commit f s) =
        (.reply .refused (some why) res, reached .commit f s)) : refused why res :=
    refused_of (.commit f) .commit f (commitOwner f) why res s rfl h ho
  have ho : commitOwner f (consumed .commit f s) (reached .commit f s) =
      commitOwner f (consumed .commit f s) (reached .commit f s) := rfl
  conv_rhs at ho => rw [commitOwner, ownEscrow_eq, moduleReady_eq, reached_openRefusal .commit f s h, reached_stateRefusal .commit f s h, hesc, haud, hres, consumed_eq_approved]
  cases hopen : s.openRefusal f.port with
  | some why => rw [hopen] at ho; exact refuses _ _ ho
  | none =>
    cases hstate : s.stateRefusal with
    | some why => rw [hopen, hstate] at ho; exact refuses _ _ ho
    | none =>
      rw [hopen, hstate] at ho
      simp only [] at ho ⊢
      by_cases c1 : s.auditRequired = true
      · rw [if_pos c1]; exact refuses _ _ (ho.trans (if_pos c1))
      rw [if_neg c1] at ho ⊢
      by_cases c2 : s.restricted .moduleLock = true
      · rw [if_pos c2]; exact refuses _ _ (ho.trans (if_pos c2))
      rw [if_neg c2] at ho ⊢
      by_cases c3 : s.escrow.stack = []
      · rw [if_pos c3]; exact refuses _ _ (ho.trans (if_pos c3))
      rw [if_neg c3] at ho ⊢
      by_cases c4 : s.escrow.verdict ≠ .match_ ∧ Approved .commit f s = false
      · rw [if_pos c4]; exact refuses _ _ (ho.trans (if_pos c4))
      rw [if_neg c4] at ho ⊢
      obtain ⟨j1, j2⟩ := judgeCommit_spec f.port (Approved .commit f s) (reached .commit f s)
      rw [hesc, hp] at j1 j2
      by_cases c5 : s.escrow.purpose = .drawer ∧ (s.position.account (drawerOf s.escrow.owner)).intact = false
      · rw [if_pos c5]
        exact refusedFinding_of (.commit f) .commit f (commitOwner f) _ s _ rfl h (ho.trans (j1 c5)) (verifyAccount_read _ _)
          (by rw [hp]; exact c5.2)
      rw [if_neg c5]
      rw [j2 c5, htotal, withMargins, withRoom, hp, hj] at ho
      by_cases c6 : s.escrow.purpose = .drawer ∧ (s.position.account (drawerOf s.escrow.owner)).balance - total < -999999999
      · rw [if_pos c6]; exact refuses _ _ (ho.trans (if_pos c6))
      rw [if_neg c6]
      replace ho := ho.trans (if_neg c6)
      by_cases c7 : s.position.marginsExceeded = true
      · rw [if_pos c7]; exact refuses _ _ (ho.trans (if_pos c7))
      rw [if_neg c7] at ho ⊢
      refine ⟨fun why hwhy => refuses _ _ (by rw [ho, hwhy]; rfl), fun b d fit hroom hw hb hn => ?_⟩
      rw [show s.journal.roomCheck 1 0 = none from hroom, ← consumed_eq_approved] at ho
      exact commit_begins f s b d fit h hopen (Bool.eq_false_iff.mpr c2) hw hb hn ho

/-- Settles O34: the four operations, each by its checks in order and what it begins. -/
theorem escrowOperationsBegin : Obligations.EscrowOperationsBegin := by
  unfold Obligations.EscrowOperationsBegin
  exact ⟨insert_settled, return_settled, commit_settled⟩

end Sys2Proof.Machine
end

section
/-! The commit note by note: the drum, the entry into a cassette, the choice of the next destination. -/
namespace Sys2Proof.Machine

/-! ## When nothing waits -/

theorem quiet_of_rest (s t : State) (ha : OtherAtRest .a s) (hb : OtherAtRest .b s) (hd : t.dispenses = s.dispenses) : Quiet t := by
  have hdw (w : Teller) : t.dispense w = s.dispense w := by rw [State.dispense, State.dispense, hd]
  obtain ⟨a1, a2⟩ := ha
  obtain ⟨b1, b2⟩ := hb
  intro w
  have hrest : ¬((s.dispense w).state = .queued ∧ (s.dispense w).deferred = true) ∧ (s.dispense w).state ≠ .retracting := by
    cases w
    · exact ⟨b1, b2⟩
    · exact ⟨a1, a2⟩
  obtain ⟨h1, h2⟩ := hrest
  refine ⟨fun ⟨q1, q2, _⟩ => h1 ⟨hdw w ▸ q1, hdw w ▸ q2⟩, fun hr => ?_⟩
  simp only [State.retractWaits, hdw, Bool.and_eq_true, beq_iff_eq] at hr
  exact absurd hr.1.1 h2

/-- The escrow operation in flight stays that of its port. -/
theorem quiet_of_port (s t : State) (h : Quiet s) (hd : t.dispenses = s.dispenses) (hs : t.path.state = s.path.state)
    (hw : t.path.draw = s.path.draw) (ho : t.escrow.op.map (fun o => o.port) = s.escrow.op.map (fun o => o.port)) : Quiet t := by
  intro w
  obtain ⟨h1, h2⟩ := h w
  have hdw (w : Teller) : t.dispense w = s.dispense w := by rw [State.dispense, State.dispense, hd]
  have hop (p : Port) : t.opInFlight p = s.opInFlight p := by
    unfold State.opInFlight State.dispenseInFlight
    rw [hd]
    cases ht : t.escrow.op <;> cases hs : s.escrow.op <;> simp_all
  refine ⟨?_, fun hr => ?_⟩
  · rw [hdw, hop]; exact h1
  · rw [hs]
    exact h2 (by simpa only [State.retractWaits, hdw, hw] using hr)

/-! ## A commit that goes on or ends -/

/-- An event that brings a commit to its end: from the state y in which the end is made. -/
theorem commit_ends_of (c : Instr) (o o' : CommitOp) (outcome : CommitOutcome) (n : Nat) (s y s' : State)
    (effect : State → Prop) (he : exec c s = done (endCommit o' outcome y)) (hrun : s.running = true) (hport : o'.port = o.port)
    (hroom : EndRoom n y) (ha : OtherAtRest .a s) (hb : OtherAtRest .b s)
    (hk : KeptBut [.escrow, .path, .position, .journal] s y) (hc : s'.clock = y.clock)
    (hal : s'.alarm = y.alarm) (hset : s'.settings = y.settings) (hp : s'.position = y.position) (hj : s'.journal = y.journal)
    (hpath : { s'.path with timers := s'.path.timersBut .escrow } = { y.path with timers := y.path.timersBut .escrow })
    (hesc : s'.escrow = { y.escrow with op := s'.escrow.op })
    (hx : ∀ t, Tells [.restriction, .journalHigh, .alarmChange] y t →
      (y.position.causes.any = true → Tells [.journalHigh, .alarmChange] y t) →
      CommitEnded o y.escrow.tally outcome.cause n s' t → effect t) :
    Does c [.escrow, .path, .position, .journal] s effect := by
  have hends := endCommit_ends o' outcome n y hroom
  generalize endCommit o' outcome y = z at he hends
  have hz : KeptBut [.escrow, .path, .position, .journal] y z :=
    keptBut_without_ports hends.kept (kept_ports_of_lines _ _ hends.lines) (by simp)
  have hsz := hk.trans hz
  refine does_done c _ s z effect he (quiet_of_rest s z ha hb (hsz .dispenses (by simp))) ?_ hsz fun t hkept hn => ?_
  · rw [State.powered, show z.startUp = s.startUp from hsz .startUp (by simp)]
    exact powered_of_running s hrun
  have ht : Tells [.alarmChange] z t := fun p x hx hne => hn p x hx (by simpa using hne)
  refine hx t ((hends.tells.mono (by simp)).trans (ht.mono (by simp)))
    (fun hs => ((hends.again hs).mono (by simp)).trans (ht.mono (by simp))) ?_
  exact hends.ended.transfer hport.symm hc hal hset hp hj hpath (by rw [hesc]) (hkept .escrow (by simp)) (hkept .path (by simp))
    (hkept .position (by simp)) (hkept .journal (by simp)) ht

/-- An event that lets a commit go on. -/
theorem commit_goes_on_of (c : Instr) (changed : List Block) (o o' : CommitOp) (s y : State) (effect : State → Prop)
    (he : exec c s = done y) (hrun : s.running = true) (hq : Quiet s) (hk : KeptBut changed s y)
    (hd : .dispenses ∉ changed) (hst : .startUp ∉ changed) (hs : y.path.state = s.path.state) (hw : y.path.draw = s.path.draw)
    (ho : s.escrow.op = some (.commit o)) (ho' : y.escrow.op = some (.commit o')) (hport : o'.port = o.port)
    (hx : ∀ t, KeptBut [] y t → Tells [.alarmChange] y t → effect t) : Does c changed s effect := by
  refine does_done c _ s y effect he (quiet_of_port s y hq (hk .dispenses hd) hs hw (by rw [ho, ho']; simp [EscrowOp.port, hport]))
    ?_ hk fun t hkept hn => hx t hkept fun p x hp hne => hn p x hp (by simpa using hne)
  rw [State.powered, show y.startUp = s.startUp from hk .startUp hst]
  exact powered_of_running s hrun

/-! ## A note off the drum (R95, R106) -/

theorem commitExit_settled (o : CommitOp) (b : Bundle) (above : List Bundle) (s : State) (hrun : s.running = true) (hq : Quiet s)
    (hop : s.escrow.op = some (.commit o)) (hend : o.ended = none) (hstack : s.escrow.stack = above ++ [b]) (d : Ix) (fit : Bool)
    (hnote : o.note = none) (hchosen : o.chosen.isSome) (hnext : b.next s.settings.denominations = some (d, fit)) :
    let left := if fit then { b with fit := Quad.minus b.fit d 1 } else { b with unfit := Quad.minus b.unfit d 1 }
    Does .drumExit [.escrow, .path, .position] s (fun t =>
      t.position = { s.position with transit := Quad.plus s.position.transit d 1 } ∧
        t.escrow =
          { s.escrow with
            stack := if left.notes.total = 0 then above else above ++ [left]
            verdict := if left.notes.total = 0 then .none else s.escrow.verdict
            op :=
              some (.commit { o with note := some (d, fit), moving := left.notes.total != 0, reduced := true }) } ∧
        t.path =
          { s.path with
            timers := s.path.timersBut .escrow ++ [⟨.escrow, .drumExit, false⟩] }) := by
  intro left
  have hlast : s.escrow.bottom = some b := by simp [Escrow.bottom, hstack]
  have hexit : drumExited s = commitExit o s := by simp [drumExited, hop, hend, hnote, hchosen]
  generalize hy : commitExit o s = y at hexit
  simp only [commitExit, hlast, hnext] at hy
  have hleft : b.without d fit = left := rfl
  rw [hleft] at hy
  have ypos : y.position = { s.position with transit := Quad.plus s.position.transit d 1 } := by
    rw [← hy]; simp [timeEscrow, setCommit, unwindNote, State.onPosition]
  have ypath : y.path = { s.path with timers := s.path.timersBut .escrow ++ [⟨.escrow, .drumExit, false⟩] } := by
    rw [← hy]
    simp only [timeEscrow, State.onPath, stopTimers_path]
    simp [setCommit, unwindNote]
  have yescrow : y.escrow = { s.escrow with
      stack := if left.notes.total = 0 then above else above ++ [left]
      verdict := if left.notes.total = 0 then .none else s.escrow.verdict
      op := some (.commit { o with note := some (d, fit), moving := left.notes.total != 0, reduced := true }) } := by
    rw [← hy]
    simp [timeEscrow, setCommit, unwindNote, State.onEscrow, hstack, bne]
  refine commit_goes_on_of .drumExit _ o
    { o with note := some (d, fit), moving := left.notes.total != 0, reduced := true } s y _ ?_ hrun hq ?_ (by simp) (by simp) (by rw [ypath]) (by rw [ypath]) hop
    (by rw [yescrow]) rfl fun t hk _ => ⟨?_, ?_, ?_⟩
  · exact congrArg done ((event_running _ s hrun).trans hexit)
  · intro x hx
    rw [← hy]
    cases x
    case escrow | path | position => simp at hx
    all_goals simp [Kept, timeEscrow, setCommit, unwindNote]
  · rw [← ypos]; exact hk .position (by simp)
  · rw [← yescrow]; exact hk .escrow (by simp)
  · rw [← ypath]; exact hk .path (by simp)

/-! ## Notes missed (R106) -/

/-- The state once the notes a bundle still shows are missed, but for what the ports are told (R106). -/
def missedState (b : Bundle) (above : List Bundle) (s : State) : State :=
  { s with
    escrow := { s.escrow with stack := above, verdict := .none }
    position :=
      { s.position with
        discrepancy := Quad.zip (· + ·) s.position.discrepancy b.notes.toInt
        causes := { s.position.causes with reconcileDueJam := true } } }

/-- An audit cause changes the cause set and what the ports are told. -/
theorem addCause_rest (c : AuditCause) (s : State) :
    addCause c s = { s with position := { s.position with causes := s.position.causes.add c }, ports := (addCause c s).ports } := by
  rw [← addCause_position]
  have k := addCause_keeps c s
  generalize addCause c s = t at *
  cases t; cases s
  simp_all

/-- The drum is empty before the bottom bundle is: its notes are missed, and the choice is made anew (R106, R112). -/
theorem drumEmptied_misses (o : CommitOp) (b : Bundle) (above : List Bundle) (s : State) (hop : s.escrow.op = some (.commit o))
    (hend : o.ended = none) (hstack : s.escrow.stack = above ++ [b]) (hmoving : o.moving = true) (hnote : o.note = none) :
    ∃ y : State, drumEmptied s = chooseNext { o with moving := false, reduced := true, chosen := none } y ∧
      y = { missedState b above s with ports := y.ports } ∧ y.ports.lines = s.ports.lines ∧
      (s.auditRequired = false →
        ∀ p : Port, p ≠ .m → Told p (.restriction s.alarm.restriction { s.position.causes with reconcileDueJam := true }) y) := by
  have hlast : s.escrow.bottom = some b := by simp [Escrow.bottom, hstack]
  refine ⟨missBundle b (s.onEscrow (fun e => { e with stack := e.stack.dropLast, verdict := .none })), ?_, ?_, ?_, ?_⟩
  · simp [drumEmptied, hop, hlast, hend, hmoving, hnote]
  · conv_lhs => rw [missBundle, addCause_rest]
    simp [State.onEscrow, State.onPosition, hstack, missedState, missBundle, Position.addDiscrepancy, Causes.add]
  · simp [missBundle]
  · intro hs p hp
    exact addCause_told .reconcileDueJam _ (by exact hs) p hp

theorem drumEmpty_settled (o : CommitOp) (b : Bundle) (above : List Bundle) (s : State) (hrun : s.running = true) (hq : Quiet s)
    (hop : s.escrow.op = some (.commit o)) (hend : o.ended = none) (hstack : s.escrow.stack = above ++ [b])
    (hmoving : o.moving = true) (hnote : o.note = none) :
    let missed := missedState b above s
    let told (t : State) : Prop :=
      s.auditRequired = false → ∀ p : Port, p ≠ .m → Told p (.restriction s.alarm.restriction missed.position.causes) t
    let ends (cause : Option CommitCause) : Prop :=
      ∀ n : Nat, EndRoom n s → OtherAtRest .a s → OtherAtRest .b s →
        Does .drumEmpty [.escrow, .path, .position, .journal] s (fun t =>
          CommitEnded o s.escrow.tally cause n missed t ∧ told t)
    (above = [] → ends none) ∧
    (above ≠ [] → s.restricted .moduleLock = true → ends (some .lock)) ∧
    (∀ (b' : Bundle) (e : Ix) (fine : Bool), above.getLast? = some b' → s.restricted .moduleLock = false →
      WordsMatch s → b'.next s.settings.denominations = some (e, fine) →
      (o.auditStop = true → ends (some .audit)) ∧
      (o.auditStop = false → missed.destination e fine = none → ends (some .noDestination)) ∧
      ∀ j : Ix, o.auditStop = false → missed.destination e fine = some j →
        Does .drumEmpty [.escrow, .position] s (fun t =>
          t.position = missed.position ∧ told t ∧
            t.escrow =
              { missed.escrow with
                op := some (.commit { o with chosen := some j, moving := true, reduced := true, lost := false }) })) ∧
    (above ≠ [] → s.restricted .moduleLock = false → ¬WordsMatch s →
      ∀ n : Nat, EndRoom n s → OtherAtRest .a s → OtherAtRest .b s →
        Does .drumEmpty [.escrow, .path, .position, .journal] s (fun t =>
          told t ∧
            ∃ p : Position,
              WordFailed missed.position p s t ∧
                CommitEnded o s.escrow.tally (some .audit) n { missed with position := p } t)) := by
  intro missed told ends
  obtain ⟨y, hy, yrest, ylines, ytold⟩ := drumEmptied_misses o b above s hop hend hstack hmoving hnote
  have hexec : exec .drumEmpty s = done (drumEmptied s) := congrArg done (event_running _ s hrun)
  rw [hy] at hexec
  generalize ho1 : ({ o with moving := false, reduced := true, chosen := none } : CommitOp) = o1 at hexec
  have hport : o1.port = o.port := by rw [← ho1]
  have hstop : o1.auditStop = o.auditStop := by rw [← ho1]
  have ypos : y.position = missed.position := by rw [yrest]
  have yesc : y.escrow = missed.escrow := by rw [yrest]
  have ystack : y.escrow.stack = above := by rw [yesc]; rfl
  have yset : y.settings = s.settings := by rw [yrest]; rfl
  have yjournal : y.journal = s.journal := by rw [yrest]; rfl
  have ylock : y.restricted .moduleLock = s.restricted .moduleLock := by rw [yrest]; rfl
  have ywords : WordsMatch y ↔ WordsMatch s := by rw [WordsMatch, WordsMatch, ypos]; rfl
  have ycauses : y.position.causes.any = true := by rw [ypos]; simp [missed, missedState, Causes.any]
  have ykept : KeptBut [.escrow, .position] s y := by
    intro c hc
    cases c
    case escrow | position => simp at hc
    case ports => exact kept_ports_of_lines _ _ ylines
    all_goals rw [yrest]; simp [Kept, missedState]
  have tells (t : State) (ht : Tells [.journalHigh, .alarmChange] y t) : told t := fun hs p hp =>
    ht _ _ (ytold hs p hp) (by simp [Notice.kind])
  -- an end made on the state y
  have hends (outcome : CommitOutcome) (hc : chooseNext o1 y = endCommit o1 outcome y) : ends outcome.cause := by
    intro n hroom ha hb
    rw [hc] at hexec
    refine commit_ends_of .drumEmpty o o1 outcome n s y missed _ hexec hrun hport (by rw [EndRoom, yjournal]; exact hroom) ha hb
      (ykept.mono (by simp)) (by rw [yrest]) (by rw [yrest]) (by rw [yrest]) (by rw [yrest]) (by rw [yrest]) (by rw [yrest])
      (by rw [yesc]) fun t _ hagain hended => ⟨?_, tells t (hagain ycauses)⟩
    rw [yesc] at hended
    exact hended
  have last (hne : above ≠ []) : ∃ b', y.escrow.stack.getLast? = some b' := by
    rw [ystack]; exact ⟨_, List.getLast?_eq_some_getLast hne⟩
  refine ⟨fun hnil => ?_, fun hne hl => ?_, fun b' e fine hb' hl hw hn => ⟨fun hs => ?_, fun hs hd => ?_, fun j hs hd => ?_⟩,
    fun hne hl hw n hroom ha hb => ?_⟩
  · exact hends .committed (chooseNext_of_empty o1 y (by rw [ystack, hnil]))
  · obtain ⟨b', hb'⟩ := last hne
    exact hends (.partial_ .lock) (chooseNext_of_locked o1 y b' hb' (by rw [ylock]; exact hl))
  · exact hends (.partial_ .audit)
      (chooseNext_of_stopped o1 y b' (by rw [ystack]; exact hb') (by rw [ylock]; exact hl) (ywords.mpr hw) (by rw [hstop]; exact hs))
  · exact hends (.partial_ .noDestination)
      (chooseNext_of_noDestination o1 y b' e fine (by rw [ystack]; exact hb') (by rw [ylock]; exact hl) (ywords.mpr hw)
        (by rw [hstop]; exact hs) (by rw [yset]; exact hn) (by rw [State.destination, ypos]; exact hd))
  · rw [chooseNext_of_destination o1 y b' e j fine (by rw [ystack]; exact hb') (by rw [ylock]; exact hl) (ywords.mpr hw)
      (by rw [hstop]; exact hs) (by rw [yset]; exact hn) (by rw [State.destination, ypos]; exact hd)] at hexec
    refine commit_goes_on_of .drumEmpty _ o { o1 with chosen := some j, moving := true, lost := false } s _ _ hexec hrun hq
      (ykept.trans fun c hc => ?_) (by simp) (by simp) ?_ ?_ hop rfl hport fun t hk ht => ⟨?_, ?_, ?_⟩
    · cases c
      case escrow | position => simp at hc
      all_goals simp [Kept, setCommit]
    · simp [setCommit, show y.path = s.path from ykept .path (by simp)]
    · simp [setCommit, show y.path = s.path from ykept .path (by simp)]
    · rw [show t.position = _ from hk .position (by simp)]
      simpa [setCommit] using ypos
    · exact tells t ((tells_of_ports (t := setCommit _ y) _ (by simp [setCommit])).trans (ht.mono (by simp)))
    · rw [show t.escrow = _ from hk .escrow (by simp), ← ho1]
      simp only [setCommit, State.onEscrow, yesc]
  · obtain ⟨b', hb'⟩ := last hne
    have hfail : ¬WordsMatch y := mt ywords.mp hw
    rw [chooseNext_of_failed o1 y b' hb' (by rw [ylock]; exact hl) hfail] at hexec
    obtain ⟨-, hread⟩ := verifyCassettes_read y
    generalize (verifyCassettes y).2 = z at hexec hread
    have zesc : z.escrow = y.escrow := by rw [hread.rest]
    have zjournal : z.journal = s.journal := by rw [hread.rest]; exact yjournal
    have zports : z.ports = y.ports := hread.again ycauses
    have zfound := hread.found hfail
    have zcauses : z.position.causes.any = true := by rw [zfound.1]; exact any_of_integrity _ rfl
    have zkept : KeptBut [.escrow, .position] s z := by
      refine ykept.trans fun c hc => ?_
      cases c
      case escrow | position => simp at hc
      case ports => exact kept_ports_of_lines _ _ hread.lines
      all_goals rw [hread.rest]; simp [Kept]
    refine commit_ends_of .drumEmpty o o1 (.partial_ .audit) n s z { missed with position := z.position } _ hexec hrun hport
      (by rw [EndRoom, zjournal]; exact hroom) ha hb (zkept.mono (by simp)) ?_ ?_ ?_ rfl ?_ ?_ ?_ fun t _ hagain hended => ⟨?_, z.position, ?_, ?_⟩
    · rw [hread.rest, yrest]
    · rw [hread.rest, yrest]
    · rw [hread.rest, yrest]
    · rw [hread.rest, yrest]
    · rw [hread.rest, yrest]
    · rw [zesc, yesc]
    · exact tells t ((tells_of_ports _ zports).trans (hagain zcauses))
    · rw [ypos] at zfound
      exact zfound.transfer (by rw [yrest]; rfl) (by rw [yrest]; rfl) ((hagain zcauses).mono (by simp))
    · rw [zesc, yesc] at hended
      exact hended

/-! ## A note that enters its cassette (R112) -/

theorem tells_watchLow (k : Ix) (c : CassetteState) (s : State) : Tells [.cassetteLow] s (watchLow k c s) := by
  unfold watchLow
  simp only []
  split
  · exact tells_raise _ _ _ s (by simp [Notice.kind])
  · exact tells_of_ports _ rfl

theorem tells_writeCassette (k : Ix) (c : Cassette) (s : State) : Tells [.cassetteLow] s (writeCassette k c s) := by
  unfold writeCassette
  exact (tells_of_ports (t := s.onPosition _) _ rfl).trans (tells_watchLow _ _ _)

theorem tells_writeCassetteAs (k : Ix) (c : Cassette) (s : State) : Tells [.cassetteLow] s (writeCassetteAs k c s) := by
  unfold writeCassetteAs
  exact (tells_of_ports (t := s.onPosition _) _ rfl).trans (tells_watchLow _ _ _)

/-- A position once a note of TRANSIT has entered a cassette (R5, R112). -/
def Position.entered (k d : Ix) (p : Position) : Position :=
  { p with
    transit := Quad.minus p.transit d 1
    cassettes :=
      p.cassettes.set k
        { { p.cassettes.get k with counts := Quad.plus (p.cassettes.get k).counts d 1 }.rederive with intact := true } }

theorem entered_leaves (k d : Ix) : LeavesAudit (Position.entered k d) := fun _ _ _ => rfl

theorem bookEntry_position (k d : Ix) (fit : Bool) (s : State) (h : 0 < s.position.transit.get d) :
    (bookEntry k d fit s).position = s.position.entered k d := by
  have hmin : min 1 (s.position.transit.get d) = 1 := by omega
  simp only [bookEntry, hmin, State.onEscrow_keeps, writeCassette_position]
  rfl

theorem bookEntry_escrow (k d : Ix) (fit : Bool) (s : State) :
    (bookEntry k d fit s).escrow = { s.escrow with tally := s.escrow.tally.plus k d fit } := by
  simp [bookEntry, State.onEscrow, CommitTally.plus]

theorem tells_onPosition (ks : List NoticeKind) (f : Position → Position) (s : State) : Tells ks s (s.onPosition f) :=
  tells_of_ports ks rfl

theorem tells_onEscrow (ks : List NoticeKind) (f : Escrow → Escrow) (s : State) : Tells ks s (s.onEscrow f) := tells_of_ports ks rfl

theorem tells_bookEntry (k d : Ix) (fit : Bool) (s : State) : Tells [.cassetteLow] s (bookEntry k d fit s) := by
  unfold bookEntry
  exact ((tells_onPosition _ _ _).trans (tells_writeCassette _ _ _)).trans (tells_onEscrow _ _ _)

/-- What the entry report leaves before the next choice: y, of the state s1 that reading the cassette's word has left. -/
structure Entered (o : CommitOp) (k d : Ix) (fit : Bool) (s1 y : State) : Prop where
  position : y.position = s1.position.entered k d
  escrow : y.escrow = { s1.escrow with tally := s1.escrow.tally.plus k d fit, op := some (.commit o) }
  path : y.path = { s1.path with timers := s1.path.timersBut .escrow }
  rest : y = { s1 with position := y.position, escrow := y.escrow, path := y.path, ports := y.ports }
  lines : y.ports.lines = s1.ports.lines
  tells : Tells [.cassetteLow] s1 y

/-- A state that differs in the position, the escrow, the note path and the ports alone. -/
theorem moves_of_fields {s t : State} (h1 : t.startUp = s.startUp) (h2 : t.clock = s.clock) (h3 : t.pins = s.pins)
    (h4 : t.settings = s.settings) (h5 : t.claim = s.claim) (h6 : t.dispenses = s.dispenses) (h7 : t.depository = s.depository)
    (h8 : t.alarm = s.alarm) (h9 : t.journal = s.journal) (h10 : t.freeCount = s.freeCount) (h11 : t.pending = s.pending) :
    t = { s with position := t.position, escrow := t.escrow, path := t.path, ports := t.ports } := by
  cases s; cases t; simp_all

theorem Entered.kept {o : CommitOp} {k d : Ix} {fit : Bool} {s1 y : State} (h : Entered o k d fit s1 y) :
    KeptBut [.escrow, .path, .position] s1 y := by
  intro c hc
  cases c
  case escrow | path | position => simp at hc
  case ports => exact kept_ports_of_lines _ _ h.lines
  all_goals rw [h.rest]; simp [Kept]

theorem entered_of (o : CommitOp) (k d : Ix) (fit : Bool) (s1 : State) (h : 0 < s1.position.transit.get d) :
    Entered o k d fit s1 (setCommit o (stopTimers .escrow (bookEntry k d fit s1))) := by
  refine ⟨?_, ?_, ?_, ?_, ?_, ?_⟩
  · simpa [setCommit] using bookEntry_position k d fit s1 h
  · simp [setCommit, State.onEscrow, bookEntry_escrow]
  · simp only [setCommit, State.onEscrow_keeps, stopTimers_path]
    simp [bookEntry]
  · apply moves_of_fields <;> simp [setCommit, bookEntry]
  · simp [setCommit, bookEntry]
  · exact (tells_bookEntry k d fit s1).trans (tells_of_ports _ (by simp [setCommit]))

/-- The entry report of the cassette chosen (R112). -/
theorem cassetteEntered_of (o : CommitOp) (k d : Ix) (fit : Bool) (s : State) (hop : s.escrow.op = some (.commit o))
    (hend : o.ended = none) (hnote : o.note = some (d, fit)) (hchosen : o.chosen = some k) (hlost : o.lost = false)
    (hholds : s.holdsNotes k = true) (ht : 0 < s.position.transit.get d) :
    ∃ (o' : CommitOp) (s1 y : State), cassetteEntered k s = chooseNext o' y ∧
      o' = { o with
        note := none, chosen := none, auditStop := o.auditStop || !(s.position.cassettes.get k).intact } ∧
      WordsRead ((s.position.cassettes.get k).intact = false) s s1 ∧ Entered o' k d fit s1 y := by
  have hread := verifyCassette_read k s
  refine ⟨_, _, _, ?_, rfl, hread, entered_of _ k d fit _ (by rw [hread.records]; exact ht)⟩
  simp [cassetteEntered, hop, hend, hnote, hchosen, hlost, hholds]

/-- The note timers of an owner are stopped once and for all. -/
theorem timersBut_timersBut (o : MoveOwner) (q : NotePath) :
    ({ q with timers := q.timersBut o } : NotePath).timersBut o = q.timersBut o := by
  simp [NotePath.timersBut, List.filter_filter]

theorem entered_eq (k d : Ix) (p : Position) (h : (p.cassettes.get k).intact = true) :
    p.entered k d =
      { p with
        transit := Quad.minus p.transit d 1
        cassettes :=
          p.cassettes.set k { p.cassettes.get k with counts := Quad.plus (p.cassettes.get k).counts d 1 }.rederive } := by
  have hi : (Cassette.rederive { p.cassettes.get k with counts := Quad.plus (p.cassettes.get k).counts d 1 }).intact = true := by
    unfold Cassette.rederive
    split <;> exact h
  unfold Position.entered
  congr 2
  exact congrArg (fun b => { (Cassette.rederive { p.cassettes.get k with counts := Quad.plus (p.cassettes.get k).counts d 1 }) with
    intact := b }) hi.symm

/-- The cassette entered is written with its check word, the others are as they were (R9). -/
theorem entered_intact (k d j : Ix) (p : Position) :
    ((p.entered k d).cassettes.get j).intact = if j = k then true else (p.cassettes.get j).intact := by
  unfold Position.entered
  by_cases h : j = k
  · rw [if_pos h, h]; simp
  · rw [if_neg h]; simp only [Quad.get_set_other _ _ _ _ h]

/-- A note enters with every check word matching: the commit goes on or ends (R112 to R114). -/
theorem cassetteEntry_settled (o : CommitOp) (k d : Ix) (fit : Bool) (s : State) (hrun : s.running = true) (hq : Quiet s)
    (hop : s.escrow.op = some (.commit o)) (hend : o.ended = none) (hnote : o.note = some (d, fit)) (hchosen : o.chosen = some k)
    (hlost : o.lost = false) (hstop : o.auditStop = false) (hholds : s.holdsNotes k = true) (hw : WordsMatch s)
    (ht : 0 < s.position.transit.get d) :
    let c := s.position.cassettes.get k
    let tally := s.escrow.tally.plus k d fit
    let position :=
      { s.position with
        transit := Quad.minus s.position.transit d 1
        cassettes := s.position.cassettes.set k { c with counts := Quad.plus c.counts d 1 }.rederive }
    let booked : State := { s with position := position, escrow := { s.escrow with tally := tally } }
    let ends (cause : Option CommitCause) : Prop :=
      ∀ n : Nat, EndRoom n s → OtherAtRest .a s → OtherAtRest .b s →
        Does (.cassetteEntry k) [.escrow, .path, .position, .journal] s (CommitEnded o tally cause n booked)
    (s.escrow.stack = [] → ends none) ∧
    (s.escrow.stack ≠ [] → s.restricted .moduleLock = true → ends (some .lock)) ∧
    ∀ (b : Bundle) (e : Ix) (fine : Bool), s.escrow.stack.getLast? = some b → s.restricted .moduleLock = false →
      b.next s.settings.denominations = some (e, fine) →
      (booked.destination e fine = none → ends (some .noDestination)) ∧
      ∀ j : Ix, booked.destination e fine = some j →
        Does (.cassetteEntry k) [.escrow, .path, .position] s (fun t =>
          t.position = position ∧
            t.escrow =
              { s.escrow with
                tally := tally
                op := some (.commit { o with note := none, chosen := some j, moving := true }) } ∧
            t.path = { s.path with timers := s.path.timersBut .escrow }) := by
  intro c tally position booked ends
  obtain ⟨o', s1, y, hy, ho', hread, hentered⟩ := cassetteEntered_of o k d fit s hop hend hnote hchosen hlost hholds ht
  have hs1 : s1 = s := hread.fine (by simp [hw k])
  subst hs1
  have hexec : exec (.cassetteEntry k) s1 = done (cassetteEntered k s1) := congrArg done (event_running _ s1 hrun)
  rw [hy] at hexec
  have hport : o'.port = o.port := by rw [ho']
  have hstop' : o'.auditStop = false := by rw [ho']; simp [hstop, hw k]
  have ykept := hentered.kept
  obtain ⟨ypos, yesc, ypath, yrest, -, -⟩ := hentered
  have ywords : WordsMatch y := by
    intro j
    rw [ypos, entered_intact]
    split
    · rfl
    · exact hw j
  rw [entered_eq k d _ (hw k)] at ypos
  have yset : y.settings = s1.settings := by rw [yrest]
  have yjournal : y.journal = s1.journal := by rw [yrest]
  have ylock : y.restricted .moduleLock = s1.restricted .moduleLock := by rw [yrest]; rfl
  have ystack : y.escrow.stack = s1.escrow.stack := by rw [yesc]
  have ydest (e : Ix) (fine : Bool) : y.destination e fine = booked.destination e fine := by
    rw [State.destination, State.destination, ypos]
  have hends (outcome : CommitOutcome) (hc : chooseNext o' y = endCommit o' outcome y) : ends outcome.cause := by
    intro n hroom ha hb
    rw [hc] at hexec
    refine commit_ends_of (.cassetteEntry k) o o' outcome n s1 y booked _ hexec hrun hport (by rw [EndRoom, yjournal]; exact hroom)
      ha hb (ykept.mono (by simp)) (by rw [yrest]) (by rw [yrest]) (by rw [yrest]) ypos.symm (by rw [yrest]) ?_ ?_
      fun t _ _ hended => ?_
    · rw [ypath, timersBut_timersBut]
    · rw [yesc]
    · rw [yesc] at hended
      exact hended
  refine ⟨fun hnil => ?_, fun hne hl => ?_, fun b e fine hb hl hn => ⟨fun hd => ?_, fun j hd => ?_⟩⟩
  · exact hends .committed (chooseNext_of_empty o' y (by rw [ystack, hnil]))
  · obtain ⟨b, hb⟩ : ∃ b, s1.escrow.stack.getLast? = some b := ⟨_, List.getLast?_eq_some_getLast hne⟩
    exact hends (.partial_ .lock) (chooseNext_of_locked o' y b (by rw [ystack, hb]) (by rw [ylock, hl]))
  · exact hends (.partial_ .noDestination) (chooseNext_of_noDestination o' y b e fine (by rw [ystack, hb]) (by rw [ylock, hl]) ywords
      hstop' (by rw [yset, hn]) (by rw [ydest, hd]))
  · rw [chooseNext_of_destination o' y b e j fine (by rw [ystack, hb]) (by rw [ylock, hl]) ywords hstop' (by rw [yset, hn])
      (by rw [ydest, hd])] at hexec
    refine commit_goes_on_of (.cassetteEntry k) _ o { o' with chosen := some j, moving := true, lost := false } s1 _ _ hexec hrun hq
      (ykept.trans fun c hc => ?_) (by simp) (by simp) ?_ ?_ hop rfl hport fun t hk _ => ⟨?_, ?_, ?_⟩
    · cases c
      case escrow | position | path => simp at hc
      all_goals simp [Kept, setCommit]
    · simp [setCommit, ypath]
    · simp [setCommit, ypath]
    · rw [show t.position = _ from hk .position (by simp)]
      simpa [setCommit] using ypos
    · rw [show t.escrow = _ from hk .escrow (by simp), ho']
      simp [setCommit, State.onEscrow, yesc, tally, hlost, hw k]
    · rw [show t.path = _ from hk .path (by simp)]
      simpa [setCommit] using ypath

/-- A failure found before a note enters is found in the position it has entered. -/
theorem AuditFollows.entered {s s1 y : State} {o : CommitOp} {k d : Ix} {fit : Bool} {failed : Prop}
    (h : WordsRead failed s s1) (he : Entered o k d fit s1 y) : AuditFollows failed (s.position.entered k d) y.position s y := by
  refine ⟨fun hn => by rw [he.position, h.fine hn], fun hf => ?_⟩
  obtain ⟨p1, p2, p3, p4⟩ := h.found hf
  have hp : y.position = { s.position.entered k d with
      causes := { s.position.causes with integrity := true }, integrityFault := s1.position.integrityFault } := by
    rw [he.position, p1]; rfl
  have hcauses : y.position.causes = s1.position.causes := by rw [he.position]; rfl
  refine ⟨by rw [hp]; rfl, fun x hx => by rw [hp]; exact p2 x hx, fun hn => ?_, fun hq z hz => ?_⟩
  · obtain ⟨w, hw⟩ := p3 hn
    exact ⟨w, by rw [hp]; exact hw⟩
  · rw [hcauses]
    exact he.tells _ _ (p4 hq z hz) (by simp [Notice.kind])

/-- A note enters while some check word fails: it is booked, and the commit ends (R9, R113). -/
theorem cassetteEntry_failed (o : CommitOp) (k d : Ix) (fit : Bool) (n : Nat) (s : State) (hrun : s.running = true)
    (hop : s.escrow.op = some (.commit o)) (hend : o.ended = none) (hnote : o.note = some (d, fit)) (hchosen : o.chosen = some k)
    (hlost : o.lost = false) (hholds : s.holdsNotes k = true) (hw : ¬WordsMatch s) (ht : 0 < s.position.transit.get d)
    (hroom : EndRoom n s) (ha : OtherAtRest .a s) (hb : OtherAtRest .b s) :
    let c := s.position.cassettes.get k
    let tally := s.escrow.tally.plus k d fit
    let position := s.position.entered k d
    Does (.cassetteEntry k) [.escrow, .path, .position, .journal] s (fun t =>
      ∃ p : Position,
        AuditFollows (c.intact = false ∨ (s.escrow.stack ≠ [] ∧ s.restricted .moduleLock = false)) position p s t ∧
          CommitEnded o tally
            (if s.escrow.stack = [] then none else if s.restricted .moduleLock then some .lock else some .audit) n
            { s with position := p, escrow := { s.escrow with tally := tally } } t) := by
  intro c tally position
  obtain ⟨o', s1, y, hy, ho', hread, hentered⟩ := cassetteEntered_of o k d fit s hop hend hnote hchosen hlost hholds ht
  have hexec : exec (.cassetteEntry k) s = done (cassetteEntered k s) := congrArg done (event_running _ s hrun)
  rw [hy] at hexec
  have hport : o'.port = o.port := by rw [ho']
  have hfollows := AuditFollows.entered hread hentered
  have ykept : KeptBut [.escrow, .path, .position] s y := by
    refine KeptBut.trans (fun b hb => ?_) hentered.kept
    cases b
    case escrow | path | position => simp at hb
    case ports => exact kept_ports_of_lines _ _ hread.lines
    all_goals rw [hread.rest]; simp [Kept]
  obtain ⟨ypos, yesc, ypath, yrest, -, -⟩ := hentered
  have yesc' : y.escrow = { s.escrow with tally := tally, op := some (.commit o') } := by rw [yesc, hread.rest]
  have ypath' : y.path = { s.path with timers := s.path.timersBut .escrow } := by rw [ypath, hread.rest]
  have ystack : y.escrow.stack = s.escrow.stack := by rw [yesc']
  have ylock : y.restricted .moduleLock = s.restricted .moduleLock := by rw [yrest, hread.rest]; rfl
  -- the end, from the state z in which it is made
  have ends (outcome : CommitOutcome) (failed : Prop) (z : State) (hz : WordsRead failed y z)
      (hc : chooseNext o' y = endCommit o' outcome z)
      (hf : (c.intact = false ∨ failed) ↔ (c.intact = false ∨ (s.escrow.stack ≠ [] ∧ s.restricted .moduleLock = false)))
      (hcause : outcome.cause =
        if s.escrow.stack = [] then none else if s.restricted .moduleLock then some .lock else some .audit) :
      Does (.cassetteEntry k) [.escrow, .path, .position, .journal] s (fun t =>
        ∃ p : Position,
          AuditFollows (c.intact = false ∨ (s.escrow.stack ≠ [] ∧ s.restricted .moduleLock = false)) position p s t ∧
            CommitEnded o tally
              (if s.escrow.stack = [] then none else if s.restricted .moduleLock then some .lock else some .audit) n
              { s with position := p, escrow := { s.escrow with tally := tally } } t) := by
    rw [hc] at hexec
    have zrest : z = { s with position := z.position, escrow := y.escrow, path := y.path, ports := z.ports } := by
      rw [hz.rest, yrest, hread.rest]
    have zkept : KeptBut [.escrow, .path, .position] s z := by
      refine ykept.trans fun b hb => ?_
      cases b
      case escrow | path | position => simp at hb
      case ports => exact kept_ports_of_lines _ _ hz.lines
      all_goals rw [hz.rest]; simp [Kept]
    refine commit_ends_of (.cassetteEntry k) o o' outcome n s z
      { s with position := z.position, escrow := { s.escrow with tally := tally } } _ hexec hrun hport
      (by rw [EndRoom, zrest]; exact hroom) ha hb (zkept.mono (by simp)) (by rw [zrest]) (by rw [zrest]) (by rw [zrest]) rfl
      (by rw [zrest]) ?_ ?_ fun t hall hagain hended => ⟨z.position, ?_, ?_⟩
    · rw [zrest]; simp only [ypath', timersBut_timersBut]
    · rw [zrest, yesc']
    · rw [← hf]
      refine ⟨fun hn => ?_, fun hcase => ?_⟩
      · rw [not_or] at hn
        rw [hz.fine hn.2]
        exact hfollows.1 hn.1
      · have hfound : WordFailed position z.position s z := by
          by_cases hi : c.intact = false
          · exact ((hfollows.2 hi).read hz).1
          · have hp := hfollows.1 hi
            have hw := hz.found (hcase.resolve_left hi)
            rw [hp] at hw
            exact ⟨hw.1, hw.2.1, by have := hw.2.2.1; rw [yrest, hread.rest] at this; exact this,
              by have := hw.2.2.2; rw [yrest, hread.rest] at this; exact this⟩
        have hcauses : z.position.causes.any = true := by rw [hfound.1]; exact any_of_integrity _ rfl
        exact hfound.transfer rfl rfl ((hagain hcauses).mono (by simp))
    · rw [← hcause]
      have e : z.escrow.tally = tally := by rw [zrest, yesc']
      rw [e] at hended
      exact hended
  have none_read : WordsRead False y y := WordsRead.refl y
  by_cases hnil : s.escrow.stack = []
  · exact ends .committed False y none_read (chooseNext_of_empty o' y (by rw [ystack, hnil])) (by simp [hnil])
      (by simp [hnil, CommitOutcome.cause])
  obtain ⟨b, hlast⟩ : ∃ b, s.escrow.stack.getLast? = some b := ⟨_, List.getLast?_eq_some_getLast hnil⟩
  by_cases hl : s.restricted .moduleLock = true
  · exact ends (.partial_ .lock) False y none_read (chooseNext_of_locked o' y b (by rw [ystack, hlast]) (by rw [ylock, hl]))
      (by simp [hl]) (by simp [hnil, hl, CommitOutcome.cause])
  replace hl : s.restricted .moduleLock = false := by simpa using hl
  by_cases hym : WordsMatch y
  · have hci : c.intact = false := by
      by_contra hne
      refine hw fun j => ?_
      by_cases hj : j = k
      · rw [hj]; simpa using hne
      · have h1 := hym j
        rw [hfollows.1 hne, entered_intact, if_neg hj] at h1
        exact h1
    have hstop : o'.auditStop = true := by rw [ho']; simp [show (s.position.cassettes.get k).intact = false from hci]
    exact ends (.partial_ .audit) False y none_read
      (chooseNext_of_stopped o' y b (by rw [ystack, hlast]) (by rw [ylock, hl]) hym hstop)
      (by simp [hci]) (by simp [hnil, hl, CommitOutcome.cause])
  · exact ends (.partial_ .audit) (¬WordsMatch y) (verifyCassettes y).2 (verifyCassettes_read y).2
      (chooseNext_of_failed o' y b (by rw [ystack, hlast]) (by rw [ylock, hl]) hym) (by simp [hym, hnil, hl])
      (by simp [hnil, hl, CommitOutcome.cause])

/-- Settles O38: the note off the drum, the notes missed, and the note that enters its cassette. -/
theorem commitDeliversNotes : Obligations.CommitDeliversNotes := by
  unfold Obligations.CommitDeliversNotes
  refine ⟨fun o b above s hrun hq hop hend hstack => ⟨?_, ?_⟩, cassetteEntry_settled,
    fun o k d fit n s hrun _ hop hend hnote hchosen hlost hholds hw ht hroom ha hb =>
      cassetteEntry_failed o k d fit n s hrun hop hend hnote hchosen hlost hholds hw ht hroom ha hb⟩
  · exact fun d fit hnote hchosen hnext => commitExit_settled o b above s hrun hq hop hend hstack d fit hnote hchosen hnext
  · exact drumEmpty_settled o b above s hrun hq hop hend hstack

end Sys2Proof.Machine
end

section
/-! RECONCILE: its checks, its records and the new period. -/
namespace Sys2Proof.Machine

theorem Quad.ext_get {α : Type} {p q : Quad α} (h : ∀ k : Ix, p.get k = q.get k) : p = q := by
  obtain ⟨p1, p2, p3, p4⟩ := p
  obtain ⟨q1, q2, q3, q4⟩ := q
  have h1 := h .i1
  have h2 := h .i2
  have h3 := h .i3
  have h4 := h .i4
  simp only [Quad.get] at h1 h2 h3 h4
  rw [h1, h2, h3, h4]

@[simp] theorem Quad.get_of {α : Type} (f : Ix → α) (k : Ix) : (Quad.of f).get k = f k := by cases k <;> rfl

/-! ## What the custody's bookings touch -/

/-- Only the position, the journal and the pending notices are touched. -/
structure CustodyOnly (s t : State) : Prop where
  rest : t = { s with position := t.position, journal := t.journal, ports := t.ports }
  lines : t.ports.lines = s.ports.lines

theorem CustodyOnly.trans {s t u : State} (h : CustodyOnly s t) (k : CustodyOnly t u) : CustodyOnly s u :=
  ⟨k.rest.trans (congrArg (fun x : State => { x with position := u.position, journal := u.journal, ports := u.ports }) h.rest),
    k.lines.trans h.lines⟩

theorem CustodyOnly.kept {s t : State} (h : CustodyOnly s t) : KeptBut [.position, .journal, .ports] s t := by
  intro b hb
  rw [h.rest]
  cases b
  case position | journal | ports => simp at hb
  all_goals simp [Kept]

theorem writeCassette_only (k : Ix) (c : Cassette) (s : State) : CustodyOnly s (writeCassette k c s) :=
  ⟨by apply rest_of_fields <;> simp, writeCassette_lines k c s⟩

theorem stage_only (d : Draft) (s : State) : CustodyOnly s (stage d s).2 :=
  ⟨by apply rest_of_fields <;> simp, stage_lines d s⟩

theorem stageApplied_only (d : Draft) (s : State) : CustodyOnly s (stageApplied d s).2 :=
  ⟨by apply rest_of_fields <;> simp, stageApplied_lines d s⟩

theorem raiseRestriction_only (s : State) : CustodyOnly s (raiseRestriction s) :=
  ⟨by apply rest_of_fields <;> simp, raiseRestriction_lines s⟩

/-! ## Several records staged together (R160, R162) -/

/-- The records that drafts become from a number on. -/
def recordsFrom (c : Clock) : Nat → List Draft → List Record
  | _, [] => []
  | n, d :: ds => d.record n c :: recordsFrom c (n + 1) ds

theorem recordsFrom_append (c : Clock) (n : Nat) (ds es : List Draft) :
    recordsFrom c n (ds ++ es) = recordsFrom c n ds ++ recordsFrom c (n + ds.length) es := by
  induction ds generalizing n with
  | nil => rfl
  | cons d ds ih => simp only [List.cons_append, recordsFrom, ih, List.length_cons, Nat.add_assoc, Nat.add_comm 1]

@[simp] theorem recordsFrom_length (c : Clock) (n : Nat) (ds : List Draft) : (recordsFrom c n ds).length = ds.length := by
  induction ds generalizing n with
  | nil => rfl
  | cons d ds ih => simp only [recordsFrom, List.length_cons, ih]

theorem recordsFrom_sequences (c : Clock) (n : Nat) (ds : List Draft) :
    (recordsFrom c n ds).map (fun r => r.sequence) = (List.range ds.length).map (fun i => n + i) := by
  induction ds generalizing n with
  | nil => rfl
  | cons d ds ih =>
    simp only [recordsFrom, List.map_cons, ih, List.length_cons, List.range_succ_eq_map, List.map_map, Draft.record]
    congr 1
    exact List.map_congr_left fun i _ => by simp only [Function.comp_apply]; omega

/-- What a record shows of its draft, whatever its number. -/
theorem recordsFrom_map {α : Type} (c : Clock) (g : Record → α) (g' : Draft → α) (h : ∀ d n, g (d.record n c) = g' d) (n : Nat)
    (ds : List Draft) : (recordsFrom c n ds).map g = ds.map g' := by
  induction ds generalizing n with
  | nil => rfl
  | cons d ds ih => simp only [recordsFrom, List.map_cons, h, ih]

theorem mem_recordsFrom (c : Clock) (n : Nat) (ds : List Draft) (r : Record) (h : r ∈ recordsFrom c n ds) :
    ∃ d ∈ ds, ∃ m, r = d.record m c := by
  induction ds generalizing n with
  | nil => simp [recordsFrom] at h
  | cons d ds ih =>
    rcases List.mem_cons.mp h with e | e
    · exact ⟨d, by simp, n, e⟩
    · obtain ⟨d', hd, hm⟩ := ih _ e
      exact ⟨d', by simp [hd], hm⟩

/-- Drafts staged one after the other. -/
def stageEach (ds : List Draft) (s : State) : State := ds.foldl (fun s d => (stage d s).2) s

/-- Records for all of which numbers are left: each takes the next one (R160). -/
theorem stageEach_spec (ds : List Draft) (s : State) (n : Nat) (h : s.journal.next = some n) (hr : n + ds.length ≤ Config.lastSequence) :
    CustodyOnly s (stageEach ds s) ∧ (stageEach ds s).position = s.position ∧
      (stageEach ds s).journal.next = some (n + ds.length) ∧
      (stageEach ds s).journal.staging = s.journal.staging ++ recordsFrom s.clock n ds := by
  induction ds generalizing s n with
  | nil => exact ⟨⟨rfl, rfl⟩, rfl, h, by simp [stageEach, recordsFrom]⟩
  | cons d ds ih =>
    obtain ⟨-, ⟨-, -, -, hst, -, -, -, -, hn⟩, -⟩ := stage_some d s n h
    simp only [List.length_cons] at hr
    rw [show (d.record n s.clock).sequence = n from rfl, if_pos (by omega)] at hn
    have hclock : (stage d s).2.clock = s.clock := by simp
    have hpos : (stage d s).2.position = s.position := by simp
    obtain ⟨i1, i2, i3, i4⟩ := ih (stage d s).2 (n + 1) hn (by omega)
    have hcons : stageEach (d :: ds) s = stageEach ds (stage d s).2 := rfl
    rw [hcons]
    refine ⟨(stage_only d s).trans i1, i2.trans hpos, ?_, ?_⟩
    · rw [i3, List.length_cons]
      congr 1
      omega
    · rw [i4, hst, hclock, List.append_assoc]
      rfl

/-! ## What RECONCILE counts (R25, step 1) -/

/-- A cassette as counted. -/
def State.countedAt (s : State) (c : Counted) (k : Ix) : Cassette :=
  { s.position.cassettes.get k with counts := if s.recorded k then c.vector k else (s.position.cassettes.get k).counts }

/-- The notes of a denomination that a cassette's record held beyond those counted. -/
def State.countedOff (s : State) (c : Counted) (k d : Ix) : Int :=
  if s.recorded k then ((s.position.cassettes.get k).counts.get d : Int) - (c.vector k).get d else 0

theorem countCassette_eq (c : Counted) (s : State) (k : Ix) :
    countCassette c s k =
      { s with
        position :=
          { s.position with
            cassettes := s.position.cassettes.set k (s.countedAt c k)
            discrepancy := Quad.of (fun d => s.position.discrepancy.get d + s.countedOff c k d) } } := by
  unfold countCassette State.countedAt State.countedOff
  by_cases h : s.recorded k = true
  · simp only [h, if_true, State.onPosition, Position.addDiscrepancy, Position.setCassette]
    congr 2
  · simp only [h]
    have h1 : s.position.cassettes.set k (s.position.cassettes.get k) = s.position.cassettes :=
      Quad.ext_get fun l => by
        by_cases e : l = k
        · subst e; simp
        · rw [Quad.get_set_other _ _ _ _ e]
    have h2 : Quad.of (fun d => s.position.discrepancy.get d + 0) = s.position.discrepancy :=
      Quad.ext_get fun d => by simp
    simp only [Bool.false_eq_true, if_false, h1, h2]

/-- Counting one cassette leaves what is to be counted of another. -/
theorem countCassette_other (c : Counted) (s : State) (k l : Ix) (h : l ≠ k) :
    (countCassette c s k).countedAt c l = s.countedAt c l ∧ ∀ d, (countCassette c s k).countedOff c l d = s.countedOff c l d := by
  have hp : (countCassette c s k).position.cassettes.get l = s.position.cassettes.get l := by
    rw [countCassette_eq]; exact Quad.get_set_other _ _ _ _ h
  simp only [State.countedAt, State.countedOff, State.recorded, hp]
  exact ⟨rfl, fun _ => rfl⟩

/-- All four cassettes counted. -/
theorem countCassettes_eq (c : Counted) (s : State) :
    Ix.all.foldl (countCassette c) s =
      { s with
        position :=
          { s.position with
            cassettes := Quad.of (s.countedAt c)
            discrepancy :=
              Quad.of (fun d => s.position.discrepancy.get d + (Ix.all.map (fun k => s.countedOff c k d)).sum) } } := by
  obtain ⟨a2, b2⟩ := countCassette_other c s .i1 .i2 (by decide)
  obtain ⟨a3, b3⟩ := countCassette_other c s .i1 .i3 (by decide)
  obtain ⟨a4, b4⟩ := countCassette_other c s .i1 .i4 (by decide)
  obtain ⟨c3, d3⟩ := countCassette_other c (countCassette c s .i1) .i2 .i3 (by decide)
  obtain ⟨c4, d4⟩ := countCassette_other c (countCassette c s .i1) .i2 .i4 (by decide)
  obtain ⟨e4, f4⟩ := countCassette_other c (countCassette c (countCassette c s .i1) .i2) .i3 .i4 (by decide)
  simp only [Ix.all, List.foldl_cons, List.foldl_nil, List.map_cons, List.map_nil, List.sum_cons, List.sum_nil]
  rw [countCassette_eq c _ .i4, e4, c4, a4]
  simp only [f4, d4, b4]
  rw [countCassette_eq c _ .i3, c3, a3]
  simp only [d3, b3]
  rw [countCassette_eq c _ .i2, a2]
  simp only [b2]
  rw [countCassette_eq c s .i1]
  have hc : (((s.position.cassettes.set .i1 (s.countedAt c .i1)).set .i2 (s.countedAt c .i2)).set .i3 (s.countedAt c .i3)).set .i4
      (s.countedAt c .i4) = Quad.of (s.countedAt c) := Quad.ext_get fun k => by cases k <;> rfl
  simp only [hc, Quad.get_of]
  congr 3
  funext d
  ring

/-! ## The new period (R25, steps 3 to 6) -/

/-- A cassette record as the settlement writes it (R25, steps 3 and 5). -/
def Cassette.settled (r : Cassette) : Cassette :=
  let r := { r with intact := true }
  if r.state = .uncounted then { r with state := r.derivedState } else r.rederive

theorem Cassette.derivedState_derived (c : Cassette) : c.derivedState.derived = true := by
  unfold Cassette.derivedState
  (repeat' split) <;> rfl

theorem Cassette.rederive_intact (c : Cassette) : { c.rederive with intact := true } = ({ c with intact := true } : Cassette).rederive := by
  unfold Cassette.rederive
  by_cases h : c.state.derived = true
  · rw [if_pos h, if_pos h]; rfl
  · rw [if_neg h, if_neg h]

theorem settleCassette_position (s : State) (k : Ix) :
    (settleCassette s k).position =
      { s.position with cassettes := s.position.cassettes.set k (s.position.cassettes.get k).settled } := by
  simp only [settleCassette, writeCassette_position, Cassette.settled]
  by_cases h : (s.position.cassettes.get k).state = .uncounted
  · simp only [h, if_true]
    simp only [Cassette.rederive, Cassette.derivedState_derived, if_true]
    rfl
  · simp only [h, if_false]
    exact congrArg (fun c => { s.position with cassettes := s.position.cassettes.set k c }) (Cassette.rederive_intact _)

theorem settleCassette_only (s : State) (k : Ix) :
    CustodyOnly s (settleCassette s k) ∧ (settleCassette s k).journal = s.journal :=
  ⟨writeCassette_only k _ s, by simp [settleCassette]⟩

/-- All four cassettes settled. -/
theorem settleCassettes_spec (s : State) :
    CustodyOnly s (Ix.all.foldl settleCassette s) ∧ (Ix.all.foldl settleCassette s).journal = s.journal ∧
      (Ix.all.foldl settleCassette s).position =
        { s.position with cassettes := Quad.of (fun k => (s.position.cassettes.get k).settled) } := by
  simp only [Ix.all, List.foldl_cons, List.foldl_nil]
  obtain ⟨h1, j1⟩ := settleCassette_only s .i1
  obtain ⟨h2, j2⟩ := settleCassette_only (settleCassette s .i1) .i2
  obtain ⟨h3, j3⟩ := settleCassette_only (settleCassette (settleCassette s .i1) .i2) .i3
  obtain ⟨h4, j4⟩ := settleCassette_only (settleCassette (settleCassette (settleCassette s .i1) .i2) .i3) .i4
  refine ⟨h1.trans (h2.trans (h3.trans h4)), by rw [j4, j3, j2, j1], ?_⟩
  simp only [settleCassette_position]
  congr 1

/-- The position that a new period opens with (R25, steps 4 to 6). -/
def Position.opened (p : Position) (opening : Quad Nat) : Position :=
  { p with
    flows := { Flows.zero with opening := opening }
    discrepancy := Quad.all 0
    suspectIn := 0
    suspectOut := 0
    drawerA := { p.drawerA with intact := true }
    drawerB := { p.drawerB with intact := true }
    branchCash := { p.branchCash with intact := true }
    causes := Causes.empty
    integrityFault := none
    generation := p.generation + 1 }

theorem openPeriod_eq (s : State) : openPeriod s = { s with position := s.position.opened s.placeCounts } := rfl

theorem raiseRestriction_told (s : State) (p : Port) (hp : p ≠ .m) :
    Told p (.restriction s.alarm.restriction s.position.causes) (raiseRestriction s) := by
  simp only [raiseRestriction, raiseTo, List.foldl_cons, List.foldl_nil]
  cases p
  case m => exact absurd rfl hp
  case a =>
    exact raise_told_other _ _ _ _ _ (raise_told_other _ _ _ _ _ (raise_told _ _ _) (.inl (by decide))) (.inl (by decide))
  case b => exact raise_told_other _ _ _ _ _ (raise_told _ _ _) (.inl (by decide))
  case s => exact raise_told _ _ _

/-! ## An accepted RECONCILE -/

/-- DISCREPANCY with the differences added, the total of R203. -/
def State.reconciledTotal (s : State) (c : Counted) : Quad Int :=
  Quad.of (fun d =>
    s.position.discrepancy.get d + (Ix.all.map (fun k => s.countedOff c k d)).sum +
      ((s.position.reject.get d : Int) - c.reject.get d) + ((s.position.retract.get d : Int) - c.retract.get d))

/-- The places counted (R25, step 1). -/
theorem countPlaces_eq (c : Counted) (s : State) :
    countBins c (Ix.all.foldl (countCassette c) s) =
      { s with
        position :=
          { s.position with
            cassettes := Quad.of (s.countedAt c)
            reject := c.reject
            retract := c.retract
            suspect := c.suspect
            discrepancy := s.reconciledTotal c } } := by
  rw [countCassettes_eq]
  rfl

/-- The drafts of a RECONCILE, the places and last the total (R25, R203). -/
def State.reconcileDrafts (s : State) (c : Counted) : List Draft :=
  s.placeDrafts c ++ [reconcileDraft s 0 (s.reconciledTotal c)]

theorem reconcileDrafts_length (s : State) (c : Counted) : (s.reconcileDrafts c).length = s.reconcileRecords := by
  simp [State.reconcileDrafts, State.placeDrafts, State.reconcileRecords]

/-- A cassette as the new period holds it. -/
def State.settledAt (s : State) (c : Counted) (k : Ix) : Cassette := (s.countedAt c k).settled

/-- The position that an accepted RECONCILE leaves, its closing record's number given (R25). -/
def State.reconciledPosition (s : State) (c : Counted) (n : Nat) : Position :=
  { s.position with
    cassettes := Quad.of (s.settledAt c)
    reject := c.reject
    retract := c.retract
    suspect := c.suspect
    suspectIn := 0
    suspectOut := 0
    discrepancy := Quad.all 0
    flows :=
      { Flows.zero with
        opening :=
          Quad.of (fun d =>
            (Ix.all.map (fun k => (s.settledAt c k).counts.get d)).sum + s.position.transit.get d +
              s.position.pockets.a.get d + s.position.pockets.b.get d + c.reject.get d + c.retract.get d) }
    drawerA := { s.position.drawerA with intact := true }
    drawerB := { s.position.drawerB with intact := true }
    branchCash := { s.position.branchCash with intact := true }
    causes := Causes.empty
    integrityFault := none
    generation := s.position.generation + 1
    lastApplied := n }

/-- The notes of the places as they are settled (R25, step 4). -/
theorem placeCounts_of_settled (s t : State) (c : Counted) (n : Nat) (hs : t.escrow.stack = [])
    (hp : t.position =
      { s.position with
        cassettes := Quad.of (s.settledAt c)
        reject := c.reject
        retract := c.retract
        suspect := c.suspect
        discrepancy := s.reconciledTotal c
        lastApplied := n }) :
    t.position.opened t.placeCounts = s.reconciledPosition c n := by
  have ho : t.placeCounts =
      Quad.of (fun d =>
        (Ix.all.map (fun k => (s.settledAt c k).counts.get d)).sum + s.position.transit.get d + s.position.pockets.a.get d +
          s.position.pockets.b.get d + c.reject.get d + c.retract.get d) := by
    refine Quad.ext_get fun d => ?_
    simp only [State.placeCounts, hp, hs, stackNotes, List.foldr_nil, Ix.all, List.foldl_cons, List.foldl_nil, List.map_cons, List.map_nil,
      List.sum_cons, List.sum_nil, Quad.get_add, Quad.get_zero, Quad.get_of]
    omega
  rw [ho, hp]
  rfl

/-- An accepted RECONCILE whose records all have a number (R25). -/
theorem acceptReconcile_spec (c : Counted) (s : State) (n : Nat) (hs : s.escrow.stack = []) (h : s.journal.next = some n)
    (hr : n + s.reconcileRecords ≤ Config.lastSequence) :
    ∃ t : State,
      acceptReconcile c s = ok (.reconciled (some (n + s.reconcileRecords - 1)) (s.reconciledTotal c)) t ∧ CustodyOnly s t ∧
        t.position = s.reconciledPosition c (n + s.reconcileRecords - 1) ∧
        t.journal.staging = s.journal.staging ++ recordsFrom s.clock n (s.reconcileDrafts c) ∧
        ∀ p : Port, p ≠ .m → Told p (.restriction s.alarm.restriction Causes.empty) t := by
  have hlen := reconcileDrafts_length s c
  simp only [State.reconcileDrafts, List.length_append, List.length_cons, List.length_nil] at hlen
  have hlast : n + s.reconcileRecords - 1 = n + (s.placeDrafts c).length := by omega
  rw [hlast]
  -- the places counted, and their records
  have hcount := countPlaces_eq c s
  generalize hs1 : countBins c (Ix.all.foldl (countCassette c) s) = s1 at hcount
  have o1 : CustodyOnly s s1 := by rw [hcount]; exact ⟨rfl, rfl⟩
  obtain ⟨o2, p2, n2, j2⟩ := stageEach_spec (s.placeDrafts c) s1 n (by rw [hcount]; exact h) (by omega)
  generalize hs2 : stageEach (s.placeDrafts c) s1 = s2 at o2 p2 n2 j2
  have o2 := o1.trans o2
  have d2 : reconcileDraft s2 0 s2.position.discrepancy = reconcileDraft s 0 (s.reconciledTotal c) := by
    rw [p2, hcount, o2.rest]; rfl
  -- the closing record
  obtain ⟨e3, p3, hrec⟩ := stageApplied_recorded (reconcileDraft s 0 (s.reconciledTotal c)) s2 _ n2
  have o3 := o2.trans (stageApplied_only (reconcileDraft s 0 (s.reconciledTotal c)) s2)
  generalize hs3 : (stageApplied (reconcileDraft s 0 (s.reconciledTotal c)) s2).2 = s3 at p3 hrec o3
  obtain ⟨rec, -, ⟨-, -, -, j3, -⟩, -, -, -, hrec⟩ := hrec
  -- the settlement and the new period
  obtain ⟨o4, j4, p4⟩ := settleCassettes_spec s3
  generalize hs4 : Ix.all.foldl settleCassette s3 = s4 at o4 j4 p4
  have o4 := o3.trans o4
  have p4 : s4.position =
      { s.position with
        cassettes := Quad.of (s.settledAt c)
        reject := c.reject
        retract := c.retract
        suspect := c.suspect
        discrepancy := s.reconciledTotal c
        lastApplied := n + (s.placeDrafts c).length } := by
    rw [p4, p3, p2, hcount]
    simp only [Quad.get_of]
    rfl
  have p5 : (openPeriod s4).position = s.reconciledPosition c (n + (s.placeDrafts c).length) :=
    placeCounts_of_settled s s4 c _ (by rw [o4.rest]; exact hs) p4
  have o5 : CustodyOnly s (openPeriod s4) := o4.trans ⟨rfl, rfl⟩
  refine ⟨raiseRestriction (openPeriod s4), ?_, o5.trans (raiseRestriction_only _), ?_, ?_, fun p hp => ?_⟩
  · have e0 : acceptReconcile c s =
        ok (.reconciled (stageApplied (reconcileDraft s2 0 s2.position.discrepancy) s2).1 s2.position.discrepancy)
          (raiseRestriction (openPeriod (Ix.all.foldl settleCassette
            (stageApplied (reconcileDraft s2 0 s2.position.discrepancy) s2).2))) := by
      rw [← hs2, ← hs1]; rfl
    rw [e0, d2, e3, hs3, hs4, p2, hcount]
  · simpa using p5
  · have hclock : s2.clock = s.clock := by rw [o2.rest]
    simp only [raiseRestriction_keeps, openPeriod_eq, j4, j3, j2, hrec, hclock]
    rw [State.reconcileDrafts, recordsFrom_append, List.append_assoc, hcount]
    rfl
  · have ht := raiseRestriction_told (openPeriod s4) p hp
    have ha : (openPeriod s4).alarm = s.alarm := by rw [o5.rest]
    rw [p5, ha] at ht
    exact ht

/-! ## What RECONCILE finds, and the records it leaves -/

theorem WordsRead.only {failed : Prop} {s t : State} (h : WordsRead failed s t) : CustodyOnly s t := by
  have hj : t.journal = s.journal := by rw [h.rest]
  exact ⟨by rw [hj]; exact h.rest, h.lines⟩

/-- Causes and the integrity fault record that reading has changed do not reach the new period. -/
theorem reconciledPosition_congr (c : Counted) (n : Nat) (s x : State)
    (h : x.position = { s.position with causes := x.position.causes, integrityFault := x.position.integrityFault }) :
    x.reconciledPosition c n = s.reconciledPosition c n ∧ x.reconciledTotal c = s.reconciledTotal c ∧
      ∀ k, x.recorded k = s.recorded k := by
  have hc : x.position.cassettes = s.position.cassettes := by rw [h]
  have hr (k : Ix) : x.recorded k = s.recorded k := by simp only [State.recorded, hc]
  have ha (k : Ix) : x.settledAt c k = s.settledAt c k := by simp only [State.settledAt, State.countedAt, hr, hc]
  refine ⟨?_, ?_, hr⟩
  · unfold State.reconciledPosition
    rw [show x.settledAt c = s.settledAt c from funext ha, h]
  · simp only [State.reconciledTotal, State.countedOff, hr, hc]
    rw [h]

theorem reconcileDrafts_congr (c : Counted) (s x : State) (hs : x.settings = s.settings)
    (h : x.position = { s.position with causes := x.position.causes, integrityFault := x.position.integrityFault }) :
    x.reconcileDrafts c = s.reconcileDrafts c := by
  obtain ⟨-, ht, hr⟩ := reconciledPosition_congr c 0 s x h
  simp only [State.reconcileDrafts, State.placeDrafts, reconcileDraft, ht, hs, show x.recorded = s.recorded from funext hr]
  rw [h]

theorem mem_reconcileDrafts (c : Counted) (s : State) (d : Draft) (h : d ∈ s.reconcileDrafts c) :
    d.kind = .reconcile ∧ d.port = none ∧ d.outcome = 1 := by
  simp only [State.reconcileDrafts, State.placeDrafts, List.mem_append, List.mem_map, List.mem_cons, List.not_mem_nil, or_false] at h
  rcases h with (⟨k, -, rfl⟩ | rfl | rfl | rfl) | rfl <;> exact ⟨rfl, rfl, rfl⟩

/-- What a RECONCILE record shows of its place (R25, R203). -/
theorem reconcileDrafts_places (c : Counted) (s : State) :
    (s.reconcileDrafts c).map (fun d => (d.extra, d.counts, recordAmount d.amount)) =
      (Ix.all.filter s.recorded).map
          (fun j => (j.number, differences (s.position.cassettes.get j).counts (c.vector j),
            recordAmount (valueOfInt s.settings.denominations
              (differences (s.position.cassettes.get j).counts (c.vector j))))) ++
        [(5, differences s.position.reject c.reject,
            recordAmount (valueOfInt s.settings.denominations (differences s.position.reject c.reject))),
          (6, differences s.position.retract c.retract,
            recordAmount (valueOfInt s.settings.denominations (differences s.position.retract c.retract))),
          (7, ⟨(s.position.suspect : Int) - c.suspect, 0, 0, 0⟩, 0),
          (0, s.reconciledTotal c, recordAmount (valueOfInt s.settings.denominations (s.reconciledTotal c)))] := by
  simp only [State.reconcileDrafts, State.placeDrafts, List.map_append, List.map_map, List.map_cons, List.map_nil, List.append_assoc,
    List.cons_append, List.nil_append]
  rfl

/-- With room for n records their numbers are left (R161, R162). -/
theorem numbers_left (j : Journal) (n k atOnce : Nat) (h : j.roomCheck k atOnce = none) (hn : j.next = some n) :
    n + k ≤ Config.lastSequence := by
  unfold Journal.roomCheck at h
  split at h
  · simp at h
  · rename_i hroom
    have hu : j.room ≤ Config.lastSequence + 1 - n := by
      simp only [Journal.room, Journal.unassigned, hn]
      exact Nat.min_le_right _ _
    simp only [Config.eventReserve, Config.lastSequence] at *
    omega

/-- RECONCILE at its owning block: the checks of R24 in order, the words read from the fifth on. -/
theorem reconcileOwner_of (f : Frame) (s : State) (h : Taken .reconcile f s) :
    let x := reached .reconcile f s
    reconcileOwner f.operands x =
      if s.claim.owner.ownedBy .s = false then refuse .notClaimed x
      else if s.otherOpInFlight .s = true then refuse .busy x
      else if s.escrow.stack ≠ [] then refuse .escrowNotEmpty x
      else if s.anyOpInFlight = true ∨ (s.dispense .a).state ≠ .idle ∨ (s.dispense .b).state ≠ .idle then refuse .busy x
      else if s.path.state = .jammed then refuse .jammed x
      else reconcileCounted (countedOf f.operands) (verifyCassettes x).2 := by
  intro x
  obtain ⟨o1, o2, o3⟩ := ownershipCheck_of s .s
  have k := reached_keeps .reconcile f s h
  have hd (t : Teller) : (reached .reconcile f s).dispense t = s.dispense t := by simp only [State.dispense, k]
  simp only [reconcileOwner, State.anyOperation, x, hd, reached_ownershipCheck .reconcile f s h, reached_anyOpInFlight .reconcile f s h, k,
    Bool.or_eq_true, bne_iff_ne, or_assoc]
  by_cases hown : s.claim.owner.ownedBy .s = false
  · rw [o1 hown, if_pos hown]
  rw [if_neg hown]
  by_cases hbusy : s.otherOpInFlight .s = true
  · rw [o2 hown hbusy, if_pos hbusy]
  rw [o3 hown hbusy, if_neg hbusy]

/-- RECONCILE from its fifth check on, whatever the words read show. -/
theorem reconcileCounted_settled (f : Frame) (s : State) (h : Taken .reconcile f s)
    (ho : reconcileOwner f.operands (reached .reconcile f s) =
      reconcileCounted (countedOf f.operands) (verifyCassettes (reached .reconcile f s)).2)
    (hstack : s.escrow.stack = []) :
    let c := countedOf f.operands
    let k := s.reconcileRecords
    let refuses (why : Reason) (results : Results) : Prop :=
      (WordsMatch s → Refuses (.reconcile f) .reconcile f why results s) ∧
        (¬WordsMatch s →
          ∃ t : State, exec (.reconcile f) s = .next t ∧ Answers .reconcile f .refused (some why) results s t ∧
            KeptBut [.position] s t ∧ IntegrityFound s t)
    if s.itemsComplete c = false then refuses .length .none
    else if s.countedInRange c = false then refuses .range .none
    else
      (∀ why : Reason, s.journal.roomCheck k k = some why → refuses why s.journal.roomFigures) ∧
      ∀ n : Nat, RoomFor k k s → s.journal.next = some n →
        Replies (.reconcile f) .reconcile f .ok (.reconciled (some (n + k - 1)) (s.reconciledTotal c)) [.position, .journal] s
          (fun t =>
            t.position = s.reconciledPosition c (n + k - 1) ∧
              t.journal.staging = s.journal.staging ++ recordsFrom s.clock n (s.reconcileDrafts c) ∧
              ∀ p : Port, p ≠ .m → Told p (.restriction s.alarm.restriction Causes.empty) t) := by
  intro c k refuses
  have kept := reached_keeps .reconcile f s h
  have hp : (reached .reconcile f s).position = s.position := by simp only [kept]
  obtain ⟨-, hw⟩ := verifyCassettes_read (reached .reconcile f s)
  have hfail : ¬WordsMatch (reached .reconcile f s) ↔ ¬WordsMatch s := by simp only [WordsMatch, hp]
  replace hw := hw.congr hfail
  generalize hx : (verifyCassettes (reached .reconcile f s)).2 = x at hw ho
  have only := hw.only
  have hpos := hw.records
  rw [hp] at hpos
  have hcas : x.position.cassettes = s.position.cassettes := by rw [hpos]
  have hset : x.settings = s.settings := by rw [only.rest]; simp only [kept]
  have hjour : x.journal = s.journal := by rw [hw.rest]; simp only [kept]
  have hclock : x.clock = s.clock := by rw [only.rest]; simp only [kept]
  have hesc : x.escrow = s.escrow := by rw [only.rest]; simp only [kept]
  have halarm : x.alarm = s.alarm := by rw [only.rest]; simp only [kept]
  obtain ⟨-, htotal, hrec⟩ := reconciledPosition_congr c 0 s x hpos
  have refused (why : Reason) (res : Results) (e : reconcileCounted c x = (.reply .refused (some why) res, x)) : refuses why res := by
    refine ⟨fun hm => ?_, fun hm => ?_⟩
    · have hxs := hw.fine (not_not_intro hm)
      rw [hxs] at e ho
      exact refuses_of (.reconcile f) .reconcile f (fun _ => reconcileOwner f.operands) why res s rfl h rfl (ho.trans e)
    · exact refusedFindingPlain_of _ _ f (fun _ => reconcileOwner f.operands) _ s x rfl h rfl (ho.trans e) hw hm
  have hitems : x.itemsComplete c = s.itemsComplete c := by simp only [State.itemsComplete, hrec]
  have hrange : x.countedInRange c = s.countedInRange c := by simp only [State.countedInRange, hrec, hcas, hset]
  have hk : x.reconcileRecords = k := by
    simp only [State.reconcileRecords, k, show x.recorded = s.recorded from funext hrec]
  have hc : reconcileCounted c x =
      if s.itemsComplete c = false then refuse .length x
      else if s.countedInRange c = false then refuse .range x
      else withRoom k k x (acceptReconcile c x) := by
    simp only [reconcileCounted, hitems, hrange, hk]
  by_cases hi : s.itemsComplete c = false
  · rw [if_pos hi] at hc ⊢
    exact refused _ _ hc
  rw [if_neg hi] at hc ⊢
  by_cases hr : s.countedInRange c = false
  · rw [if_pos hr] at hc ⊢
    exact refused _ _ hc
  rw [if_neg hr] at hc ⊢
  refine ⟨fun why hwhy => refused _ _ ?_, fun n hroom hn => ?_⟩
  · rw [hc]
    simp only [withRoom, hjour, hwhy, refuseWith, Journal.roomFigures]
  rw [withRoom, hjour, show s.journal.roomCheck k k = none from hroom] at hc
  obtain ⟨t, et, hto, htp, htj, htt⟩ := acceptReconcile_spec c x n (by rw [hesc]; exact hstack) (by rw [hjour]; exact hn)
    (by rw [hk]; exact numbers_left s.journal n k k hroom hn)
  rw [hk, htotal] at et
  rw [hk, (reconciledPosition_congr c _ s x hpos).1] at htp
  rw [hjour, hclock, reconcileDrafts_congr c s x hset hpos] at htj
  have onlyT := only.trans hto
  have hready : t.startUp.phase = .ready := by rw [onlyT.rest]; exact reached_ready .reconcile f s h
  have hkept : KeptBut [.position, .journal] (reached .reconcile f s) t :=
    keptBut_without_ports onlyT.kept (kept_ports_of_lines _ _ onlyT.lines) (by simp)
  refine replies_with _ _ f (fun _ => reconcileOwner f.operands) _ _ _ s t _ rfl h ((ho.trans hc).trans et)
    (quiet_of_kept _ _ _ (reached_quiet .reconcile f s h) hkept (by simp) (by simp) (by simp)) hready onlyT.lines
    (((reached_kept .reconcile f s h rfl).mono (by simp)).trans hkept) fun u hu hn => ⟨?_, ?_, fun p hm => ?_⟩
  · rw [show u.position = _ from hu .position (by simp), htp]
  · rw [show u.journal = _ from hu .journal (by simp), htj]
  · have ht := htt p hm
    rw [halarm] at ht
    exact hn _ _ ht (by simp [Notice.kind])

/-- Settles O31: the checks of R24 one after the other, and the six steps of R25. -/
theorem reconcileOpensPeriod : Obligations.ReconcileOpensPeriod := by
  unfold Obligations.ReconcileOpensPeriod
  intro f s h c k refuses
  have ho := reconcileOwner_of f s h
  simp only [] at ho
  have refused (why : Reason)
      (e : reconcileOwner f.operands (reached .reconcile f s) = refuse why (reached .reconcile f s)) :
      Refuses (.reconcile f) .reconcile f why .none s :=
    refuses_of (.reconcile f) .reconcile f (fun _ => reconcileOwner f.operands) why .none s rfl h rfl e
  by_cases c1 : s.claim.owner.ownedBy .s = false
  · rw [if_pos c1]; exact refused _ (ho.trans (if_pos c1))
  rw [if_neg c1] at ho ⊢
  by_cases c2 : s.otherOpInFlight .s = true
  · rw [if_pos c2]; exact refused _ (ho.trans (if_pos c2))
  rw [if_neg c2] at ho ⊢
  by_cases c3 : s.escrow.stack ≠ []
  · rw [if_pos c3]; exact refused _ (ho.trans (if_pos c3))
  rw [if_neg c3] at ho ⊢
  by_cases c4 : s.anyOpInFlight = true ∨ (s.dispense .a).state ≠ .idle ∨ (s.dispense .b).state ≠ .idle
  · rw [if_pos c4]; exact refused _ (ho.trans (if_pos c4))
  rw [if_neg c4] at ho ⊢
  by_cases c5 : s.path.state = .jammed
  · rw [if_pos c5]; exact refused _ (ho.trans (if_pos c5))
  rw [if_neg c5] at ho ⊢
  have key := reconcileCounted_settled f s h ho (not_not.mp c3)
  simp only [] at key
  by_cases c6 : s.itemsComplete c = false
  · rw [if_pos c6] at key ⊢; exact key
  rw [if_neg c6] at key ⊢
  by_cases c7 : s.countedInRange c = false
  · rw [if_pos c7] at key ⊢; exact key
  rw [if_neg c7] at key ⊢
  refine ⟨key.1, fun n hroom hn => ?_⟩
  obtain ⟨t, et, ha, hk, hpos, hst, htold⟩ := key.2 n hroom hn
  refine ⟨t, et, ha, hk, hpos, ⟨_, hst, ?_, fun r hr => ?_, ?_, ?_⟩, htold⟩
  · rw [recordsFrom_length, reconcileDrafts_length]; rfl
  · obtain ⟨d, hd, m, rfl⟩ := mem_recordsFrom _ _ _ _ hr
    obtain ⟨e1, e2, e3⟩ := mem_reconcileDrafts c s d hd
    exact ⟨e1, e2, e3, rfl, rfl⟩
  · exact (recordsFrom_map _ _ _ (fun _ _ => rfl) n _).trans (reconcileDrafts_places c s)
  · rw [recordsFrom_sequences, reconcileDrafts_length]; rfl

end Sys2Proof.Machine
end

section
/-! A zone that changes, and what follows: the level, the set and its reports, the sounder, the ALARM record, ALARM_CHANGE. -/
namespace Sys2Proof.Machine

/-! ## ALARM_CHANGE at the end of a step (R154) -/

/-- ALARM_CHANGE carries what the unit shows, the mark of a due one apart. -/
theorem alarmNotice_congr (s t : State) (h : { t.alarm with changed := false } = { s.alarm with changed := false }) :
    t.alarmNotice = s.alarmNotice := by
  simp only [AlarmUnit.mk.injEq] at h
  obtain ⟨h1, h2, h3, h4, h5, h6, -⟩ := h
  have hz (z : Fin 16) : t.zone z = s.zone z := AlarmUnit.zone_of_zones h1 z
  have hz' (z : Fin 16) : t.alarm.zone z = s.alarm.zone z := hz z
  simp only [State.alarmNotice, hz, AlarmUnit.summary, AlarmUnit.bypassSet, AlarmUnit.troubleSet, hz', h2, h3, h4, h5, h6]

/-- A change in the alarm unit is told to port M when the step ends. -/
theorem settle_alarmNotice (s : State) (h : Quiet s) (hp : s.powered = true) (hc : s.alarm.changed = true) :
    Told .m (settle s).alarmNotice (settle s) := by
  have hn : (settle s).alarmNotice = s.alarmNotice := by
    refine alarmNotice_congr _ _ ?_
    have e := settle_keeps_quiet s h hp .alarm (by simp)
    simp only [Kept] at e
    exact congrArg (fun u : AlarmUnit => { u with changed := false }) e
  rw [hn, settle_quiet s h hp]
  have hx : (rewriteDisplay (watchIdle s)).alarm = s.alarm := by simp
  have hy : (State.onAlarm (rewriteDisplay (watchIdle s)) fun u => { u with changed := false }).alarmNotice = s.alarmNotice :=
    alarmNotice_congr _ _ (by simp)
  have h1 : Told .m s.alarmNotice (flushAlarm (rewriteDisplay (watchIdle s))) := by
    unfold flushAlarm raiseAlarmChange
    rw [hx, if_pos hc, hy]
    exact raise_told _ _ _
  unfold pumpAll
  exact pump_told _ _ _ _ (pump_told _ _ _ _ (pump_told _ _ _ _ (pump_told _ _ _ _ h1)))

/-! ## The set computed anew (R151, R153) -/

/-- Nothing is there for MODULE_LOCK to stop (R55, R103, R109, R158). -/
def NothingToStop (s : State) : Prop :=
  s.startUp.phase ≠ .ready ∨
    (s.claim.waiting = [] ∧ s.claim.owner ≠ .portA ∧ s.claim.owner ≠ .portB ∧
      (s.escrow.op = none ∨ ∃ o : CommitOp, s.escrow.op = some (.commit o)))

theorem lockClaim_of_nothing (s : State) (hw : s.claim.waiting = []) (ha : s.claim.owner ≠ .portA) (hb : s.claim.owner ≠ .portB) :
    lockClaim s = s := by
  have hs : ({ s with claim := { s.claim with waiting := [] } } : State) = s := by rw [← hw]
  unfold lockClaim
  rw [hw]
  simp only [emptyWaiting, hs]
  cases ho : s.claim.owner with
  | portA => exact absurd ho ha
  | portB => exact absurd ho hb
  | portS | hold | none => rfl

theorem lockEntered_of_nothing (s : State) (h : NothingToStop s) : lockEntered s = s := by
  unfold lockEntered
  split
  · rename_i hr
    obtain ⟨hw, ha, hb, ho⟩ := h.resolve_left (not_not_intro hr)
    rw [lockClaim_of_nothing s hw ha hb]
    unfold lockEscrow
    rcases ho with ho | ⟨o, ho⟩ <;> rw [ho]
  · rfl

/-- What the level and the set computed anew leave, where MODULE_LOCK stops nothing. -/
structure Recomputed (s t : State) : Prop where
  rest : t = { s with alarm := t.alarm, depository := t.depository, ports := t.ports }
  lines : t.ports.lines = s.ports.lines
  level : t.alarm.level = s.alarm.activeLevel
  set : t.alarm.restriction = s.alarm.latchedEffects
  silent :
    t.alarm.silentLine =
      if s.alarm.latchedEffects = s.alarm.restriction then s.alarm.silentLine else s.alarm.latchedEffects.has .silentLine
  sounder :
    t.alarm.sounder = (s.alarm.sounder && !(s.alarm.restriction.has .sounder && !s.alarm.latchedEffects.has .sounder))
  timer :
    t.alarm.sounderTimer =
      if s.alarm.restriction.has .sounder && !s.alarm.latchedEffects.has .sounder then none else s.alarm.sounderTimer
  changed : s.alarm.changed = true → t.alarm.changed = true
  reported : SetReported s.alarm.latchedEffects s t
  calm : s.alarm.latchedEffects = s.alarm.restriction → t.depository = s.depository ∧ t.ports = s.ports
  tells : Tells [.restriction] s t

theorem recomputeLevel_eq (s : State) :
    ∃ b : Bool, (s.alarm.changed = true → b = true) ∧
      recomputeLevel s = { s with alarm := { s.alarm with level := s.alarm.activeLevel, changed := b } } := by
  unfold recomputeLevel
  by_cases h : s.alarm.activeLevel = s.alarm.level
  · exact ⟨s.alarm.changed, id, by rw [if_pos h, h]⟩
  · exact ⟨true, fun _ => rfl, by rw [if_neg h]; rfl⟩

theorem raiseRestriction_rest (s : State) : raiseRestriction s = { s with ports := (raiseRestriction s).ports } := by
  have k := raiseRestriction_keeps s
  generalize raiseRestriction s = t at k
  cases t; cases s
  simp_all

/-- The unit with a new set, the sounder off where SOUNDER has left it (R153, R155, R156). -/
def AlarmUnit.restricted (u : AlarmUnit) (after : Effects) : AlarmUnit :=
  let stops := u.restriction.has .sounder && !after.has .sounder
  { u with
    restriction := after
    silentLine := after.has .silentLine
    sounder := u.sounder && !stops
    sounderTimer := if stops then none else u.sounderTimer }

/-- The envelope controller once the set is `after` (R118). -/
def State.slotJudged (s : State) (after : Effects) : Depository :=
  if after.has .slotClose ≠ s.restricted .slotClose then
    s.depository.judged
      (decide (s.depository.bin.count < s.settings.binCapacity) && !after.has .slotClose && s.depository.supervisorOpen)
  else s.depository

/-- The open permit under a set (R118). -/
theorem permit_of_set (s x : State) (after : Effects) (h1 : x.alarm.restriction = after) (h2 : x.settings = s.settings)
    (h3 : x.depository = s.depository) :
    x.permit =
      (decide (s.depository.bin.count < s.settings.binCapacity) && !after.has .slotClose && s.depository.supervisorOpen) := by
  simp only [State.permit, State.permitFailures, State.restricted, h1, h2, h3]
  by_cases hb : s.settings.binCapacity ≤ s.depository.bin.count
  · simp [hb, Nat.not_lt.mpr hb]
  · simp [hb, Nat.lt_of_not_le hb]

/-- The ports once a new set is reported. -/
def State.setTold (s : State) (after : Effects) : Ports :=
  (raiseRestriction (s.onAlarm fun u => { u with restriction := after, silentLine := after.has .silentLine })).ports

/-- A new set, where MODULE_LOCK stops nothing: reported, the permit judged, the sounder off (R118, R153, R155, R156). -/
theorem newRestriction_eq (after : Effects) (s : State) (h : LockStopsNothing after s) :
    newRestriction s.alarm.restriction after s =
      { s with alarm := s.alarm.restricted after, depository := s.slotJudged after, ports := s.setTold after } := by
  have hx : raiseRestriction (s.onAlarm fun u => { u with restriction := after, silentLine := after.has .silentLine }) =
      { s with
        alarm := { s.alarm with restriction := after, silentLine := after.has .silentLine }, ports := s.setTold after } :=
    raiseRestriction_rest _
  unfold newRestriction
  simp only [hx]
  generalize hy : ({ s with
    alarm := { s.alarm with restriction := after, silentLine := after.has .silentLine }, ports := s.setTold after } : State) = y
  have hlock : (if (after.has .moduleLock && !s.alarm.restriction.has .moduleLock) = true then lockEntered y else y) = y := by
    split
    · rename_i hl
      simp only [Bool.and_eq_true, Bool.not_eq_true'] at hl
      exact lockEntered_of_nothing y (by rw [← hy]; exact h hl.1 hl.2)
    · rfl
  rw [hlock]
  have hperm : y.permit = _ := permit_of_set s y after (by rw [← hy]) (by rw [← hy]) (by rw [← hy])
  have hjudge : (if (after.has .slotClose != s.alarm.restriction.has .slotClose) = true then judgePermit y else y) =
      { y with depository := s.slotJudged after } := by
    have hd : y.depository = s.depository := by rw [← hy]
    by_cases c : after.has .slotClose ≠ s.restricted .slotClose
    · rw [if_pos (by simpa [State.restricted] using c), judgePermit_spec, hperm, hd, State.slotJudged, if_pos c]
    · rw [if_neg (by simpa [State.restricted] using c), State.slotJudged, if_neg c, ← hd]
  rw [hjudge, ← hy]
  cases hs : (s.alarm.restriction.has .sounder && !after.has .sounder)
  · simp [AlarmUnit.restricted, hs]
  · simp [AlarmUnit.restricted, hs, sounderOff, State.onAlarm]

theorem depositoryIs_of_eq (d : Depository) (t : State) (h : t.depository = d) : DepositoryIs d t := by
  rw [← h]; rfl

theorem setTold_told (s : State) (after : Effects) (p : Port) (hp : p ≠ .m) (t : State) (ht : t.ports = s.setTold after) :
    Told p (.restriction after s.position.causes) t :=
  told_of_ports _ _ _ _ (raiseRestriction_told _ p hp) ht

theorem setTold_tells (s : State) (after : Effects) (t : State) (ht : t.ports = s.setTold after) : Tells [.restriction] s t :=
  ((tells_of_ports (t := s.onAlarm fun u => { u with restriction := after, silentLine := after.has .silentLine }) _ rfl).trans
    (tells_raiseRestriction _)).trans (tells_of_ports _ ht)

/-- The level and the set computed anew, where MODULE_LOCK stops nothing (R151, R153). -/
theorem recompute_spec (s : State) (h : LockStopsNothing s.alarm.latchedEffects s) : Recomputed s (recompute s) := by
  obtain ⟨b, hb, hl⟩ := recomputeLevel_eq s
  unfold recompute
  rw [hl]
  have hlatched : ({ s.alarm with level := s.alarm.activeLevel, changed := b } : AlarmUnit).latchedEffects =
    s.alarm.latchedEffects := rfl
  simp only [hlatched]
  by_cases e : s.alarm.latchedEffects = s.alarm.restriction
  · simp only [e, if_true]
    refine ⟨rfl, rfl, rfl, e.symm, by simp [e], by simp [e], by simp [e], hb, ⟨fun hn => absurd e hn, ?_⟩, fun _ => ⟨rfl, rfl⟩,
      tells_of_ports _ rfl⟩
    simp [e, State.restricted, DepositoryIs]
  · simp only [e, if_false]
    generalize hy : ({ s with alarm := { s.alarm with level := s.alarm.activeLevel, changed := b } } : State) = y
    have hr : s.alarm.restriction = y.alarm.restriction := by rw [← hy]
    rw [hr, newRestriction_eq _ y (by rw [← hy]; exact h), ← hy]
    refine ⟨rfl, ?_, rfl, rfl, by simp [e, AlarmUnit.restricted], rfl, rfl, hb, ⟨fun _ p hp => ?_, ?_⟩, fun hn => absurd hn e, ?_⟩
    · exact raiseRestriction_lines _
    · exact setTold_told _ _ p hp _ rfl
    · exact depositoryIs_of_eq _ _ rfl
    · exact (tells_of_ports (s := s) (t := { s with alarm := { s.alarm with level := s.alarm.activeLevel, changed := b } }) _ rfl).trans
        (setTold_tells _ _ _ rfl)

end Sys2Proof.Machine
end

section
/-! A momentary raise of a zone: what its activation and its restore leave (R142 to R144, R151 to R157). -/
namespace Sys2Proof.Machine

/-! ## What the zones give -/

/-- The level and the set where the zones are alike in what they read. -/
theorem AlarmUnit.derived_congr (u v : AlarmUnit)
    (h : ∀ z, (u.zone z).state.pending = (v.zone z).state.pending ∧ (u.zone z).state.latched = (v.zone z).state.latched ∧
      (u.zone z).config = (v.zone z).config) :
    u.activeLevel = v.activeLevel ∧ u.latchedEffects = v.latchedEffects := by
  have hp (z) : (u.zone z).state.pending = (v.zone z).state.pending := (h z).1
  have hl (z) : (u.zone z).state.latched = (v.zone z).state.latched := (h z).2.1
  have hc (z) : (u.zone z).config = (v.zone z).config := (h z).2.2
  simp only [AlarmUnit.activeLevel, AlarmUnit.latchedEffects, hp, hl, hc, and_self]

theorem AlarmUnit.derived_of_zones (u v : AlarmUnit) (h : u.zones = v.zones) :
    u.activeLevel = v.activeLevel ∧ u.latchedEffects = v.latchedEffects :=
  AlarmUnit.derived_congr _ _ fun z => by simp only [AlarmUnit.zone_of_zones h z, and_self]

/-- One zone's record replaced by one that gives the same level and effects. -/
theorem AlarmUnit.derived_setZone (u : AlarmUnit) (z : Fin 16) (q r : Zone) (hp : q.state.pending = r.state.pending)
    (hl : q.state.latched = r.state.latched) (hc : q.config = r.config) :
    (u.setZone z q).activeLevel = (u.setZone z r).activeLevel ∧ (u.setZone z q).latchedEffects = (u.setZone z r).latchedEffects := by
  refine AlarmUnit.derived_congr _ _ fun y => ?_
  by_cases e : y = z
  · subst e; simp only [AlarmUnit.zone_setZone_self]; exact ⟨hp, hl, hc⟩
  · simp only [AlarmUnit.zone_setZone_other _ _ _ _ e, and_self]

/-! ## A zone's new record, and what follows from it -/

/-- Zone z's record is r, the sounder as an entry to PENDING_ACTIVE leaves it where snd says so; the level and the set stand as they
were. Records may have been written, notices raised and delays extended. -/
structure ZoneSetTo (z : Fin 16) (r : Zone) (snd : Bool) (s x : State) : Prop where
  rest : x = { s with alarm := x.alarm, journal := x.journal, dispenses := x.dispenses, ports := x.ports }
  lines : x.ports.lines = s.ports.lines
  alarm : x.alarm =
    { s.alarm.setZone z r with
      sounder := s.alarm.sounder || snd, sounderTimer := if snd then some 300 else s.alarm.sounderTimer, changed := x.alarm.changed }
  tells : Tells [.journalHigh] s x

/-- What follows from a zone's new record has followed (R151, R153, R155, R156). -/
structure ZoneFollowed (z : Fin 16) (r : Zone) (snd : Bool) (s y : State) : Prop where
  rest : y = { s with
    alarm := y.alarm, journal := y.journal, dispenses := y.dispenses, depository := y.depository, ports := y.ports }
  lines : y.ports.lines = s.ports.lines
  alarm : AlarmIs (s.alarm.follows snd (s.alarm.setZone z r)) y
  reported : SetReported (s.alarm.setZone z r).latchedEffects s y
  tells : Tells [.restriction, .journalHigh] s y
  calm : (s.alarm.setZone z r).latchedEffects = s.alarm.restriction → Tells [.journalHigh] s y

theorem LockStopsNothing.congr {after : Effects} {s t : State} (h : LockStopsNothing after s)
    (hs : t.startUp = s.startUp) (hc : t.claim = s.claim) (he : t.escrow = s.escrow) (hr : t.alarm.restriction = s.alarm.restriction) :
    LockStopsNothing after t := by
  simpa only [LockStopsNothing, State.restricted, hs, hc, he, hr] using h

theorem SetReported.congr {after : Effects} {s x y : State} (h : SetReported after x y) (hr : x.alarm.restriction = s.alarm.restriction)
    (hd : x.depository = s.depository) (hs : x.settings = s.settings) (hp : x.position = s.position) : SetReported after s y := by
  unfold SetReported State.restricted at *
  rw [hr, hd, hs, hp] at h
  exact h

/-- The level and the set computed anew after a zone's record was set. -/
theorem ZoneSetTo.recompute {z : Fin 16} {r : Zone} {snd : Bool} {s x : State} (hd : AlarmDerived s) (h : ZoneSetTo z r snd s x)
    (hl : LockStopsNothing (s.alarm.setZone z r).latchedEffects s) :
    ZoneFollowed z r snd s (recompute x) ∧ (recompute x).journal = x.journal ∧ (recompute x).dispenses = x.dispenses ∧
      (x.alarm.changed = true → (recompute x).alarm.changed = true) := by
  obtain ⟨-, hset, hsilent⟩ := hd
  have hxl : x.alarm.latchedEffects = (s.alarm.setZone z r).latchedEffects := by rw [h.alarm]; rfl
  have hxa : x.alarm.activeLevel = (s.alarm.setZone z r).activeLevel := by rw [h.alarm]; rfl
  have hxr : x.alarm.restriction = s.alarm.restriction := by rw [h.alarm]; rfl
  have hxs : x.alarm.silentLine = s.alarm.silentLine := by rw [h.alarm]; rfl
  have hxo : x.alarm.sounder = (s.alarm.sounder || snd) := by rw [h.alarm]
  have hxt : x.alarm.sounderTimer = if snd then some 300 else s.alarm.sounderTimer := by rw [h.alarm]
  have hxz : x.alarm.zones = (s.alarm.setZone z r).zones := by rw [h.alarm]
  have hxd : x.alarm.armed = s.alarm.armed := by rw [h.alarm]; rfl
  have hxm : x.alarm.monitorTimer = s.alarm.monitorTimer := by rw [h.alarm]; rfl
  have spec := recompute_spec x (by
    rw [hxl]; exact hl.congr (by rw [h.rest]) (by rw [h.rest]) (by rw [h.rest]) hxr)
  obtain ⟨kz, kd, km⟩ := recompute_zones x
  generalize Machine.recompute x = y at spec kz kd km
  have hj : y.journal = x.journal := by rw [spec.rest]
  have hdi : y.dispenses = x.dispenses := by rw [spec.rest]
  refine ⟨⟨?_, spec.lines.trans h.lines, ?_, ?_, (h.tells.mono (by simp)).trans (spec.tells.mono (by simp)),
    fun e => h.tells.trans (tells_of_ports _ (spec.calm (by rw [hxl, hxr, e])).2)⟩, hj, hdi, spec.changed⟩
  · rw [hj, hdi]
    exact spec.rest.trans (congrArg (fun x' : State => { x' with
      alarm := y.alarm, journal := x.journal, dispenses := x.dispenses, depository := y.depository, ports := y.ports }) h.rest)
  · have l1 := spec.level
    have l2 := spec.set
    have l3 := spec.silent
    have l4 := spec.sounder
    have l5 := spec.timer
    rw [hxa] at l1
    rw [hxl] at l2 l3 l4 l5
    rw [hxr] at l3 l4 l5
    rw [hxs] at l3
    rw [hxo] at l4
    rw [hxt] at l5
    rw [hxz] at kz
    rw [hxd] at kd
    rw [hxm] at km
    have l3' : y.alarm.silentLine = (s.alarm.setZone z r).latchedEffects.has .silentLine := by
      rw [l3, hsilent]
      split
      · rename_i e; rw [e, hset]
      · rfl
    simp only [AlarmIs, AlarmUnit.follows]
    generalize y.alarm = u at *
    cases u
    simp_all
  · rw [← hxl]
    exact spec.reported.congr hxr (by rw [h.rest]) (by rw [h.rest]) (by rw [h.rest])

/-- A zone's record set to one that gives the same level and effects: nothing follows. -/
theorem ZoneSetTo.quiet {z : Fin 16} {r : Zone} {s x : State} (hd : AlarmDerived s) (h : ZoneSetTo z r false s x)
    (hp : r.state.pending = (s.zone z).state.pending) (hl : r.state.latched = (s.zone z).state.latched)
    (hc : r.config = (s.zone z).config) : ZoneFollowed z r false s x := by
  obtain ⟨hlevel, hset, hsilent⟩ := hd
  obtain ⟨h1, h2⟩ := AlarmUnit.derived_setZone s.alarm z r (s.alarm.zone z) hp hl hc
  rw [AlarmUnit.setZone_same] at h1 h2
  have hxd : x.depository = s.depository := by rw [h.rest]
  refine ⟨?_, h.lines, ?_, ⟨fun hn => absurd (by rw [h2, hset]) hn, ?_⟩, h.tells.mono (by simp), fun _ => h.tells⟩
  · rw [hxd]; exact h.rest
  · simp only [AlarmIs, AlarmUnit.follows, h1, h2, ← hset, ← hlevel]
    rw [h.alarm]
    simp [hsilent, hset, AlarmUnit.setZone]
  · rw [h2, ← hset]
    simp [State.restricted, DepositoryIs, hxd]

/-! ## The restore that follows an activation (R142, R144) -/

/-- A zone in PENDING_ACTIVE is restored: the level and the set stay. -/
theorem ZoneFollowed.restored {z : Fin 16} {r : Zone} {snd : Bool} {s y : State} (h : ZoneFollowed z r snd s y)
    (hr : r.state = .pendingActive) :
    ZoneFollowed z { r with state := .pendingRestored } snd s (restore z y) ∧ (restore z y).journal = y.journal ∧
      (restore z y).dispenses = y.dispenses ∧ (restore z y).alarm.changed = true := by
  have ha := h.alarm
  simp only [AlarmIs, AlarmUnit.follows, AlarmUnit.mk.injEq] at ha
  obtain ⟨az, aa, al, ar, as, ao, at_, am, -⟩ := ha
  have hz : y.zone z = r := (AlarmUnit.zone_of_zones az z).trans (AlarmUnit.zone_setZone_self _ _ _)
  obtain ⟨d1, d2⟩ := AlarmUnit.derived_setZone s.alarm z { r with state := .pendingRestored } r (by rw [hr]; rfl) (by rw [hr]; rfl) rfl
  have he : restore z y = recompute { y with
      alarm := { y.alarm.setZone z { r with state := .pendingRestored } with changed := true } } := by
    unfold restore
    rw [hz, hr]
    simp only []
    unfold setZoneState
    rw [hz, hr, if_neg (by decide)]
    simp only [markChanged, onZone, State.onAlarm]
    rw [show y.alarm.zone z = r from hz]
  rw [he]
  generalize hx : ({ y with alarm := { y.alarm.setZone z { r with state := .pendingRestored } with changed := true } } : State) = x
  have hxa : x.alarm = { y.alarm.setZone z { r with state := .pendingRestored } with changed := true } := by rw [← hx]
  have hxz : x.alarm.zones = (s.alarm.setZone z { r with state := .pendingRestored }).zones := by
    rw [hxa]
    exact (AlarmUnit.setZone_zones az z _).trans (by rw [AlarmUnit.setZone_setZone])
  obtain ⟨x1, x2⟩ := AlarmUnit.derived_of_zones _ _ hxz
  have hxr : x.alarm.restriction = y.alarm.restriction := by rw [hxa]; rfl
  have hsame : x.alarm.latchedEffects = x.alarm.restriction := by rw [x2, d2, hxr, ar]
  have spec := recompute_spec x (fun h1 h2 => by
    rw [hsame] at h1
    exact absurd h1 (by simpa [State.restricted] using h2))
  obtain ⟨kz, kd, km⟩ := recompute_zones x
  generalize recompute x = t at spec kz kd km
  obtain ⟨td, tp⟩ := spec.calm hsame
  have hj : t.journal = y.journal := by rw [spec.rest, ← hx]
  have hdi : t.dispenses = y.dispenses := by rw [spec.rest, ← hx]
  have hdep : t.depository = y.depository := by rw [td, ← hx]
  have hports : t.ports = y.ports := by rw [tp, ← hx]
  refine ⟨⟨?_, by rw [hports]; exact h.lines, ?_, ?_, h.tells.trans (tells_of_ports _ hports),
    fun e => (h.calm (by rw [← d2, e])).trans (tells_of_ports _ hports)⟩, hj, hdi,
    spec.changed (by rw [hxa])⟩
  · rw [hj, hdi, hdep, hports]
    refine spec.rest.trans ?_
    rw [← hx, hdep, hports]
    exact congrArg (fun y' : State => { y' with
      alarm := t.alarm, journal := y.journal, dispenses := y.dispenses, depository := y.depository, ports := y.ports }) h.rest
  · have l1 := spec.level
    have l2 := spec.set
    have l3 := spec.silent
    have l4 := spec.sounder
    have l5 := spec.timer
    simp only [hsame, if_true, Bool.and_not_self, Bool.not_false, Bool.and_true, Bool.false_eq_true, if_false] at l3 l4 l5
    rw [x1, d1] at l1
    rw [x2, d2] at l2
    rw [hxz] at kz
    rw [hxa] at kd km l3 l4 l5
    simp only [AlarmIs, AlarmUnit.follows, d1, d2]
    generalize t.alarm = u at *
    cases u
    simp_all [AlarmUnit.setZone]
  · rw [d2]
    obtain ⟨p1, p2⟩ := h.reported
    refine ⟨fun hn p hp => told_of_ports _ _ _ _ (p1 hn p hp) hports, ?_⟩
    simpa only [DepositoryIs, hdep] using p2

/-! ## A zone latches (R143, R145) -/

/-- A zone's record once it has latched (R143). -/
def Zone.latchedAt (r : Zone) (now : Word32) : Zone :=
  { r with state := .pendingActive, entryTimer := none, marked := none, lastActivation := now }

/-- The delays that a zone's latching extends (R75). -/
def DelaysExtended (caps : Bool) (s y : State) : Prop :=
  ∀ w : Teller,
    y.dispense w =
      if caps = true ∧ (s.dispense w).state = .delaying ∧ (s.dispense w).extended = false ∧ (s.dispense w).ending = false then
        { s.dispense w with
          delayEnd := (s.dispense w).delayEnd + BitVec.ofNat 32 s.settings.holdupExtension, extended := true }
      else s.dispense w

/-- A zone's latching caps or halts dispensing (R75). -/
def Zone.caps (r : Zone) : Bool := r.config.effects.has .dispenseCap || r.config.effects.has .dispenseHalt

theorem reportHoldup_extends (z : Fin 16) (s : State) : DelaysExtended (s.zone z).caps s (reportHoldup z s) := by
  intro w
  unfold reportHoldup
  simp only [Zone.caps, Bool.or_eq_true]
  by_cases h : (s.zone z).config.effects.has .dispenseCap = true ∨ (s.zone z).config.effects.has .dispenseHalt = true
  · rw [if_pos h]
    simp only [h, true_and]
    cases w <;> rfl
  · rw [if_neg h]
    simp only [h, false_and, if_false]

/-- The record of a zone's latching (R157). -/
def LatchRecorded (z : Fin 16) (r : Zone) (port : Option Port) (entry : Bool) (level : Nat) (s y : State) : Prop :=
  EventWritten
    (fun x =>
      x.kind = .alarm ∧ x.port = port ∧ x.outcome = 1 ∧ x.marks.entry = entry ∧ x.counts = ⟨r.config.level, level, 0, 0⟩ ∧
        x.amount = 0 ∧ x.extra = z.val)
    s y

theorem EventWritten.transfer {holds : Record → Prop} {s s' t t' : State} (h : EventWritten holds s t)
    (hs : s'.journal = s.journal) (hc : s'.clock = s.clock) (ht : t'.journal = t.journal) : EventWritten holds s' t' := by
  obtain ⟨h1, h2⟩ := h
  refine ⟨fun hr n hn => ?_, fun hr => ?_⟩
  · rw [hs] at hr hn
    exact (h1 hr n hn).transfer hs hc ht
  · rw [hs] at hr ⊢
    rw [ht, h2 hr]

/-- A zone's state and then other fields of its record changed. -/
theorem onZone_marked (z : Fin 16) (f g : Zone → Zone) (s : State) :
    onZone z g (markChanged (onZone z f s)) =
      { s with alarm := { s.alarm.setZone z (g (f (s.zone z))) with changed := true } } := by
  have hz : (markChanged (onZone z f s)).alarm.zone z = f (s.zone z) := AlarmUnit.zone_setZone_self s.alarm z (f (s.zone z))
  have hset (r : Zone) : (markChanged (onZone z f s)).alarm.setZone z r = { s.alarm.setZone z r with changed := true } := by
    have e := AlarmUnit.setZone_setZone s.alarm z (f (s.zone z)) r
    exact congrArg (fun u : AlarmUnit => { u with changed := true }) e
  have he : onZone z g (markChanged (onZone z f s)) =
      { markChanged (onZone z f s) with
        alarm := (markChanged (onZone z f s)).alarm.setZone z (g ((markChanged (onZone z f s)).alarm.zone z)) } := rfl
  rw [he, hz, hset]
  rfl

/-- The sounder at an entry to PENDING_ACTIVE (R156). -/
theorem soundFor_eq (z : Fin 16) (s : State) :
    let snd := (s.zone z).config.effects.has .sounder
    soundFor z s = { s with
      alarm := { s.alarm with
        sounder := s.alarm.sounder || snd, sounderTimer := if snd then some 300 else s.alarm.sounderTimer } } := by
  unfold soundFor
  cases h : (s.zone z).config.effects.has .sounder
  · simp
  · simp [State.onAlarm, Config.sounderTime]

/-- The draft of a zone's ALARM record (R157). -/
def alarmDraft (z : Fin 16) (port : Option Port) (entry : Bool) (own level : Nat) : Draft :=
  { kind := .alarm, port := port, outcome := 1, marks := { entry := entry }, counts := ⟨own, level, 0, 0⟩, extra := z.val }

theorem latch_set (z : Fin 16) (port : Option Port) (entry : Bool) (s : State) (hn : (s.zone z).state ≠ .pendingActive) :
    let r := (s.zone z).latchedAt s.clock.count
    ∃ x : State, latch z port entry s = recompute x ∧ ZoneSetTo z r (r.config.effects.has .sounder) s x ∧
      LatchRecorded z r port entry (s.alarm.setZone z r).activeLevel s x ∧ DelaysExtended r.caps s x ∧ x.alarm.changed = true := by
  intro r
  have ha : onZone z
      (fun q => { q with entryTimer := none, marked := none, lastActivation := (setZoneState z .pendingActive s).clock.count })
      (setZoneState z .pendingActive s) = { s with alarm := { s.alarm.setZone z r with changed := true } } := by
    unfold setZoneState
    rw [if_neg hn]
    exact onZone_marked z _ _ s
  generalize hb : ({ s with alarm := { s.alarm.setZone z r with changed := true } } : State) = b at ha
  have hbz : b.zone z = r := by rw [← hb]; exact AlarmUnit.zone_setZone_self s.alarm z r
  let d : Draft := alarmDraft z port entry r.config.level (s.alarm.setZone z r).activeLevel
  have k := eventRecord_keeps d b
  have hl := eventRecord_lines d b
  have ht := tells_eventRecord d b
  have hw := eventRecord_written d b
    (fun x => x.kind = .alarm ∧ x.port = port ∧ x.outcome = 1 ∧ x.marks.entry = entry ∧
      x.counts = ⟨r.config.level, (s.alarm.setZone z r).activeLevel, 0, 0⟩ ∧ x.amount = 0 ∧ x.extra = z.val)
    (fun n => ⟨rfl, rfl, rfl, rfl, rfl, rfl, rfl⟩)
  have he : latch z port entry s = recompute (reportHoldup z (soundFor z (eventRecord d b).2)) := by
    have hd : alarmDraft z port entry (b.zone z).config.level b.alarm.activeLevel = d := by
      rw [hbz, ← hb]; rfl
    rw [← hd]
    unfold latch
    simp only [ha]
    rfl
  generalize hc : (eventRecord d b).2 = c at k hl ht hw he
  have hcz : c.zone z = r := by
    rw [show c.zone z = b.zone z by simp only [State.zone, k]]
    exact hbz
  have hcr : c = { b with journal := c.journal, ports := c.ports } := by
    clear * - k
    cases c; cases b
    simp_all
  have hs := soundFor_eq z c
  simp only [hcz] at hs
  generalize hse : soundFor z c = e at hs he
  have hez : e.zone z = r := by rw [hs]; exact hcz
  have hx := reportHoldup_extends z e
  have kx := reportHoldup_keeps z e
  generalize reportHoldup z e = x at hx kx he
  rw [hez] at hx
  have hxr : x = { e with dispenses := x.dispenses } := by
    clear * - kx
    cases x; cases e
    simp_all
  have hxa : x.alarm = { s.alarm.setZone z r with
      sounder := s.alarm.sounder || r.config.effects.has .sounder
      sounderTimer := if r.config.effects.has .sounder then some 300 else s.alarm.sounderTimer
      changed := true } := by
    rw [hxr, hs, hcr, ← hb]
    rfl
  have hxj : x.journal = c.journal := by rw [hxr, hs]
  have hxp : x.ports = c.ports := by rw [hxr, hs]
  have hbp : b.ports = s.ports := by rw [← hb]
  refine ⟨x, he, ⟨?_, ?_, ?_, ?_⟩, ?_, ?_, by rw [hxa]⟩
  · refine hxr.trans ?_
    rw [hxj, hxp, hxa]
    rw [hs, hcr, ← hb]
    rfl
  · rw [hxp, hl, hbp]
  · rw [hxa]
  · exact (tells_of_ports (t := b) _ hbp).trans ((ht.mono (by simp)).trans (tells_of_ports _ hxp))
  · exact hw.transfer (by rw [← hb]) (by rw [← hb]) hxj
  · intro w
    have hed (w : Teller) : e.dispense w = s.dispense w := by rw [hs, hcr, ← hb]; rfl
    have hes : e.settings = s.settings := by rw [hs, hcr, ← hb]
    have := hx w
    rw [hed, hes] at this
    exact this

/-! ## A zone that moves -/

/-- Before the step ends, zone z has moved as ZoneMoved says. -/
structure ZoneMoves (z : Fin 16) (r : Zone) (entered fresh entry : Bool) (port : Option Port) (s y : State) : Prop where
  followed : ZoneFollowed z r (entered && Effects.has r.config.effects .sounder) s y
  recorded : fresh = true → LatchRecorded z r port entry (s.alarm.setZone z r).activeLevel s y
  unrecorded : fresh = false → y.journal = s.journal
  delays : DelaysExtended (fresh && r.caps) s y
  changed : r.state ≠ (s.zone z).state ∨ r.trouble ≠ (s.zone z).trouble → y.alarm.changed = true

theorem delaysExtended_false (s y : State) (h : y.dispenses = s.dispenses) : DelaysExtended false s y := fun w => by
  simp [State.dispense, h]

theorem zoneSetTo_self (z : Fin 16) (s : State) : ZoneSetTo z (s.zone z) false s s :=
  ⟨rfl, rfl, by rw [State.zone, AlarmUnit.setZone_same]; simp, tells_of_ports _ rfl⟩

/-- A zone whose record does not change. -/
theorem zoneMoves_self (z : Fin 16) (entered : Bool) (entry : Bool) (port : Option Port) (s : State) (hd : AlarmDerived s)
    (he : entered = false) : ZoneMoves z (s.zone z) entered false entry port s s := by
  subst he
  exact ⟨(zoneSetTo_self z s).quiet hd rfl rfl rfl, by simp, fun _ => rfl, by simpa using delaysExtended_false s s rfl, by simp⟩

/-- A zone's state changes, and nothing of it follows but the level and the set. -/
theorem zoneMoves_state (z : Fin 16) (x : ZoneState) (entry : Bool) (port : Option Port) (s : State) (hd : AlarmDerived s)
    (hx : (s.zone z).state ≠ x) (hl : LockStopsNothing (s.alarm.setZone z { s.zone z with state := x }).latchedEffects s) :
    ZoneMoves z { s.zone z with state := x } false false entry port s (recompute (setZoneState z x s)) := by
  have he : setZoneState z x s = { s with alarm := { s.alarm.setZone z { s.zone z with state := x } with changed := true } } := by
    unfold setZoneState
    rw [if_neg hx]
    rfl
  have hset : ZoneSetTo z { s.zone z with state := x } false s (setZoneState z x s) := by
    rw [he]
    exact ⟨rfl, rfl, by simp [AlarmUnit.setZone], tells_of_ports _ rfl⟩
  obtain ⟨h1, h2, h3, h4⟩ := hset.recompute hd hl
  refine ⟨h1, by simp, fun _ => by rw [h2, he], ?_, fun _ => h4 (by rw [he])⟩
  simpa using delaysExtended_false s _ (by rw [h3, he])

/-- A restore (R144). -/
theorem restore_moves (z : Fin 16) (entry : Bool) (port : Option Port) (s : State) (hd : AlarmDerived s)
    (hl : LockStopsNothing (s.alarm.setZone z (s.zone z).restored).latchedEffects s) :
    ZoneMoves z (s.zone z).restored false false entry port s (restore z s) := by
  unfold restore
  unfold Zone.restored at hl ⊢
  cases h : (s.zone z).state <;> simp only [h] at hl ⊢
  case quiet | entryTiming | pendingRestored => exact zoneMoves_self z false entry port s hd rfl
  case pendingActive => exact zoneMoves_state z _ entry port s hd (by rw [h]; decide) hl
  case ackedActive => exact zoneMoves_state z _ entry port s hd (by rw [h]; decide) hl

/-- An entry to PENDING_ACTIVE followed by a restore. -/
theorem zoneMoves_entered (z : Fin 16) (r : Zone) (fresh entry : Bool) (port : Option Port) (s x : State) (hd : AlarmDerived s)
    (hr : r.state = .pendingActive) (hx : ZoneSetTo z r (r.config.effects.has .sounder) s x)
    (hw : fresh = true → LatchRecorded z r port entry (s.alarm.setZone z r).activeLevel s x)
    (hj : fresh = false → x.journal = s.journal) (he : DelaysExtended (fresh && r.caps) s x)
    (hl : LockStopsNothing (s.alarm.setZone z { r with state := .pendingRestored }).latchedEffects s) :
    ZoneMoves z { r with state := .pendingRestored } true fresh entry port s (restore z (recompute x)) := by
  obtain ⟨d1, d2⟩ := AlarmUnit.derived_setZone s.alarm z { r with state := .pendingRestored } r (by rw [hr]; rfl) (by rw [hr]; rfl) rfl
  rw [d2] at hl
  obtain ⟨f1, j1, e1, -⟩ := hx.recompute hd hl
  obtain ⟨f2, j2, e2, c2⟩ := f1.restored hr
  refine ⟨f2, fun hf => ?_, fun hf => j2.trans (j1.trans (hj hf)), ?_, fun _ => c2⟩
  · rw [d1]
    exact (hw hf).transfer rfl rfl (j2.trans j1)
  · intro w
    have := he w
    rw [State.dispense, e2, e1]
    exact this

/-- What a taken activation makes of an eligible zone that is not latched, but for an entry timing (R143). -/
theorem Zone.activated_quiet (r : Zone) (armed : Bool) (delay : Nat) (now : Word32) (port : Option Port) (h : r.state = .quiet)
    (hn : ¬(r.config.type = .intrusionDelayed ∧ armed = true)) : r.activated armed delay now port = r.latchedAt now := by
  unfold Zone.activated
  rw [h]
  simp only [if_neg hn]
  rfl

/-- A momentary raise of a zone whose input is NORMAL (R142). -/
theorem momentary_moves (z : Fin 16) (port : Option Port) (s : State) (hd : AlarmDerived s) (hi : (s.zone z).inputActive = false) :
    let r := s.zone z
    let raised : Zone :=
      if s.alarm.eligible z then r.activated s.alarm.armed s.settings.entryDelay s.clock.count port else r
    let entered : Bool := raised.state == .pendingActive && r.state != .pendingActive
    LockStopsNothing (s.alarm.setZone z raised.restored).latchedEffects s →
      ZoneMoves z raised.restored entered (entered && r.state == .quiet) false port s (momentary z port s) := by
  intro r raised entered hl
  have hm : momentary z port s = restore z (activate z port s) := by
    unfold momentary
    rw [if_neg (by simp [hi])]
  rw [hm]
  -- the zone is not activated: its record stays until the restore
  have plain (hr : raised = r) (ha : activate z port s = s) :
      ZoneMoves z raised.restored entered (entered && r.state == .quiet) false port s (restore z (activate z port s)) := by
    have hent : entered = false := by simp [entered, hr]
    rw [hr] at hl
    rw [hent, hr, ha]
    exact restore_moves z false port s hd hl
  by_cases hel : s.alarm.eligible z = true
  case neg =>
    exact plain (if_neg hel) (by unfold activate; rw [if_neg hel])
  have hraised : raised = r.activated s.alarm.armed s.settings.entryDelay s.clock.count port := if_pos hel
  cases hst : r.state with
  | entryTiming | pendingActive | ackedActive =>
    have hsz : (s.zone z).state = _ := hst
    rw [hst] at plain
    exact plain (by rw [hraised]; unfold Zone.activated; rw [hst]) (by unfold activate; rw [if_pos hel, hsz])
  | pendingRestored =>
    have hsz : (s.zone z).state = _ := hst
    have hr0 : raised = { r with state := .pendingActive } := by rw [hraised]; unfold Zone.activated; rw [hst]
    have hent : entered = true := by simp [entered, hr0, hst]
    have ha : activate z port s = recompute (soundFor z (setZoneState z .pendingActive s)) := by
      unfold activate; rw [if_pos hel, hsz]
    rw [hent, hr0, ha]
    rw [hr0] at hl
    have he : setZoneState z .pendingActive s =
        { s with alarm := { s.alarm.setZone z { r with state := .pendingActive } with changed := true } } := by
      unfold setZoneState
      rw [hsz, if_neg (by decide)]
      rfl
    have hzone : (setZoneState z .pendingActive s).zone z = { r with state := .pendingActive } := by
      rw [he]; exact AlarmUnit.zone_setZone_self _ _ _
    have hsf := soundFor_eq z (setZoneState z .pendingActive s)
    simp only [hzone] at hsf
    rw [he] at hsf
    refine zoneMoves_entered z { r with state := .pendingActive } false false port s _ hd rfl ?_ (by simp) (fun _ => ?_) ?_ hl
    · rw [he, hsf]
      exact ⟨rfl, rfl, rfl, tells_of_ports _ rfl⟩
    · rw [he, hsf]
    · rw [he, hsf]
      exact delaysExtended_false s _ rfl
  | quiet =>
    have hsz : (s.zone z).state = _ := hst
    by_cases hent : r.config.type = .intrusionDelayed ∧ s.alarm.armed = true
    · have hr0 : raised = { r with state := .entryTiming, entryTimer := some s.settings.entryDelay, marked := port } := by
        rw [hraised]; unfold Zone.activated; rw [hst]; simp only [if_pos hent]
      have hno : entered = false := by simp [entered, hr0]
      have ha : activate z port s =
          setZoneState z .entryTiming (onZone z (fun r => { r with entryTimer := some s.settings.entryDelay, marked := port }) s) := by
        unfold activate; rw [if_pos hel, hsz]; exact if_pos hent
      have he : activate z port s = { s with alarm := { s.alarm.setZone z raised with changed := true } } := by
        rw [ha, hr0]
        unfold setZoneState
        rw [onZone_zone_self, if_neg (by simp [hsz])]
        simp only [markChanged, onZone, State.onAlarm, AlarmUnit.zone_setZone_self, AlarmUnit.setZone_setZone]
        rfl
      have hz : (activate z port s).zone z = raised := by rw [he]; exact AlarmUnit.zone_setZone_self _ _ _
      have hres : restore z (activate z port s) = activate z port s := by
        unfold restore; rw [hz, hr0]
      have hrr : raised.restored = raised := by rw [hr0]; rfl
      rw [hno, hres, hrr]
      have hset : ZoneSetTo z raised false s (activate z port s) := by
        rw [he]
        exact ⟨rfl, rfl, by simp [AlarmUnit.setZone], tells_of_ports _ rfl⟩
      refine ⟨hset.quiet hd ?_ ?_ ?_, by simp, fun _ => by rw [he], by simpa using delaysExtended_false s _ (by rw [he]),
        fun _ => by rw [he]⟩
      · rw [hr0, hsz]; rfl
      · rw [hr0, hsz]; rfl
      · rw [hr0]
    · have hr0 : raised = r.latchedAt s.clock.count := by rw [hraised]; exact Zone.activated_quiet r _ _ _ _ hst hent
      have hyes : entered = true := by simp [entered, hr0, hst, Zone.latchedAt]
      have ha : activate z port s = latch z port false s := by
        unfold activate; rw [if_pos hel, hsz]; exact if_neg hent
      obtain ⟨x, hx, hset, hw, he, -⟩ := latch_set z port false s (by rw [hsz]; decide)
      have hfresh : (entered && (ZoneState.quiet == ZoneState.quiet)) = true := by rw [hyes]; rfl
      rw [hfresh, hyes, hr0, ha, hx]
      rw [hr0] at hl
      exact zoneMoves_entered z (r.latchedAt s.clock.count) true false port s x hd rfl hset (fun _ => hw) (by simp)
        (by simpa using he) hl

/-! ## At the end of the step -/

theorem DepositoryIs.settled {d : Depository} {y t : State} (h : DepositoryIs d y) (hk : KeptBut [] y t) : DepositoryIs d t := by
  have hd := hk .depository (by simp)
  simp only [Kept] at hd
  have e := congrArg (fun x : Depository => { x with display := d.display }) hd
  exact Eq.trans e h

theorem AlarmIs.settled {u : AlarmUnit} {y t : State} (h : AlarmIs u y) (hk : KeptBut [] y t) : AlarmIs u t := by
  have ha := hk .alarm (by simp)
  simp only [Kept] at ha
  have e := congrArg (fun x : AlarmUnit => { x with changed := u.changed }) ha
  exact Eq.trans e h

theorem SetReported.settled {after : Effects} {s y t : State} (h : SetReported after s y) (hk : KeptBut [] y t)
    (hn : ∀ p n, Told p n y → n.kind ≠ .alarmChange → Told p n t) : SetReported after s t := by
  obtain ⟨h1, h2⟩ := h
  refine ⟨fun hne p hp => hn _ _ (h1 hne p hp) (by simp [Notice.kind]), h2.settled hk⟩

/-- A zone that has moved before the step ends has moved when it ends. -/
theorem ZoneMoves.settled {z : Fin 16} {r : Zone} {entered fresh entry : Bool} {port : Option Port} {s y t : State}
    (h : ZoneMoves z r entered fresh entry port s y) (hk : KeptBut [] y t)
    (hn : ∀ p n, Told p n y → n.kind ≠ .alarmChange → Told p n t) (hc : y.alarm.changed = true → Told .m t.alarmNotice t) :
    ZoneMoved z r entered fresh entry port s t := by
  have hj : t.journal = y.journal := hk .journal (by simp)
  have hdi : t.dispenses = y.dispenses := hk .dispenses (by simp)
  refine ⟨h.followed.alarm.settled hk, ?_, fun w => ?_, h.followed.reported.settled hk hn, fun hx => hc (h.changed hx)⟩
  · cases hfr : fresh
    · exact hj.trans (h.unrecorded hfr)
    · exact (h.recorded hfr).transfer rfl rfl hj
  · have hd := h.delays w
    rw [State.dispense, hdi]
    cases fresh
    · simpa [State.dispense] using hd
    · refine hd.trans ?_
      rw [Bool.true_and]
      simp only [true_and]
      rfl

end Sys2Proof.Machine
end

section
/-! The cassette sensors: removal with and without release, insertion. -/
namespace Sys2Proof.Machine

/-! ## When nothing waits -/

/-- Nothing waits where the dispenses wait for the same, the module's state and draw are as they were, and the escrow operation in flight is its port's. -/
theorem quiet_of_alike (s t : State) (h : Quiet s)
    (hd : ∀ w, (t.dispense w).state = (s.dispense w).state ∧ (t.dispense w).deferred = (s.dispense w).deferred ∧
      (t.dispense w).ending = (s.dispense w).ending)
    (hps : t.path.state = s.path.state) (hpd : t.path.draw = s.path.draw) (ho : t.escrow.op.map (fun o => o.port) = s.escrow.op.map (fun o => o.port)) : Quiet t := by
  have hstate (w : Teller) : (t.dispenses.get w).state = (s.dispenses.get w).state := (hd w).1
  have hop (p : Port) : t.opInFlight p = s.opInFlight p := by
    unfold State.opInFlight State.dispenseInFlight
    simp only [hstate]
    cases ht : t.escrow.op <;> cases hs : s.escrow.op <;> simp_all
  intro w
  obtain ⟨h1, h2⟩ := h w
  obtain ⟨e1, e2, e3⟩ := hd w
  refine ⟨by rw [e1, e2, hop]; exact h1, fun hr => ?_⟩
  rw [hps]
  exact h2 (by simpa only [State.retractWaits, e1, e3, hpd] using hr)

/-- The escrow record once a cassette on a commit's way is gone (R112). -/
def Escrow.lostAt (e : Escrow) (k : Ix) : Escrow :=
  { e with
    op :=
      match e.op with
      | some (.commit o) => some (.commit { o with lost := o.lost || o.chosen == some k })
      | other => other }

theorem loseDestination_eq (k : Ix) (s : State) : loseDestination k s = { s with escrow := s.escrow.lostAt k } := rfl

theorem Escrow.lostAt_port (e : Escrow) (k : Ix) : (e.lostAt k).op.map (fun o => o.port) = e.op.map (fun o => o.port) := by
  unfold Escrow.lostAt
  cases h : e.op with
  | none => rfl
  | some o => cases o <;> rfl

/-- No lock stops a commit (R113). -/
theorem LockStopsNothing.lostAt {after : Effects} {s x : State} (k : Ix) (h : LockStopsNothing after s)
    (hs : x.startUp = s.startUp) (hc : x.claim = s.claim) (he : x.escrow = s.escrow.lostAt k)
    (hr : x.alarm.restriction = s.alarm.restriction) : LockStopsNothing after x := by
  intro h1 h2
  have := h h1 (by simpa only [State.restricted, hr] using h2)
  rw [hs, hc, he]
  refine this.imp_right fun ⟨a, b, c, d⟩ => ⟨a, b, c, ?_⟩
  rcases d with d | ⟨o, d⟩
  · exact .inl (by simp only [Escrow.lostAt, d])
  · exact .inr ⟨_, by simp only [Escrow.lostAt, d]; rfl⟩

/-! ## An event record with its number applied (R13, R163) -/

theorem eventApplied_position (d : Draft) (s : State) :
    (eventApplied d s).2.position =
      { s.position with
        lastApplied := if s.journal.eventRoom then s.journal.next.getD s.position.lastApplied else s.position.lastApplied } := by
  have e : (eventApplied d s).2 = applyTo (eventRecord d s).1 (eventRecord d s).2 := rfl
  rw [e]
  cases h : s.journal.eventRoom
  · rw [eventRecord_lost d s h]
    simp [applyTo]
  · rw [eventRecord_room d s h]
    obtain ⟨n, hn⟩ := next_of_eventRoom s.journal h
    rw [(stage_some d s n hn).1]
    simp [applyTo, State.onPosition, hn]

theorem eventApplied_written (d : Draft) (s : State) (holds : Record → Prop) (h : ∀ n : Nat, holds (d.record n s.clock)) :
    EventWritten holds s (eventApplied d s).2 := by
  refine (eventRecord_written d s holds h).transfer rfl rfl ?_
  unfold eventApplied
  simp

theorem eventApplied_only (d : Draft) (s : State) : CustodyOnly s (eventApplied d s).2 :=
  ⟨by apply rest_of_fields <;> simp, eventApplied_lines d s⟩

theorem writeCassetteAs_only (k : Ix) (c : Cassette) (s : State) : CustodyOnly s (writeCassetteAs k c s) :=
  ⟨by apply rest_of_fields <;> simp, writeCassetteAs_lines k c s⟩

theorem onPosition_only (g : Position → Position) (s : State) : CustodyOnly s (s.onPosition g) := ⟨rfl, rfl⟩

theorem addCause_only (c : AuditCause) (s : State) : CustodyOnly s (addCause c s) :=
  ⟨by apply rest_of_fields <;> simp, addCause_lines c s⟩

/-! ## The removal's bookings (R20, R22) -/

/-- A removed cassette's record (R20, R22). -/
def Cassette.gone (c : Cassette) : Cassette := { c with counts := Quad.zero, state := .absent, pickFailed := false }

theorem emptyRecord_spec (k : Ix) (s : State) (hi : (s.position.cassettes.get k).intact = true) :
    CustodyOnly s (emptyRecord k s) ∧ (emptyRecord k s).journal = s.journal ∧
      (emptyRecord k s).position =
        { s.position with cassettes := s.position.cassettes.set k (s.position.cassettes.get k).gone } := by
  refine ⟨writeCassetteAs_only _ _ _, by simp [emptyRecord], ?_⟩
  rw [emptyRecord, writeCassetteAs_position]
  simp [Cassette.gone, hi]

/-- A RELEASED cassette is removed (R20). -/
theorem removeReleased_spec (k : Ix) (n : Nat) (s : State) (hi : (s.position.cassettes.get k).intact = true)
    (hr : s.journal.eventRoom = true) (hn : s.journal.next = some n) :
    let c := s.position.cassettes.get k
    CustodyOnly s (removeReleased k s) ∧
      (removeReleased k s).position =
        { s.position with
          cassettes := s.position.cassettes.set k c.gone
          flows := { s.position.flows with unloaded := Quad.add s.position.flows.unloaded c.counts }
          generation := s.position.generation + 1
          lastApplied := n } ∧
      Recorded n
        (fun r => r.kind = .unload ∧ r.port = none ∧ r.counts = c.counts.toInt ∧ r.amount = recordAmount (s.value c.counts) ∧
          r.extra = k.number)
        s (removeReleased k s) := by
  intro c
  let x := s.onPosition (fun p => { p with flows := { p.flows with unloaded := Quad.add p.flows.unloaded c.counts } })
  obtain ⟨o1, j1, p1⟩ := emptyRecord_spec k x hi
  have o2 : CustodyOnly s (bumpGeneration (emptyRecord k x)) := ((onPosition_only _ s).trans o1).trans (onPosition_only _ _)
  let d : Draft :=
    { kind := .unload, counts := c.counts.toInt, amount := (bumpGeneration (emptyRecord k x)).value c.counts, extra := k.number }
  have he : removeReleased k s = (eventApplied d (bumpGeneration (emptyRecord k x))).2 := rfl
  have hv : (bumpGeneration (emptyRecord k x)).value c.counts = s.value c.counts := by rw [o2.rest]; rfl
  have hj : (bumpGeneration (emptyRecord k x)).journal = s.journal := j1
  have hc : (bumpGeneration (emptyRecord k x)).clock = s.clock := by rw [o2.rest]
  rw [he]
  refine ⟨o2.trans (eventApplied_only _ _), ?_, ?_⟩
  · rw [eventApplied_position, hj, hr, hn]
    simp only [bumpGeneration, State.onPosition_position, p1]
    rfl
  · have hw := (eventApplied_written d (bumpGeneration (emptyRecord k x))
      (fun r => r.kind = .unload ∧ r.port = none ∧ r.counts = c.counts.toInt ∧ r.amount = recordAmount (s.value c.counts) ∧
        r.extra = k.number)
      (fun m => ⟨rfl, rfl, rfl, by rw [← hv]; rfl, rfl⟩)).transfer hj.symm hc.symm rfl
    exact hw.1 hr n hn

/-- What the store books of a removal without release, before zone 3 is raised (R22). -/
def bookUnreleased (k : Ix) (s : State) : State :=
  let counts := (s.position.cassettes.get k).counts
  let s := bumpGeneration (addCause .unauthorisedRemoval (emptyRecord k (s.onPosition (fun p => p.addDiscrepancy counts.toInt))))
  (eventApplied { kind := .removal, counts := counts.toInt, amount := s.value counts, extra := k.number } s).2

theorem removeUnreleased_eq (k : Ix) (s : State) : removeUnreleased k s = momentary 3 none (bookUnreleased k s) := rfl

theorem bookUnreleased_spec (k : Ix) (s : State) (hi : (s.position.cassettes.get k).intact = true) :
    let c := s.position.cassettes.get k
    let causes : Causes := { s.position.causes with unauthorisedRemoval := true }
    CustodyOnly s (bookUnreleased k s) ∧
      (bookUnreleased k s).position =
        { s.position with
          cassettes := s.position.cassettes.set k c.gone
          discrepancy := Quad.zip (fun (a : Int) (n : Nat) => a + n) s.position.discrepancy c.counts
          causes := causes
          generation := s.position.generation + 1
          lastApplied :=
            if s.journal.eventRoom then s.journal.next.getD s.position.lastApplied else s.position.lastApplied } ∧
      EventWritten
        (fun y => y.kind = .removal ∧ y.port = none ∧ y.outcome = 1 ∧ y.counts = c.counts.toInt ∧
          y.amount = recordAmount (s.value c.counts) ∧ y.extra = k.number)
        s (bookUnreleased k s) ∧
      (s.auditRequired = false → ∀ p : Port, p ≠ .m → Told p (.restriction s.alarm.restriction causes) (bookUnreleased k s)) := by
  intro c causes
  let x := s.onPosition (fun p => p.addDiscrepancy c.counts.toInt)
  obtain ⟨o1, j1, p1⟩ := emptyRecord_spec k x hi
  have o1 := (onPosition_only _ s).trans o1
  let y := addCause .unauthorisedRemoval (emptyRecord k x)
  have o2 : CustodyOnly s y := o1.trans (addCause_only _ _)
  have p2 : y.position = { (emptyRecord k x).position with causes := causes } := by
    rw [show y.position = _ from addCause_position _ _, p1]; rfl
  have j2 : y.journal = s.journal := by
    rw [show y.journal = (emptyRecord k x).journal by simp [y], j1]; rfl
  have o3 : CustodyOnly s (bumpGeneration y) := o2.trans (onPosition_only _ _)
  let d : Draft := { kind := .removal, counts := c.counts.toInt, amount := (bumpGeneration y).value c.counts, extra := k.number }
  have he : bookUnreleased k s = (eventApplied d (bumpGeneration y)).2 := rfl
  have hv : (bumpGeneration y).value c.counts = s.value c.counts := by rw [o3.rest]; rfl
  have hj : (bumpGeneration y).journal = s.journal := j2
  have hc : (bumpGeneration y).clock = s.clock := by rw [o3.rest]
  rw [he]
  refine ⟨o3.trans (eventApplied_only _ _), ?_, ?_, fun hs p hp => ?_⟩
  · rw [eventApplied_position, hj]
    simp only [bumpGeneration, State.onPosition_position, p2, p1]
    congr 1
  · exact (eventApplied_written d (bumpGeneration y) _
      (fun m => ⟨rfl, rfl, rfl, rfl, by rw [← hv]; rfl, rfl⟩)).transfer hj.symm hc.symm rfl
  · have ht := addCause_told .unauthorisedRemoval (emptyRecord k x) (by rw [p1]; exact hs) p hp
    have ha : (emptyRecord k x).alarm = s.alarm := by rw [o1.rest]
    have hcs : (emptyRecord k x).position.causes.add .unauthorisedRemoval = causes := by rw [p1]; rfl
    rw [ha, hcs] at ht
    exact tells_eventApplied d (bumpGeneration y) p _ (told_of_ports _ _ y _ ht rfl) (by simp [Notice.kind])

/-! ## The sensors -/

/-- The pins once a slot's sensor shows what it reports. -/
def State.sensed (s : State) (k : Ix) (present : Bool) : Pins :=
  { s.pins with cassettePresent := s.pins.cassettePresent.set k present }

/-- A removal that the store is to book: the sensor shows it, and a commit on its way to the cassette has lost it. -/
def State.removedAt (s : State) (k : Ix) : State := { s with pins := s.sensed k false, escrow := s.escrow.lostAt k }

theorem cassetteRemoved_of (k : Ix) (s : State) (hrun : s.running = true) (hp : s.pins.cassettePresent.get k = true)
    (hi : (s.position.cassettes.get k).intact = true) (ha : (s.position.cassettes.get k).state ≠ .absent) :
    cassetteRemoved k s =
      if (s.position.cassettes.get k).state = .released then removeReleased k (s.removedAt k)
      else removeUnreleased k (s.removedAt k) := by
  have hb : bookRemoval k (setPresent k false s) =
      match (s.position.cassettes.get k).state with
      | .absent => setPresent k false s
      | .released => removeReleased k (s.removedAt k)
      | _ => removeUnreleased k (s.removedAt k) := by
    unfold bookRemoval
    rw [verifyCassette_intact _ _ (by exact hi)]
    rfl
  unfold cassetteRemoved
  rw [if_pos hp, event_running _ _ (by exact hrun), hb]
  cases h : (s.position.cassettes.get k).state
  case absent => exact absurd h ha
  all_goals simp

theorem cassetteInserted_of (k : Ix) (s : State) (hrun : s.running = true) (hp : s.pins.cassettePresent.get k = false)
    (hi : (s.position.cassettes.get k).intact = true) (ha : (s.position.cassettes.get k).state = .absent) :
    cassetteInserted k s =
      writeCassetteAs k { (s.position.cassettes.get k).gone with state := .uncounted } (setPresent k true s) := by
  have hb : bookInsertion k (setPresent k true s) =
      writeCassetteAs k { (s.position.cassettes.get k).gone with state := .uncounted } (setPresent k true s) := by
    unfold bookInsertion
    rw [verifyCassette_intact _ _ (by exact hi)]
    exact if_pos ha
  unfold cassetteInserted
  rw [if_neg (by simp [hp]), event_running _ _ (by exact hrun), hb]

theorem keptBut_of_custody {bs : List Block} {s x y : State} (h : CustodyOnly x y) (hx : KeptBut bs s x)
    (hp : .position ∈ bs) (hj : .journal ∈ bs) : KeptBut bs s y :=
  hx.trans (keptBut_without_ports h.kept (kept_ports_of_lines _ _ h.lines) (by simp [hp, hj]))

theorem removedAt_kept (k : Ix) (s : State) : KeptBut [.pins, .escrow] s (s.removedAt k) := by
  intro b hb
  cases b
  case pins | escrow => simp at hb
  all_goals simp [Kept, State.removedAt]

/-- A sensor that reports what it shows already. -/
theorem sensor_repeats (c : Instr) (s : State) (hrun : s.running = true) (hq : Quiet s) (he : exec c s = done s) :
    Does c [] s (fun _ => True) :=
  does_done c [] s s _ he hq (powered_of_running s hrun) (fun b _ => by cases b <;> simp [Kept]) fun _ _ _ => trivial

theorem removeReleased_does (k : Ix) (n : Nat) (s : State) (hrun : s.running = true) (hq : Quiet s)
    (hi : (s.position.cassettes.get k).intact = true) (hp : s.pins.cassettePresent.get k = true)
    (hst : (s.position.cassettes.get k).state = .released) (hr : s.journal.eventRoom = true) (hn : s.journal.next = some n) :
    let c := s.position.cassettes.get k
    Does (.cassetteRemoval k) [.pins, .position, .journal, .escrow] s (fun t =>
      t.pins = s.sensed k false ∧ t.escrow = s.escrow.lostAt k ∧
        t.position =
          { s.position with
            cassettes := s.position.cassettes.set k c.gone
            flows := { s.position.flows with unloaded := Quad.add s.position.flows.unloaded c.counts }
            generation := s.position.generation + 1
            lastApplied := n } ∧
        Recorded n
          (fun r =>
            r.kind = .unload ∧ r.port = none ∧ r.counts = c.counts.toInt ∧
              r.amount = recordAmount (s.value c.counts) ∧ r.extra = k.number)
          s t) := by
  intro c
  obtain ⟨only, hpos, hrec⟩ := removeReleased_spec k n (s.removedAt k) hi hr hn
  have he := cassetteRemoved_of k s hrun hp hi (by rw [hst]; decide)
  rw [if_pos hst] at he
  generalize removeReleased k (s.removedAt k) = x at only hpos hrec he
  have hpins : x.pins = s.sensed k false := by rw [only.rest]; rfl
  have hesc : x.escrow = s.escrow.lostAt k := by rw [only.rest]; rfl
  refine does_done _ _ s x _ (congrArg done he) ?_ ?_ ?_ fun t hk _ => ⟨?_, ?_, ?_, ?_⟩
  · refine quiet_of_alike s x hq (fun w => ?_) (by rw [only.rest]; rfl) (by rw [only.rest]; rfl) (by rw [hesc]; exact Escrow.lostAt_port _ _)
    rw [show x.dispense w = s.dispense w by rw [only.rest]; rfl]
    exact ⟨rfl, rfl, rfl⟩
  · rw [only.rest]; exact powered_of_running s hrun
  · exact keptBut_of_custody only ((removedAt_kept k s).mono (by simp)) (by simp) (by simp)
  · rw [show t.pins = x.pins from hk .pins (by simp), hpins]
  · rw [show t.escrow = x.escrow from hk .escrow (by simp), hesc]
  · rw [show t.position = x.position from hk .position (by simp), hpos]; rfl
  · exact hrec.transfer rfl rfl (hk .journal (by simp))

theorem insertion_does (k : Ix) (s : State) (hrun : s.running = true) (hq : Quiet s)
    (hi : (s.position.cassettes.get k).intact = true) (hp : s.pins.cassettePresent.get k = false)
    (hst : (s.position.cassettes.get k).state = .absent) :
    Does (.cassetteInsertion k) [.pins, .position] s (fun t =>
      t.pins = s.sensed k true ∧
        t.position =
          { s.position with
            cassettes := s.position.cassettes.set k { (s.position.cassettes.get k).gone with state := .uncounted } }) := by
  have he := cassetteInserted_of k s hrun hp hi hst
  have only := writeCassetteAs_only k { (s.position.cassettes.get k).gone with state := .uncounted } (setPresent k true s)
  have hpos := writeCassetteAs_position k { (s.position.cassettes.get k).gone with state := .uncounted } (setPresent k true s)
  have hj : (writeCassetteAs k { (s.position.cassettes.get k).gone with state := .uncounted } (setPresent k true s)).journal =
      s.journal := by simp [setPresent]
  generalize writeCassetteAs k { (s.position.cassettes.get k).gone with state := .uncounted } (setPresent k true s) = x
    at only hpos hj he
  refine does_done _ _ s x _ (congrArg done he) ?_ ?_ ?_ fun t hk _ => ⟨?_, ?_⟩
  · exact quiet_of_eq s x hq (by rw [only.rest]; rfl) (by rw [only.rest]; rfl) (by rw [only.rest]; rfl)
  · rw [only.rest]; exact powered_of_running s hrun
  · intro b hb
    cases b
    case pins | position => simp at hb
    case journal => exact hj
    case ports => exact kept_ports_of_lines _ _ only.lines
    all_goals (rw [only.rest]; simp [Kept, setPresent])
  · rw [show t.pins = x.pins from hk .pins (by simp), only.rest]; rfl
  · rw [show t.position = x.position from hk .position (by simp), hpos]
    simp [setPresent, Cassette.gone, hi]

/-! ## A removal without release, and zone 3 (R22, R142) -/

/-- A command whose effect leaves nothing waiting; a change in the alarm unit is told to port M as the step ends (R154). -/
theorem does_noticed (c : Instr) (changed : List Block) (s x : State) (effect : State → Prop) (he : exec c s = done x)
    (hq : Quiet x) (hp : x.powered = true) (hk : KeptBut changed s x)
    (hx : ∀ t, KeptBut [] x t → (∀ p n, Told p n x → n.kind ≠ .alarmChange → Told p n t) →
      (x.alarm.changed = true → Told .m t.alarmNotice t) → effect t) : Does c changed s effect :=
  ⟨settle x, he, hk.trans ((settle_keeps_quiet x hq hp).mono (by simp)),
    hx _ (settle_keeps_quiet x hq hp) (fun p n ht hn => settle_told p n x hq hp ht hn) (settle_alarmNotice x hq hp)⟩

/-- A zone that moves leaves nothing waiting. -/
theorem ZoneMoves.quiet {z : Fin 16} {r : Zone} {entered fresh entry : Bool} {port : Option Port} {s y : State}
    (h : ZoneMoves z r entered fresh entry port s y) (hq : Quiet s) : Quiet y := by
  refine quiet_of_alike s y hq (fun w => ?_) (by rw [h.followed.rest]) (by rw [h.followed.rest]) (by rw [h.followed.rest])
  have hd := h.delays w
  rw [hd]
  split <;> exact ⟨rfl, rfl, rfl⟩

theorem ZoneMoves.kept {z : Fin 16} {r : Zone} {entered fresh entry : Bool} {port : Option Port} {s y : State}
    (h : ZoneMoves z r entered fresh entry port s y) : KeptBut [.alarm, .journal, .dispenses, .depository] s y := by
  intro b hb
  cases b
  case alarm | journal | dispenses | depository => simp at hb
  case ports => exact kept_ports_of_lines _ _ h.followed.lines
  all_goals (rw [h.followed.rest]; simp [Kept])

/-- What a zone's move is measured from may be told more. -/
theorem ZoneMoved.of_ports {z : Fin 16} {r : Zone} {entered fresh entry : Bool} {port : Option Port} {s t : State} (P : Ports)
    (h : ZoneMoved z r entered fresh entry port { s with ports := P } t) : ZoneMoved z r entered fresh entry port s t := h

/-- The audit causes told with the set as zone 3 leaves it (R10, R153). -/
theorem told_after_move {z : Fin 16} {r : Zone} {entered fresh entry : Bool} {port : Option Port} {s y t : State}
    (h : ZoneMoves z r entered fresh entry port s y) (hk : KeptBut [] y t)
    (hn : ∀ p n, Told p n y → n.kind ≠ .alarmChange → Told p n t) (p : Port) (hp : p ≠ .m)
    (hs : Told p (.restriction s.alarm.restriction s.position.causes) s) :
    Told p (.restriction t.alarm.restriction s.position.causes) t := by
  have ha := congrArg AlarmUnit.restriction (h.followed.alarm.settled hk)
  have hr : t.alarm.restriction = (s.alarm.setZone z r).latchedEffects := ha
  rw [hr]
  refine hn _ _ ?_ (by simp [Notice.kind])
  by_cases e : (s.alarm.setZone z r).latchedEffects = s.alarm.restriction
  · rw [e]
    exact h.followed.calm e p _ hs (by simp [Notice.kind])
  · exact h.followed.reported.1 e p hp

theorem removeUnreleased_does (k : Ix) (s : State) (hrun : s.running = true) (hq : Quiet s)
    (hi : (s.position.cassettes.get k).intact = true) (hp : s.pins.cassettePresent.get k = true)
    (hrel : (s.position.cassettes.get k).state ≠ .released) (habs : (s.position.cassettes.get k).state ≠ .absent)
    (hd : AlarmDerived s) :
    let c := s.position.cassettes.get k
    let r := s.zone 3
    let raised : Zone :=
      if s.alarm.eligible 3 then r.activated s.alarm.armed s.settings.entryDelay s.clock.count none else r
    let entered : Bool := raised.state == .pendingActive && r.state != .pendingActive
    let causes : Causes := { s.position.causes with unauthorisedRemoval := true }
    (r.inputActive = false → LockStopsNothing (s.alarm.setZone 3 raised.restored).latchedEffects s) →
    Does (.cassetteRemoval k) [.pins, .position, .escrow, .journal, .alarm, .dispenses, .depository] s (fun t =>
      ∃ j : Journal,
        let x : State :=
          { s with
            pins := s.sensed k false
            escrow := s.escrow.lostAt k
            journal := j
            position :=
              { s.position with
                cassettes := s.position.cassettes.set k c.gone
                discrepancy := Quad.zip (fun (a : Int) (n : Nat) => a + n) s.position.discrepancy c.counts
                causes := causes
                generation := s.position.generation + 1
                lastApplied :=
                  if s.journal.eventRoom then s.journal.next.getD s.position.lastApplied
                  else s.position.lastApplied } }
        EventWritten
            (fun y =>
              y.kind = .removal ∧ y.port = none ∧ y.outcome = 1 ∧ y.counts = c.counts.toInt ∧
                y.amount = recordAmount (s.value c.counts) ∧ y.extra = k.number)
            s x ∧
          t.pins = s.sensed k false ∧ t.position = x.position ∧ t.escrow = s.escrow.lostAt k ∧
          (s.auditRequired = false → ∀ p : Port, p ≠ .m → Told p (.restriction t.alarm.restriction causes) t) ∧
          (if r.inputActive then
            AlarmIs s.alarm t ∧ t.journal = j ∧ t.dispenses = s.dispenses ∧ DepositoryIs s.depository t
          else ZoneMoved 3 raised.restored entered (entered && r.state == .quiet) false none x t)) := by
  intro c r raised entered causes hl
  obtain ⟨only, hpos, hw, htold⟩ := bookUnreleased_spec k (s.removedAt k) hi
  have he := cassetteRemoved_of k s hrun hp hi habs
  rw [if_neg hrel, removeUnreleased_eq] at he
  generalize bookUnreleased k (s.removedAt k) = b at only hpos hw htold he
  have hpins : b.pins = s.sensed k false := by rw [only.rest]; rfl
  have hesc : b.escrow = s.escrow.lostAt k := by rw [only.rest]; rfl
  have halarm : b.alarm = s.alarm := by rw [only.rest]; rfl
  have hkept := keptBut_of_custody only ((removedAt_kept k s).mono (ys := [.pins, .position, .escrow, .journal]) (by simp))
    (by simp) (by simp)
  have hqb : Quiet b := by
    refine quiet_of_alike s b hq (fun w => ?_) (by rw [only.rest]; rfl) (by rw [only.rest]; rfl) (by rw [hesc]; exact Escrow.lostAt_port _ _)
    rw [show b.dispense w = s.dispense w by rw [only.rest]; rfl]
    exact ⟨rfl, rfl, rfl⟩
  have hpw : b.powered = true := by rw [only.rest]; exact powered_of_running s hrun
  have hcauses : b.position.causes = causes := by rw [hpos]; rfl
  have htold (ha : s.auditRequired = false) (p : Port) (hm : p ≠ .m) :
      Told p (.restriction b.alarm.restriction b.position.causes) b := by
    rw [halarm, hcauses]; exact htold ha p hm
  by_cases hin : r.inputActive = true
  · have hm : momentary 3 none b = b := by
      unfold momentary
      rw [if_pos (by rw [State.zone, halarm]; exact hin)]
    rw [hm] at he
    refine does_done _ _ s b _ (congrArg done he) hqb hpw (hkept.mono (by simp)) fun t hk hn => ?_
    refine ⟨b.journal, hw.transfer rfl rfl rfl, ?_, ?_, ?_, fun ha p hm => ?_, ?_⟩
    · rw [show t.pins = b.pins from hk .pins (by simp), hpins]
    · rw [show t.position = b.position from hk .position (by simp), hpos]; rfl
    · rw [show t.escrow = b.escrow from hk .escrow (by simp), hesc]
    · have hr : t.alarm.restriction = b.alarm.restriction := by
        have := congrArg AlarmUnit.restriction (hk .alarm (by simp))
        exact this
      rw [hr, ← hcauses]
      exact hn _ _ (htold ha p hm) (by simp [Notice.kind])
    · rw [if_pos hin]
      refine ⟨?_, hk .journal (by simp), ?_, ?_⟩
      · exact AlarmIs.settled (y := b) (by rw [AlarmIs, halarm]) hk
      · rw [show t.dispenses = b.dispenses from hk .dispenses (by simp), only.rest]; rfl
      · exact DepositoryIs.settled (y := b) (depositoryIs_of_eq _ _ (by rw [only.rest]; rfl)) hk
  · have hin' : (s.zone 3).inputActive = false := by simpa [r] using hin
    have hdb : AlarmDerived b := by unfold AlarmDerived; rw [halarm]; exact hd
    have hmoves := momentary_moves 3 none b hdb (by rw [State.zone, halarm]; exact hin')
    have hset : b.settings = s.settings := by rw [only.rest]; rfl
    have hclock : b.clock = s.clock := by rw [only.rest]; rfl
    simp only [State.zone, halarm, hset, hclock] at hmoves
    replace hmoves := hmoves ((hl hin').lostAt k (by rw [only.rest]; rfl) (by rw [only.rest]; rfl) hesc (by rw [halarm]))
    generalize momentary 3 none b = y at hmoves he
    refine does_noticed _ _ s y _ (congrArg done he) (hmoves.quiet hqb) (by rw [hmoves.followed.rest]; exact hpw)
      ((hkept.mono (by simp)).trans (hmoves.kept.mono (by simp))) fun t hk hn hc => ?_
    refine ⟨b.journal, hw.transfer rfl rfl rfl, ?_, ?_, ?_, fun ha p hm => ?_, ?_⟩
    · rw [show t.pins = y.pins from hk .pins (by simp), hmoves.followed.rest, hpins]
    · rw [show t.position = y.position from hk .position (by simp), hmoves.followed.rest, hpos]; rfl
    · rw [show t.escrow = y.escrow from hk .escrow (by simp), hmoves.followed.rest, hesc]
    · have := told_after_move hmoves hk hn p hm (htold ha p hm)
      rwa [hcauses] at this
    · rw [if_neg hin]
      refine ZoneMoved.of_ports b.ports ?_
      have hmoved := hmoves.settled hk hn hc
      have hb : b = { s with
          pins := s.sensed k false, escrow := s.escrow.lostAt k, journal := b.journal, position := b.position, ports := b.ports } :=
        only.rest
      rw [hpos] at hb
      rw [hb] at hmoved
      exact hmoved

/-- Settles O32: a sensor that repeats itself, the two removals and the insertion. -/
theorem cassetteSensorsBookNotes : Obligations.CassetteSensorsBookNotes := by
  unfold Obligations.CassetteSensorsBookNotes
  intro k s hrun hq hi c gone pins escrow
  refine ⟨fun hp => ?_, fun hp => ?_, fun n hp hst hr hn => ?_, fun hp hrel habs hd => ?_, fun hp hst => ?_⟩
  · exact sensor_repeats (.cassetteRemoval k) s hrun hq
      (congrArg done (by unfold cassetteRemoved; rw [if_neg (by simp [hp])]))
  · exact sensor_repeats (.cassetteInsertion k) s hrun hq
      (congrArg done (by unfold cassetteInserted; rw [if_pos hp]))
  · exact removeReleased_does k n s hrun hq hi hp hst hr hn
  · exact removeUnreleased_does k s hrun hq hi hp hrel habs hd
  · exact insertion_does k s hrun hq hi hp hst

end Sys2Proof.Machine
end

section
/-! A pick of one or two notes. -/
namespace Sys2Proof.Machine

@[simp] theorem Pair.set_set {α : Type} (p : Pair α) (t : Teller) (x y : α) : (p.set t x).set t y = p.set t y := by cases t <;> rfl

@[simp] theorem Pair.set_get {α : Type} (p : Pair α) (t : Teller) : p.set t (p.get t) = p := by cases t <;> rfl

/-- A window's dispense record once the cassette's word has been read for a pick's booking (R9, R83). -/
def Dispense.readAt (d : Dispense) (c : Cassette) : Dispense :=
  { d with stop := if c.intact = false ∧ d.stop = none then some .audit else d.stop }

/-- The cassette's record read for a pick's booking (R9, R83). -/
theorem readForPick_eq (w : Teller) (k : Ix) (s : State) :
    readForPick w k s =
      { (verifyCassette k s).2 with
        dispenses := s.dispenses.set w ((s.dispense w).readAt (s.position.cassettes.get k)) } := by
  have hr := (verifyCassette_read k s).rest
  have hd : (verifyCassette k s).2.dispenses = s.dispenses := by rw [hr]
  unfold readForPick
  simp only [verifyCassette_fst]
  cases hi : (s.position.cassettes.get k).intact
  · simp only [Bool.false_eq_true, if_false, stopForAudit, State.onDispense, Dispense.readAt, hi, hd, true_and]
    congr 2
    show _ = ({ s.dispense w with stop := _ } : Dispense)
    cases hs : (s.dispenses.get w).stop <;> simp only [State.dispense, hs, reduceCtorEq, if_true, if_false]
  · have hself : (s.dispense w).readAt (s.position.cassettes.get k) = s.dispense w := by
      simp [Dispense.readAt, hi]
    rw [if_pos rfl, hself, State.dispense, Pair.set_get, ← hd]

/-- A position once m notes have left a cassette for TRANSIT (R5, R58). -/
def Position.picked (k d : Ix) (m : Nat) (p : Position) : Position :=
  let c := p.cassettes.get k
  { p with
    cassettes := p.cassettes.set k { { c with counts := Quad.minus c.counts d m }.rederive with intact := true }
    transit := Quad.plus p.transit d m
    discrepancy := p.discrepancy.set d (p.discrepancy.get d - ((m - c.counts.get d : Nat) : Int)) }

theorem picked_leaves (k d : Ix) (m : Nat) : LeavesAudit (Position.picked k d m) := fun _ _ _ => rfl

/-- The notes of a pick booked (R5, R58). -/
theorem bookPick_spec (k d : Ix) (m : Nat) (s : State) :
    bookPick k d m s = { s with position := s.position.picked k d m, ports := (bookPick k d m s).ports } ∧
      (bookPick k d m s).ports.lines = s.ports.lines ∧ Tells [.cassetteLow] s (bookPick k d m s) := by
  have ho : CustodyOnly s (bookPick k d m s) := (onPosition_only _ s).trans (writeCassette_only _ _ _)
  have hp : (bookPick k d m s).position = s.position.picked k d m := writeCassette_position _ _ _
  have hj : (bookPick k d m s).journal = s.journal := by simp [bookPick]
  refine ⟨?_, ho.lines, (tells_onPosition _ _ _).trans (tells_writeCassette _ _ _)⟩
  rw [← hp]
  exact ho.rest.trans (by rw [hj])

/-- A cassette whose written record enters LOW or EMPTY is told to port S (R5). -/
theorem writeCassette_low (k : Ix) (c : Cassette) (s : State) :
    let after := { c.rederive with intact := true }
    after.mode ≠ .deposit → after.state ≠ (s.position.cassettes.get k).state → after.state = .low ∨ after.state = .empty →
      Told .s (.cassetteLow k after.state after.total) (writeCassette k c s) := by
  intro after hm hs he
  unfold writeCassette watchLow
  have hget : ((s.onPosition fun p => p.setCassette k { c.rederive with intact := true }).position.cassettes.get k) = after := by
    simp [State.onPosition, Position.setCassette, after]
  simp only [hget]
  rw [if_pos ⟨hm, hs, he⟩]
  exact raise_told _ _ _

/-- A window's dispense record once a pick has given notes (R60, R83). -/
def Dispense.pickedFrom (d : Dispense) (k : Ix) (c : Cassette) : Dispense :=
  { d.readAt c with changed := true, misses := d.misses.set k 0 }

/-- The note path once a pick has given notes (R58, R62). -/
def NotePath.picked (q : NotePath) (w : Teller) (k d : Ix) (m : Multiplicity) : NotePath :=
  { q with
    pick := some ⟨w, k, d, .checking m m.notes⟩
    timers := q.timers ++ List.replicate m.notes ⟨.dispense w, .picker k, false⟩ }

theorem notesPicked_eq (w : Teller) (k d : Ix) (m : Multiplicity) (s : State) :
    notesPicked ⟨w, k, d, .commanded⟩ m s =
      { bookPick k d m.notes (readForPick w k s) with
        dispenses := s.dispenses.set w ((s.dispense w).pickedFrom k (s.position.cassettes.get k))
        path := s.path.picked w k d m } := by
  have hr := (verifyCassette_read k s).rest
  have hpath : (readForPick w k s).path = s.path := by rw [readForPick_eq, hr]
  have hdis : (readForPick w k s).dispenses = s.dispenses.set w ((s.dispense w).readAt (s.position.cassettes.get k)) := by
    rw [readForPick_eq]
  obtain ⟨hb, -, -⟩ := bookPick_spec k d m.notes (readForPick w k s)
  unfold notesPicked
  simp only []
  rw [hb]
  simp only [setMisses, State.onDispense, State.onPath, Pair.set_set, Pair.get_set_self, hpath, hdis]
  rfl

/-- Settles O21: the notes booked, the cassette's word read, the path sensor's timers. -/
theorem pickMovesNotesToTransit : Obligations.PickMovesNotesToTransit := by
  unfold Obligations.PickMovesNotesToTransit
  intro w k d m s hrun hq hpick hm c after position
  have he : exec (.pickEvent m) s = done (notesPicked ⟨w, k, d, .commanded⟩ m s) := by
    show done (event (pickReport m) s) = _
    rw [event_running _ _ hrun]
    unfold pickReport
    rw [hpick]
    cases m with
    | m0 => exact absurd rfl hm
    | m1 | m2 => rfl
  have hw := verifyCassette_read k s
  have hread := readForPick_eq w k s
  have hcas : (readForPick w k s).position.cassettes = s.position.cassettes := by rw [hread]; exact hw.cassettes
  obtain ⟨hb, hbl, hbt⟩ := bookPick_spec k d m.notes (readForPick w k s)
  have hlow := writeCassette_low k { c with counts := Quad.minus c.counts d m.notes }
    ((readForPick w k s).onPosition (fun p =>
      { p with
        transit := Quad.plus p.transit d m.notes
        discrepancy := p.discrepancy.set d (p.discrepancy.get d - ((m.notes - c.counts.get d : Nat) : Int)) }))
  have hbook : bookPick k d m.notes (readForPick w k s) = writeCassette k { c with counts := Quad.minus c.counts d m.notes }
      ((readForPick w k s).onPosition (fun p =>
        { p with
          transit := Quad.plus p.transit d m.notes
          discrepancy := p.discrepancy.set d (p.discrepancy.get d - ((m.notes - c.counts.get d : Nat) : Int)) })) := by
    unfold bookPick
    rw [hcas]
  rw [← hbook, show ((readForPick w k s).onPosition _).position.cassettes.get k = c from congrArg (fun q => q.get k) hcas] at hlow
  rw [notesPicked_eq] at he
  generalize hz : bookPick k d m.notes (readForPick w k s) = z at hb hbl hbt hlow he
  have hvz : Tells [.cassetteLow] (verifyCassette k s).2 z := (tells_of_ports (t := readForPick w k s) _ (by rw [hread])).trans hbt
  have hzp : z.position = (verifyCassette k s).2.position.picked k d m.notes := by rw [hb, hread]
  have hlines : z.ports.lines = s.ports.lines := by rw [hbl, hread]; exact hw.lines
  have hrest : z = { s with position := z.position, dispenses := z.dispenses, ports := z.ports } := by
    rw [hb, hread, hw.rest]
  have hbooked := hw.booked.trans (booked_onPosition (Position.picked k d m.notes) (verifyCassette k s).2) (fun _ _ _ => rfl)
    (picked_leaves k d m.notes)
  refine does_done _ _ s _ _ he ?_ ?_ ?_ fun t hk hn => ⟨?_, ?_, ?_, fun h1 h2 h3 => ?_⟩
  · refine quiet_of_alike s _ hq (fun u => ?_) rfl rfl (by rw [hrest])
    by_cases e : u = w
    · subst e
      simp only [State.dispense, Pair.get_set_self, Dispense.pickedFrom, Dispense.readAt, and_self]
    · simp only [State.dispense, Pair.get_set_other _ _ _ _ e, and_self]
  · show z.powered = true
    rw [hrest]; exact powered_of_running s hrun
  · intro b hb
    cases b
    case position | dispenses | path => simp at hb
    case ports => exact kept_ports_of_lines _ _ hlines
    all_goals (rw [hrest]; simp [Kept])
  · rw [show t.position = z.position from hk .position (by simp), hzp]
    have ht : Tells [.cassetteLow, .alarmChange] ((verifyCassette k s).2.onPosition (Position.picked k d m.notes)) t := by
      intro p x hx hne
      exact hn p x (hvz p x (told_of_ports _ _ _ _ hx rfl) (by simp at hne; simp [hne])) (by simp at hne; exact hne.2)
    have ha := hbooked.audit rfl rfl rfl ht
    simp only [or_false] at ha
    exact ha
  · rw [show t.dispenses = _ from hk .dispenses (by simp)]
    rfl
  · rw [show t.path = _ from hk .path (by simp)]
    rfl
  · exact hn _ _ (hlow h1 h2 h3) (by simp [Notice.kind])

end Sys2Proof.Machine
end

section
/-! The end of a dispense: its bookings, its record, its OP_DONE (R35, R85, R87, R90, R91). -/
namespace Sys2Proof.Machine

/-! ## Notes taken from a pocket (R85, R87) -/

/-- A position once notes of a window's pocket have been taken. -/
def Position.takenFrom (w : Teller) (taken : Quad Nat) (p : Position) : Position :=
  { p with
    pockets := p.pockets.set w (Quad.zip (· - ·) (p.pockets.get w) taken)
    flows := { p.flows with taken := Quad.add p.flows.taken taken } }

/-- What the pocket holds can be taken in full. -/
theorem takeAll_eq (w : Teller) (taken : Quad Nat) (p : Position) (h : ∀ k : Ix, taken.get k ≤ (p.pockets.get w).get k) :
    p.takeAll w taken = p.takenFrom w taken := by
  have h1 := h .i1
  have h2 := h .i2
  have h3 := h .i3
  have h4 := h .i4
  cases w <;>
  · simp only [Pair.get, Quad.get] at h1 h2 h3 h4
    simp [Position.takeAll, Position.takenFrom, Position.take, Position.setStored, Position.stored, Ix.all, Quad.minus, Quad.plus,
      Quad.set, Quad.get, Pair.set, Pair.get, Quad.zip, Quad.add, h1, h2, h3, h4]

/-- Nothing taken. -/
theorem takenFrom_zero (w : Teller) (p : Position) : p.takenFrom w Quad.zero = p := by
  have h1 : Quad.zip (fun (a b : Nat) => a - b) (p.pockets.get w) Quad.zero = p.pockets.get w := Quad.ext_get fun k => by simp
  have h2 : Quad.add p.flows.taken Quad.zero = p.flows.taken := Quad.ext_get fun k => by simp
  unfold Position.takenFrom
  rw [h1, h2, Pair.set_get]

theorem takenPosition_eq (w : Teller) (taken : Quad Nat) (remainder : Nat) (s : State) :
    takenPosition w taken remainder s =
      ((s.position.takenFrom w taken).bookedBalance (drawerOf w) (s.value taken)).bookedCoinDue
        (remainderAccount w (s.dispense w).target) remainder := rfl

theorem bookedBalance_zero (a : AccountId) (p : Position) : p.bookedBalance a 0 = p := by
  unfold Position.bookedBalance
  rw [if_pos (by simp [balanceFits])]
  simp only [Int.add_zero]
  exact Position.setAccount_account _ _

theorem bookedCoinDue_zero (a : AccountId) (p : Position) : p.bookedCoinDue a 0 = p := by
  unfold Position.bookedCoinDue
  rw [if_pos (by simp [coinDueFits])]
  exact Position.setAccount_account _ _

theorem value_zero (s : State) : s.value Quad.zero = 0 := by
  simp only [State.value, valueOf, Quad.zero, Quad.all, Nat.zero_mul]

/-- With nothing taken and no remainder due the position stays. -/
theorem takenPosition_zero (w : Teller) (s : State) : takenPosition w Quad.zero 0 s = s.position := by
  rw [takenPosition_eq, value_zero, takenFrom_zero, bookedCoinDue_zero]
  exact bookedBalance_zero _ _

/-! ## The two bookings (R35, R90) -/

/-- Reading the other booking's account leaves what decides the coin due's. -/
theorem bookedBalance_coin (a b : AccountId) (v : Int) (p : Position) :
    ((p.bookedBalance a v).account b).coinDue = (p.account b).coinDue ∧
      ((p.bookedBalance a v).account b).intact = (p.account b).intact := by
  unfold Position.bookedBalance
  split
  · cases a <;> cases b <;> exact ⟨rfl, rfl⟩
  · exact ⟨rfl, rfl⟩

theorem Booked.account {failed : Prop} {f : Position → Position} {s t : State} (h : Booked failed f s t) (a : AccountId) :
    t.position.account a = (f s.position).account a := by
  by_cases hf : failed
  · rw [(h.found hf).1]; cases a <;> rfl
  · rw [h.fine hf]

/-- The drawer's value and the coin due of a remainder, each booked where it can be. -/
theorem bookTaken_booked (a b : AccountId) (v : Nat) (n : Nat) (s : State) :
    let s1 := (bookBalance a v s).2
    (bookBalance a v s).1 = (if balanceFits (s.position.account a) v then 0 else v) ∧
      (bookCoinDue b n s1).1 = (if coinDueFits (s.position.account b) n then 0 else n) ∧
      Booked (((v : Int) ≠ 0 ∧ (s.position.account a).intact = false) ∨ (n ≠ 0 ∧ (s.position.account b).intact = false))
        (fun p => (p.bookedBalance a v).bookedCoinDue b n) s (bookCoinDue b n s1).2 := by
  intro s1
  obtain ⟨m1, b1⟩ := bookBalance_booked a v s
  obtain ⟨m2, b2⟩ := bookCoinDue_booked b n s1
  obtain ⟨hc, hi⟩ := bookedBalance_coin a b v s.position
  rw [← b1.account b] at hc hi
  have hfits : coinDueFits (s1.position.account b) n = coinDueFits (s.position.account b) n := by
    simp only [coinDueFits, s1, hc, hi]
  refine ⟨by rw [m1]; simp, by rw [m2, hfits], ?_⟩
  refine (b1.trans b2 (bookedBalance_leaves a v) (bookedCoinDue_leaves b n)).congr ?_
  rw [show (s1.position.account b).intact = _ from hi]

/-! ## The end of a dispense (R91) -/

/-- The DISPENSE_END record's draft (R91). -/
def dispenseDraft (w : Teller) (outcome : Nat) (taken : Quad Nat) (d : Dispense) (value booked unbooked : Nat) : Draft :=
  { kind := .dispenseEnd, port := some w.port, outcome := outcome, marks := { d.marks with unbooked := 0 < unbooked }
    counts := taken.toInt, amount := value, extra := d.startSequence
    detail :=
      .dispense
        { amount := d.amount, payable := d.payable, remainder := d.remainder, unpaid := d.unpaid, unbooked := unbooked
          cap := 0, preference := []
          account := if booked = 0 then none else some (remainderAccount w d.target), cause := shortCode d.short } }

/-- A dispense's OP_DONE (R92). -/
def dispenseDone (outcome : Nat) (taken : Quad Nat) (reason : Option Reason) (carried : Results) (d : Dispense)
    (value booked unbooked : Nat) : OpDone :=
  { OpDone.zero .dispense with
    startSequence := d.startSequence, outcome := outcome, reason := reason
    marks := { d.marks with unbooked := 0 < unbooked }, counts := taken
    presented := d.presented, retracted := d.retractedCounts outcome taken, value := value, remainder := booked
    unpaid := d.unpaid, unbooked := unbooked, cause := shortCode d.short, carried := carried }

/-- The end of a dispense, step by step. -/
theorem finishDispense_eq (w : Teller) (outcome : Nat) (taken : Quad Nat) (due : Bool) (reason : Option Reason)
    (carried : Results) (s : State) :
    let d := s.dispense w
    let value := s.value taken
    let remainder := if due then d.remainder else 0
    let s0 := s.onPosition (fun p => p.takeAll w taken)
    let s1 := (bookBalance (drawerOf w) value s0).2
    let missed := (bookBalance (drawerOf w) value s0).1
    let s2 := (bookCoinDue (remainderAccount w d.target) remainder s1).2
    let missedCoin := (bookCoinDue (remainderAccount w d.target) remainder s1).1
    let x := stageApplied (dispenseDraft w outcome taken d value (remainder - missedCoin) (missed + missedCoin))
      (release w.port .dispense s2)
    finishDispense w outcome taken due reason carried s =
      awaitDurable w.port x.1
        (dispenseDone outcome taken reason carried d value (remainder - missedCoin) (missed + missedCoin))
        ((stepGeneration d.changed x.2).onDispense w (fun _ => Dispense.idle)) := rfl

/-- What a booking reads of the accounts fails its check word (R9). -/
def TakenWordFails (w : Teller) (taken : Quad Nat) (remainder : Nat) (s : State) : Prop :=
  (s.value taken ≠ 0 ∧ (s.position.account (drawerOf w)).intact = false) ∨
    (remainder ≠ 0 ∧ (s.position.account (remainderAccount w (s.dispense w).target)).intact = false)

/-- The part of a remainder that is booked (R35). -/
def State.coinBooked (s : State) (w : Teller) (remainder : Nat) : Nat :=
  if coinDueFits (s.position.account (remainderAccount w (s.dispense w).target)) remainder then remainder else 0

/-- What a dispense's bookings miss (R35). -/
def State.takenMissed (s : State) (w : Teller) (taken : Quad Nat) (remainder : Nat) : Nat :=
  (if balanceFits (s.position.account (drawerOf w)) (s.value taken) then 0 else s.value taken) +
    (remainder - s.coinBooked w remainder)

/-- The end of a dispense that the journal has room for. -/
structure DispenseEnds (w : Teller) (outcome : Nat) (taken : Quad Nat) (remainder : Nat) (reason : Option Reason) (carried : Results)
    (n : Nat) (s t : State) : Prop where
  closed : ∃ p : Position,
    DispenseClosed w outcome taken n p reason carried (s.coinBooked w remainder) (s.takenMissed w taken remainder) s t ∧
      AuditFollows (TakenWordFails w taken remainder s) (takenPosition w taken remainder s) p s t
  kept : KeptBut [.dispenses, .path, .position, .journal, .ports] s t
  lines : t.ports.lines = s.ports.lines
  tells : Tells [.restriction, .journalHigh] s t
  calm : ¬TakenWordFails w taken remainder s → Tells [.journalHigh] s t

/-- The end of a dispense, made at once: everything R91 says of it. -/
theorem endDispense_ends (w : Teller) (outcome : Nat) (taken : Quad Nat) (due : Bool) (reason : Option Reason) (carried : Results)
    (n : Nat) (s : State) (h : EndRoom n s) (hp : PocketHolds w taken s) :
    DispenseEnds w outcome taken (if due then (s.dispense w).remainder else 0) reason carried n s
      (endDispense w outcome taken due reason carried s) := by
  obtain ⟨hhold, hfree, hnext⟩ := h
  have hx : endDispense w outcome taken due reason carried s =
      finishDispense w outcome taken due reason carried
        (stopTimers (.dispense w) (s.onDispense w (fun d => { d with ending := true, deferred := false }))) := by
    unfold endDispense
    rw [holdOrFinish_now _ _ (by simpa using hhold) (by simpa using hfree)]
    rfl
  rw [hx, finishDispense_eq]
  generalize hy : stopTimers (.dispense w) (s.onDispense w (fun d => { d with ending := true, deferred := false })) = x
  have xrest : x = { s with
      dispenses := s.dispenses.set w { s.dispense w with ending := true, deferred := false }
      path := { s.path with timers := s.path.timersBut (.dispense w) } } := by
    rw [← hy]
    unfold stopTimers
    simp only [State.onPath, timersBut_eq]
    rfl
  have xd : x.dispense w = { s.dispense w with ending := true, deferred := false } := by
    rw [xrest]; exact Pair.get_set_self _ _ _
  have xv : x.value taken = s.value taken := by rw [xrest]; rfl
  have x0 : x.onPosition (fun p => p.takeAll w taken) = { x with position := s.position.takenFrom w taken } := by
    have ht := takeAll_eq w taken x.position (by rw [xrest]; exact hp)
    have hxp : x.position = s.position := by rw [xrest]
    exact congrArg (fun p => { x with position := p }) (ht.trans (by rw [hxp]))
  simp only [xd, xv, x0]
  generalize hval : s.value taken = value
  generalize hrem : (if due = true then (s.dispense w).remainder else 0) = remainder
  generalize hz0 : ({ x with position := s.position.takenFrom w taken } : State) = z0
  have zp : z0.position = s.position.takenFrom w taken := by rw [← hz0]
  have zacc (a : AccountId) : z0.position.account a = s.position.account a := by rw [zp]; cases a <;> rfl
  obtain ⟨m1, m2, hb⟩ := bookTaken_booked (drawerOf w) (remainderAccount w (s.dispense w).target) value remainder z0
  rw [zacc] at m1 m2
  simp only [zacc] at hb
  rw [m1, m2]
  generalize (bookCoinDue (remainderAccount w (s.dispense w).target) remainder (bookBalance (drawerOf w) (↑value) z0).2).2 = z at hb
  have hcoin : remainder - (if coinDueFits (s.position.account (remainderAccount w (s.dispense w).target)) remainder = true then 0
      else remainder) = s.coinBooked w remainder := by
    unfold State.coinBooked
    split <;> omega
  have hmiss : (if balanceFits (s.position.account (drawerOf w)) (value : Int) = true then 0 else value) +
      (if coinDueFits (s.position.account (remainderAccount w (s.dispense w).target)) remainder = true then 0 else remainder) =
        s.takenMissed w taken remainder := by
    unfold State.takenMissed State.coinBooked
    rw [hval]
    congr 1
    split <;> omega
  rw [hcoin, hmiss]
  generalize hD : dispenseDraft w outcome taken { s.dispense w with ending := true, deferred := false } value
    (s.coinBooked w remainder) (s.takenMissed w taken remainder) = D
  have zrest : z = { x with position := z.position, ports := z.ports } := by rw [hb.rest, ← hz0]
  have zj : z.journal = s.journal := by rw [zrest, xrest]
  have zc : z.clock = s.clock := by rw [zrest, xrest]
  have xports : x.ports = s.ports := by rw [xrest]
  have z0ports : z0.ports = s.ports := by rw [← hz0]; exact xports
  obtain ⟨c1, c2⟩ := closes_of D w.port .dispense (s.dispense w).changed n z (by rw [zj, hnext])
  rw [c1]
  generalize stepGeneration _ _ = y at c2 ⊢
  have yrest : y = { x with position := y.position, journal := y.journal, ports := y.ports } := by rw [c2.rest, zrest]
  have ydisp : y.dispenses = s.dispenses.set w { s.dispense w with ending := true, deferred := false } := by rw [yrest, xrest]
  have ypath : y.path = { s.path with timers := s.path.timersBut (.dispense w) } := by rw [yrest, xrest]
  have ywait : y.journal.waitingDone = s.journal.waitingDone := by rw [c2.waitingDone, zj]
  have hfail : TakenWordFails w taken remainder s ↔ ((value : Int) ≠ 0 ∧ (s.position.account (drawerOf w)).intact = false) ∨
      (remainder ≠ 0 ∧ (s.position.account (remainderAccount w (s.dispense w).target)).intact = false) := by
    unfold TakenWordFails
    rw [hval]
    simp
  have hb := hb.congr hfail.symm
  have hgen : z.position.generation = s.position.generation := by
    rw [hb.generation (fun p => ?_), zp]
    · rfl
    · unfold Position.bookedBalance Position.bookedCoinDue
      simp only []
      split <;> split <;> simp only [Position.setAccount_generation]
  refine ⟨⟨z.position, ⟨?_, ?_, ?_, ?_,
    ⟨_, c2.staged.of_journal (by rw [zj]) (by rw [zj]) (by rw [zj]) (by rw [zj]) (by rw [zj]) (by rw [zj]) zc.symm rfl rfl rfl rfl rfl rfl,
      ?_⟩, ⟨{ dispenseDone outcome taken reason carried { s.dispense w with ending := true, deferred := false } value
        (s.coinBooked w remainder) (s.takenMissed w taken remainder) with closing := n }, ?_⟩⟩, ?_⟩, ?_, ?_, ?_, ?_⟩
  · simp only [awaitDurable_keeps, State.onDispense, ydisp, Pair.set_set]
  · simp only [awaitDurable_keeps, State.onDispense_keeps, ypath]
  · simp only [awaitDurable_keeps, State.onDispense_keeps, c2.position, hgen]
  · simp only [awaitDurable_journal, State.onDispense_keeps, c2.reservations, zj]
  · subst hD
    refine ⟨rfl, rfl, rfl, rfl, by rw [hval]; rfl, rfl, rfl, rfl, rfl, _, rfl, rfl, rfl, rfl, rfl, rfl, rfl, rfl, rfl, ?_⟩
    cases h : (s.dispense w).short with
    | none => rfl
    | some c => cases c <;> rfl
  · refine ⟨?_, rfl, rfl, rfl, rfl, rfl, rfl, rfl, rfl, rfl, by rw [hval]; rfl, rfl, rfl, rfl, rfl, rfl, rfl⟩
    simp only [awaitDurable_journal, State.onDispense_keeps, ywait]
  · have ha := hb.audit (s' := { s with position := z0.position }) (ks := [.journalHigh]) (by rw [← hz0, xrest])
      (by rw [← hz0, xrest]) rfl ((c2.tells.mono (by simp)).trans (tells_of_ports (t := awaitDurable w.port (some n)
        (dispenseDone outcome taken reason carried { s.dispense w with ending := true, deferred := false } value
          (s.coinBooked w remainder) (s.takenMissed w taken remainder)) (y.onDispense w fun _ => Dispense.idle)) _ (by simp)))
    rw [takenPosition_eq, hval]
    simp only [zp] at ha
    exact ha
  · intro b hb'
    cases b
    case dispenses | path | position | journal | ports => simp at hb'
    all_goals simp only [Kept, awaitDurable_keeps, State.onDispense_keeps]; rw [yrest, xrest] <;> simp
  · simp only [awaitDurable_keeps, State.onDispense_keeps, c2.lines, hb.lines, z0ports]
  · exact (((tells_of_ports (t := z0) _ z0ports).trans (hb.tells.mono (by simp))).trans (c2.tells.mono (by simp))).trans
      (tells_of_ports _ (by simp))
  · intro hn
    have hz : z.ports = s.ports := by rw [hb.fine hn]; exact z0ports
    exact ((tells_of_ports _ hz).trans c2.tells).trans (tells_of_ports _ (by simp))

end Sys2Proof.Machine
end

section
/-! The end of a present: the timer's expiry, the emptied pocket. -/
namespace Sys2Proof.Machine

/-! ## A retract that waits at the end of a step (R86) -/

theorem proceedDeferred_quiet (w : Teller) (s : State) (h : Quiet s) : proceedDeferred w s = s := by
  unfold proceedDeferred
  simp only []
  split
  · exact absurd ‹_› (h w).1
  · rfl

/-- A step that ends with a retract to be taken up ends as the state in which it is taken up does. -/
theorem settle_of_proceed (s x : State) (h : proceedRetract .b (proceedRetract .a s) = x) (hq : Quiet x) (hs : s.powered = true)
    (hx : x.powered = true) : settle s = settle x := by
  rw [settle_quiet x hq hx]
  unfold settle
  rw [if_pos hs]
  simp only [h, proceedDeferred_quiet _ x hq]

theorem proceedRetract_idle (w : Teller) (s : State) (h : s.retractWaits w = false) : proceedRetract w s = s := by
  unfold proceedRetract
  rw [if_neg (by simp [h])]

/-- The retract of one window is taken up, that of the other does not wait. -/
theorem proceedRetract_one (w : Teller) (s x : State) (hw : proceedRetract w s = x) (hs : s.retractWaits w.other = false)
    (hx : x.retractWaits w.other = false) : proceedRetract .b (proceedRetract .a s) = x := by
  cases w with
  | a => rw [hw]; exact proceedRetract_idle _ _ hx
  | b => rw [proceedRetract_idle .a s hs]; exact hw

/-- A command that leaves a retract to be taken up at the end of the step, which x has taken up. -/
theorem does_retract (c : Instr) (changed : List Block) (w : Teller) (s y x : State) (effect : State → Prop) (he : exec c s = done y)
    (hrun : s.running = true) (hw : proceedRetract w y = x) (hy : y.retractWaits w.other = false)
    (hx : x.retractWaits w.other = false) (hq : Quiet x) (hys : y.startUp = s.startUp) (hk : KeptBut changed s x)
    (hxs : x.startUp = s.startUp)
    (heff : ∀ t, KeptBut [] x t → (∀ p n, Told p n x → n.kind ≠ .alarmChange → Told p n t) → effect t) :
    Does c changed s effect := by
  have hpw := powered_of_running s hrun
  have hpx : x.powered = true := by rw [State.powered, hxs]; exact hpw
  have hset := settle_of_proceed y x (proceedRetract_one w y x hw hy hx) hq (by rw [State.powered, hys]; exact hpw) hpx
  exact does_done c changed s x effect (he.trans (congrArg Host.Outcome.next hset)) hq hpx hk heff

/-! ## A retract that begins, or that ends in a jammed module (R62, R86) -/

/-- A dispense record once its retract is entered (R86). -/
def Dispense.retracts (d : Dispense) : Dispense := { d with state := .retracting, shutterOpen := false, presentTimer := none }

theorem enterRetracting_eq (w : Teller) (s : State) :
    enterRetracting w s = { s with dispenses := s.dispenses.set w (s.dispense w).retracts } := rfl

theorem dispense_set_other (w u : Teller) (s : State) (d : Dispense) (h : u ≠ w) :
    ({ s with dispenses := s.dispenses.set w d } : State).dispense u = s.dispense u := Pair.get_set_other _ _ _ _ h

/-- The note path once the pocket's draw has begun (R62, R86). -/
def NotePath.drawsPocket (q : NotePath) (w : Teller) (presented : Quad Nat) : NotePath :=
  { q with
    draw := some ⟨.pocket w, .retract w, presented, Quad.zero⟩
    timers := q.timers ++ [⟨.dispense w, .pocket w, false⟩] }

/-- In READY the draw of the pocket begins (R86). -/
theorem proceedRetract_ready (w : Teller) (s : State) (hw : s.retractWaits w = true) (hr : s.path.state = .ready)
    (hroom : s.position.retract.total < Config.retractNotes ∨ (s.dispense w).presented.total = 0) :
    proceedRetract w s = { s with path := s.path.drawsPocket w (s.dispense w).presented } := by
  unfold proceedRetract
  rw [if_pos hw, hr]
  simp only []
  unfold startDraw
  rw [if_neg]
  · rfl
  · simp only [Position.retractFull, decide_eq_true_eq]
    omega

/-- The reservation that a jam marks (R62). -/
def State.jamMarked (s : State) (w : Teller) : List Reservation :=
  markFirst (fun r => r.port == w.port && r.kind == .dispense && !r.jammed) (s.dispense w).marks (s.dispense w).unpaid
    s.journal.reservations

theorem jamDispense_eq (w : Teller) (s : State) :
    jamDispense w s =
      { s with
        dispenses := s.dispenses.set w Dispense.idle
        path := { s.path with timers := s.path.timersBut (.dispense w) }
        position :=
          { s.position with
            generation := if (s.dispense w).changed then s.position.generation + 1 else s.position.generation }
        journal := { s.journal with reservations := s.jamMarked w } } := by
  unfold jamDispense stopTimers
  simp only [State.onPath, State.onDispense, timersBut_eq, stepGeneration, bumpGeneration, State.onPosition]
  cases (s.dispense w).changed <;> rfl

theorem jamMarked_first (w : Teller) (s : State) (before after : List Reservation) (r : Reservation)
    (h : s.journal.reservations = before ++ r :: after) (hp : r.port = w.port) (hk : r.kind = .dispense) (hj : r.jammed = false)
    (hb : ∀ x ∈ before, x.port ≠ w.port ∨ x.kind ≠ .dispense ∨ x.jammed = true) :
    s.jamMarked w =
      before ++ { r with jammed := true, marks := (s.dispense w).marks, unpaid := (s.dispense w).unpaid } :: after := by
  unfold State.jamMarked
  rw [h]
  refine markFirst_first _ _ _ before after r (fun x hx => ?_) (by simp [hp, hk, hj])
  rcases hb x hx with e | e | e <;> simp [e]

/-- In JAMMED the dispense ends without a draw (R62, R86). -/
theorem proceedRetract_jammed (w : Teller) (s : State) (hw : s.retractWaits w = true) (hr : s.path.state = .jammed) :
    proceedRetract w s = jamDispense w s := by
  unfold proceedRetract
  rw [if_pos hw, hr]

theorem presents_spec (w : Teller) (s : State) (h : s.presents w = true) :
    (s.dispense w).state = .presenting ∧ (s.dispense w).ending = false := by
  simp only [State.presents, Bool.and_eq_true, beq_iff_eq, Bool.not_eq_true'] at h
  exact ⟨h.1.1, h.1.2⟩

/-- A presenting dispense that enters RETRACTING leaves what else waits as it was. -/
theorem quiet_retracts (w : Teller) (s x : State) (h : Quiet s) (hp : (s.dispense w).state = .presenting)
    (hd : x.dispenses = s.dispenses.set w (s.dispense w).retracts) (he : x.escrow = s.escrow)
    (hdraw : x.path.draw.isSome = true ∨ x.path.state = .purging) : Quiet x := by
  have hdw : x.dispense w = (s.dispense w).retracts := by rw [State.dispense, hd]; exact Pair.get_set_self _ _ _
  have hdo (u : Teller) (hu : u ≠ w) : x.dispense u = s.dispense u := by
    rw [State.dispense, hd]; exact Pair.get_set_other _ _ _ _ hu
  have hflight (u : Teller) : x.dispenseInFlight u = s.dispenseInFlight u := by
    by_cases e : u = w
    · subst e
      simp only [State.dispenseInFlight, show x.dispenses.get u = _ from hdw, show s.dispenses.get u = s.dispense u from rfl,
        Dispense.retracts, hp]
      rfl
    · simp only [State.dispenseInFlight, show x.dispenses.get u = _ from hdo u e]
      rfl
  have hop (p : Port) : x.opInFlight p = s.opInFlight p := by
    simp only [State.opInFlight, hflight, he]
  intro u
  obtain ⟨h1, h2⟩ := h u
  refine ⟨?_, fun hr => ?_⟩
  · by_cases e : u = w
    · subst e; rw [hdw]; simp [Dispense.retracts]
    · rw [hdo u e, hop]; exact h1
  · rcases hdraw with hdraw | hpurge
    · simp only [State.retractWaits, Bool.and_eq_true] at hr
      rw [Option.isNone_iff_eq_none] at hr
      rw [hr.2] at hdraw
      cases hdraw
    · exact hpurge

/-- Nothing waits where no dispense has a deferred grant or is drawn back. -/
theorem quiet_of_atRest (x : State)
    (h : ∀ u, ¬((x.dispense u).state = .queued ∧ (x.dispense u).deferred = true) ∧ (x.dispense u).state ≠ .retracting) :
    Quiet x := by
  intro u
  obtain ⟨h1, h2⟩ := h u
  refine ⟨fun ⟨q1, q2, _⟩ => h1 ⟨q1, q2⟩, fun hr => ?_⟩
  simp only [State.retractWaits, Bool.and_eq_true, beq_iff_eq] at hr
  exact absurd hr.1.1 h2

theorem Teller.eq_other {u w : Teller} (h : u ≠ w) : u = w.other := by
  cases u <;> cases w <;> simp_all [Teller.other]

/-- A dispense that has ended leaves the other window at rest. -/
theorem quiet_of_ended (w : Teller) (s x : State) (h : OtherAtRest w s) (hd : x.dispenses = s.dispenses.set w Dispense.idle) :
    Quiet x := by
  refine quiet_of_atRest x fun u => ?_
  by_cases e : u = w
  · subst e
    rw [show x.dispense u = Dispense.idle by rw [State.dispense, hd]; exact Pair.get_set_self _ _ _]
    decide
  · rw [show x.dispense u = s.dispense u by rw [State.dispense, hd]; exact Pair.get_set_other _ _ _ _ e, Teller.eq_other e]
    exact h

/-! ## The end of a present (R85, R86) -/

/-- A present whose timer expires (R86). -/
theorem present_expires (w : Teller) (s : State) (hrun : s.running = true) (hp : s.presents w = true) :
    exec (.presentTimerExpiry w) s = done (enterRetracting w s) := by
  show done (event (fun s => if s.presents w then enterRetracting w s else s) s) = _
  rw [event_running _ _ hrun, if_pos hp]

theorem present_retracts (w : Teller) (s : State) (hrun : s.running = true) (hq : Quiet s) (hp : s.presents w = true) :
    let d := s.dispense w
    (s.path.state = .ready → s.path.draw = none →
      s.position.retract.total < Config.retractNotes ∨ d.presented.total = 0 →
      Does (.presentTimerExpiry w) [.dispenses, .path] s (fun t =>
        t.dispenses = s.dispenses.set w d.retracts ∧ t.path = s.path.drawsPocket w d.presented)) ∧
    (s.path.state = .jammed → s.path.draw = none → OtherAtRest w s →
      Does (.presentTimerExpiry w) [.dispenses, .path, .position, .journal] s (RetractJammed w s)) ∧
    (s.path.state = .purging →
      Does (.presentTimerExpiry w) [.dispenses] s (fun t => t.dispenses = s.dispenses.set w d.retracts)) := by
  intro d
  have he := present_expires w s hrun hp
  obtain ⟨hst, hend⟩ := presents_spec w s hp
  rw [enterRetracting_eq] at he
  generalize hy : ({ s with dispenses := s.dispenses.set w (s.dispense w).retracts } : State) = y at he
  have hydw : y.dispense w = (s.dispense w).retracts := by rw [← hy]; exact Pair.get_set_self _ _ _
  have hydo : y.dispense w.other = s.dispense w.other := by
    rw [← hy]; exact Pair.get_set_other _ _ _ _ (by cases w <;> decide)
  have hypath : y.path = s.path := by rw [← hy]
  have hwaits (hdraw : s.path.draw = none) : y.retractWaits w = true := by
    simp [State.retractWaits, hydw, hypath, Dispense.retracts, hend, hdraw]
  have hother : y.retractWaits w.other = s.retractWaits w.other := by simp only [State.retractWaits, hydo, hypath]
  refine ⟨fun hr hdraw hroom => ?_, fun hj hdraw hrest => ?_, fun hpu => ?_⟩
  · have hx := proceedRetract_ready w y (hwaits hdraw) (by rw [hypath]; exact hr) (by
      rw [hydw, ← hy]; exact hroom)
    rw [hydw, hypath] at hx
    have hno : s.retractWaits w.other = false := by
      cases h : s.retractWaits w.other
      · rfl
      · have := (hq w.other).2 h
        rw [hr] at this
        cases this
    refine does_retract _ _ w s y _ _ he hrun hx (by rw [hother]; exact hno) ?_ ?_ (by rw [← hy]) ?_ (by rw [← hy])
      fun t hk _ => ⟨?_, ?_⟩
    · simp [State.retractWaits, NotePath.drawsPocket]
    · exact quiet_retracts w s _ hq hst (by rw [← hy]) (by rw [← hy]) (.inl rfl)
    · intro b hb
      cases b
      case dispenses | path => simp at hb
      all_goals (rw [← hy]; simp [Kept])
    · rw [show t.dispenses = _ from hk .dispenses (by simp), ← hy]
    · rw [show t.path = _ from hk .path (by simp)]; rfl
  · have hx := proceedRetract_jammed w y (hwaits hdraw) (by rw [hypath]; exact hj)
    rw [jamDispense_eq] at hx
    have hyd : y.dispenses.set w Dispense.idle = s.dispenses.set w Dispense.idle := by rw [← hy]; exact Pair.set_set _ _ _ _
    have hno : s.retractWaits w.other = false := by
      obtain ⟨-, h2⟩ := hrest
      simp [State.retractWaits, h2]
    refine does_retract _ _ w s y _ _ he hrun hx (by rw [hother]; exact hno) ?_ ?_ (by rw [← hy]) ?_ (by rw [← hy])
      fun t hk _ => ⟨⟨?_, ?_, ?_, fun before after r hb1 hb2 hb3 hb4 hb5 => ?_⟩, ?_⟩
    · have hxo : ({ y with dispenses := y.dispenses.set w Dispense.idle } : State).dispense w.other = s.dispense w.other := by
        rw [dispense_set_other _ _ _ _ (by cases w <;> decide)]; exact hydo
      simp only [State.retractWaits, State.dispense] at hxo hno ⊢
      rw [hxo]
      rw [hypath]
      exact hno
    · exact quiet_of_ended w s _ hrest hyd
    · intro b hb
      cases b
      case dispenses | path | position | journal => simp at hb
      all_goals (rw [← hy]; simp [Kept])
    · rw [show t.dispenses = _ from hk .dispenses (by simp)]; exact hyd
    · rw [show t.position = _ from hk .position (by simp), hydw, ← hy]; rfl
    · rw [show t.journal = _ from hk .journal (by simp), ← hy]
    · rw [show t.journal = _ from hk .journal (by simp)]
      have hm := jamMarked_first w y before after r (by rw [← hy]; exact hb1) hb2 hb3 hb4 hb5
      rw [hydw] at hm
      exact hm
    · rw [show t.path = _ from hk .path (by simp), hypath]
  · refine does_done _ _ s y _ he ?_ ?_ ?_ fun t hk _ => ?_
    · exact quiet_retracts w s y hq hst (by rw [← hy]) (by rw [← hy]) (.inr (by rw [hypath]; exact hpu))
    · rw [← hy]; exact powered_of_running s hrun
    · intro b hb
      cases b
      case dispenses => simp at hb
      all_goals (rw [← hy]; simp [Kept])
    · rw [show t.dispenses = _ from hk .dispenses (by simp), ← hy]

/-! ## The end of a dispense at the end of the step -/

/-- What a dispense's end is measured from, and what shows it. -/
theorem DispenseClosed.transfer {w : Teller} {outcome : Nat} {taken : Quad Nat} {n : Nat} {p : Position} {reason : Option Reason}
    {carried : Results} {booked unbooked : Nat} {s t s' t' : State}
    (h : DispenseClosed w outcome taken n p reason carried booked unbooked s t)
    (hdo : s'.dispenses.set w Dispense.idle = s.dispenses.set w Dispense.idle)
    (hd : s.dispense w = { s'.dispense w with
      state := (s.dispense w).state, presentTimer := (s.dispense w).presentTimer, shutterOpen := (s.dispense w).shutterOpen
      deferred := (s.dispense w).deferred, stop := (s.dispense w).stop })
    (hpath : { s'.path with timers := s'.path.timersBut (.dispense w) } = { s.path with timers := s.path.timersBut (.dispense w) })
    (hj : s'.journal = s.journal) (hc : s'.clock = s.clock) (hs : s'.settings = s.settings)
    (td : t'.dispenses = t.dispenses) (tpath : t'.path = t.path) (tp : t'.position = t.position) (tj : t'.journal = t.journal) :
    DispenseClosed w outcome taken n p reason carried booked unbooked s' t' := by
  obtain ⟨h1, h2, h3, h4, ⟨r, h5, h6⟩, ⟨o, h7⟩⟩ := h
  have hv : s'.value taken = s.value taken := by rw [State.value, State.value, hs]
  rw [hd] at h3 h6 h7
  refine ⟨by rw [td, h1, hdo], by rw [tpath, h2, hpath], by rw [tp, h3], by rw [tj, h4, hj],
    ⟨r, h5.of_journal (by rw [hj]) (by rw [hj]) (by rw [hj]) (by rw [hj]) (by rw [hj]) (by rw [hj]) hc (by rw [tj]) (by rw [tj])
      (by rw [tj]) (by rw [tj]) (by rw [tj]) (by rw [tj]), ?_⟩, ⟨o, ?_⟩⟩
  · rw [hv]; exact h6
  · rw [hv, tj, hj]; exact h7

theorem AuditFollows.transfer {failed : Prop} {q p : Position} {s t s' t' : State} (h : AuditFollows failed q p s t)
    (hc : s'.clock = s.clock) (ha : s'.alarm = s.alarm) (hn : Tells [.alarmChange] t t') : AuditFollows failed q p s' t' :=
  ⟨h.1, fun hf => (h.2 hf).transfer hc ha (fun x n hx hne => hn x n hx (by simp at hne ⊢; exact hne.1))⟩

/-- A dispense that comes to its end by an event, in the state y: closed as the end of the step shows it, and its bookings. -/
theorem dispense_ends_of (c : Instr) (w : Teller) (outcome : Nat) (taken : Quad Nat) (due : Bool) (reason : Option Reason)
    (carried : Results) (n : Nat) (s y : State) (effect : State → Prop)
    (he : exec c s = done (endDispense w outcome taken due reason carried y)) (hrun : s.running = true) (hrest : OtherAtRest w s)
    (hroom : EndRoom n y) (hpocket : PocketHolds w taken y) (hk : KeptBut [.dispenses, .path, .position, .journal] s y)
    (hyd : y.dispenses.set w Dispense.idle = s.dispenses.set w Dispense.idle)
    (hx : ∀ t, DispenseEnds w outcome taken (if due then (y.dispense w).remainder else 0) reason carried n y
        (endDispense w outcome taken due reason carried y) →
      KeptBut [] (endDispense w outcome taken due reason carried y) t →
      Tells [.alarmChange] (endDispense w outcome taken due reason carried y) t → effect t) :
    Does c [.dispenses, .path, .position, .journal] s effect := by
  have hends := endDispense_ends w outcome taken due reason carried n y hroom hpocket
  generalize endDispense w outcome taken due reason carried y = z at he hends hx
  obtain ⟨p, ⟨hd, -⟩, -⟩ := hends.closed
  have hz : KeptBut [.dispenses, .path, .position, .journal] y z :=
    keptBut_without_ports hends.kept (kept_ports_of_lines _ _ hends.lines) (by simp)
  have hsz := hk.trans hz
  refine does_done c _ s z effect he (quiet_of_ended w s z hrest (hd.trans hyd)) ?_ hsz fun t hkept hn => ?_
  · rw [State.powered, show z.startUp = s.startUp from hsz .startUp (by simp)]
    exact powered_of_running s hrun
  · exact hx t hends hkept fun p x hx hne => hn p x hx (by simpa using hne)

/-- The customer empties the pocket (R85, R90). -/
theorem pocket_emptied (w : Teller) (s : State) (n : Nat) (hrun : s.running = true) (hrest : OtherAtRest w s)
    (hp : s.presents w = true) (hroom : EndRoom n s) :
    let d := s.dispense w
    let remainder := if d.short.isSome then 0 else d.remainder
    PocketHolds w d.presented s →
    Does (.pocketEmpty w) [.dispenses, .path, .position, .journal] s
      (TakenAndEnded w (if d.short.isSome then 3 else if d.capped then 2 else 1) d.presented remainder n s) := by
  intro d remainder hpocket
  let y : State := s.onDispense w (fun d => { d with presentTimer := none, shutterOpen := false })
  have he : exec (.pocketEmpty w) s =
      done (endDispense w d.takenOutcome d.presented d.short.isNone none .none y) := by
    show done (event (fun s => if s.presents w then pocketEmptied w s else s) s) = _
    rw [event_running _ _ hrun, if_pos hp]
    rfl
  have hyd : y.dispense w = { d with presentTimer := none, shutterOpen := false } := Pair.get_set_self _ _ _
  have hidle : y.dispenses.set w Dispense.idle = s.dispenses.set w Dispense.idle := Pair.set_set _ _ _ _
  have hrem : (if d.short.isNone = true then (y.dispense w).remainder else 0) = remainder := by
    rw [hyd]
    simp only [remainder]
    cases d.short <;> rfl
  refine dispense_ends_of _ w _ _ _ _ _ n s y _ he hrun hrest (by exact hroom) (by exact hpocket) ?_ hidle fun t hends hk hn => ?_
  · intro b hb
    cases b
    case dispenses | path | position | journal => simp at hb
    all_goals simp [Kept, y]
  · rw [hrem] at hends
    obtain ⟨p, hclosed, haudit⟩ := hends.closed
    have htarget : (y.dispense w).target = d.target := by rw [hyd]
    refine ⟨p, ?_, ?_⟩
    · have hc := hclosed.transfer (s' := s) (t' := t) hidle.symm (by rw [hyd]) rfl rfl rfl rfl (hk .dispenses (by simp))
        (hk .path (by simp)) (hk .position (by simp)) (hk .journal (by simp))
      simp only [State.takenMissed, State.coinBooked, htarget] at hc
      exact hc
    · have ha := haudit.transfer (s' := s) (t' := t) rfl rfl hn
      simp only [TakenWordFails, takenPosition_eq, htarget] at ha
      exact ha

/-- Settles O20: the timer's expiry in each module state, and the emptied pocket. -/
theorem presentEndsTakenOrRetracted : Obligations.PresentEndsTakenOrRetracted := by
  unfold Obligations.PresentEndsTakenOrRetracted
  refine ⟨fun w s hrun hq hp => present_retracts w s hrun hq hp, fun w s n hrun hq hrest hp hroom => ?_⟩
  exact pocket_emptied w s n hrun hrest hp hroom

end Sys2Proof.Machine
end

section
/-! The end of a purge: the debit of a commit it closes, its record, the OP_DONEs (R65, R114, R199). -/
namespace Sys2Proof.Machine

/-! ## The lowest start sequence (R65) -/

theorem leastOf_le (l : List Nat) : ∀ x ∈ l, leastOf l ≤ x := by
  induction l with
  | nil => simp
  | cons n l ih =>
    cases l with
    | nil => simp [leastOf]
    | cons m ns =>
      intro x hx
      rw [leastOf]
      rcases List.mem_cons.mp hx with rfl | hx
      · exact Nat.min_le_left _ _
      · exact (Nat.min_le_right _ _).trans (ih x hx)

theorem leastOf_mem (l : List Nat) (h : l ≠ []) : leastOf l ∈ l := by
  induction l with
  | nil => exact absurd rfl h
  | cons n l ih =>
    cases l with
    | nil => simp [leastOf]
    | cons m ns =>
      rw [leastOf]
      rcases Nat.le_total n (leastOf (m :: ns)) with hle | hle
      · rw [Nat.min_eq_left hle]; exact List.mem_cons_self
      · rw [Nat.min_eq_right hle]; exact List.mem_cons_of_mem _ (ih (by simp))

/-- The lowest start sequence is that of a dispense closed, or 0 where none is. -/
theorem lowestStart_spec (closed : List Reservation) :
    (∀ x ∈ closed, x.kind = .dispense → lowestStart closed ≤ x.startSequence) ∧
      ((∃ x ∈ closed, x.kind = .dispense ∧ lowestStart closed = x.startSequence) ∨
        (lowestStart closed = 0 ∧ ∀ x ∈ closed, x.kind ≠ .dispense)) := by
  unfold lowestStart
  generalize hl : (closed.filter (fun r => r.kind == .dispense)).map (fun r => r.startSequence) = l
  have hmem (n : Nat) : n ∈ l ↔ ∃ x ∈ closed, x.kind = .dispense ∧ x.startSequence = n := by
    rw [← hl]; simp [and_assoc]
  refine ⟨fun x hx hk => leastOf_le l _ ((hmem _).mpr ⟨x, hx, hk, rfl⟩), ?_⟩
  by_cases hn : l = []
  · refine .inr ⟨by rw [hn]; rfl, fun x hx hk => ?_⟩
    have := (hmem _).mpr ⟨x, hx, hk, rfl⟩
    rw [hn] at this
    cases this
  · obtain ⟨x, hx, hk, he⟩ := (hmem _).mp (leastOf_mem l hn)
    exact .inl ⟨x, hx, hk, he.symm⟩

/-! ## The operations a purge closes (R65, R199) -/

/-- What waits on a PURGE record for the operations that had ended JAMMED. -/
def closedDone (n : Nat) (debit : OpDone) (closed : List Reservation) : List WaitingDone :=
  (closed.filter (fun r => r.jammed)).map (fun r => ⟨r.port, { r.done debit with closing := n }⟩)

theorem awaitClosed_eq (n : Nat) (debit : OpDone) (closed : List Reservation) (s : State) :
    awaitClosed (some n) debit closed s =
      s.onJournal (fun j => { j with waitingDone := j.waitingDone ++ closedDone n debit closed }) := by
  unfold awaitClosed
  induction closed generalizing s with
  | nil => simp [closedDone, State.onJournal]
  | cons r closed ih =>
    rw [List.foldl_cons, ih]
    cases h : r.jammed <;> simp [closedDone, h, awaitDurable, State.onJournal]

theorem Reservation.done_commit (r : Reservation) (debit : OpDone) (h : r.kind = .commit) :
    r.done debit = { debit with startSequence := r.startSequence, outcome := 3 } := by
  unfold Reservation.done
  rw [h]
  rfl

theorem Reservation.done_other (r : Reservation) (debit : OpDone) (h : r.kind ≠ .commit) :
    r.done debit =
      { OpDone.zero r.kind with
        startSequence := r.startSequence, outcome := if r.kind = .dispense then 14 else 3, marks := r.marks
        unpaid := r.unpaid, remaining := debit.remaining } := by
  unfold Reservation.done
  cases hk : r.kind <;> simp_all [OpKind.jammedCode]

/-! ## The end of a purge (R65) -/

/-- The PURGE record's draft (R65). -/
def purgeDraft (p : Purge) (outcome : PurgeOutcome) (closed : List Reservation) (value unbooked : Nat) : Draft :=
  { kind := .purge, port := p.port, outcome := outcome.code, marks := { unbooked := 0 < unbooked }
    counts := p.booked.toInt, amount := value, extra := lowestStart closed }

/-- The reservations a purge closes, and those it leaves. -/
def State.closedBy (s : State) (p : Purge) : List Reservation := s.journal.reservations.filter p.closes

/-- The debit of a purge, where it closes a commit (R65). -/
def purgeDebit (debits : Bool) (s : State) : Nat × State := if debits then debitCommit s else (0, s)

/-- The end of a purge, step by step. -/
theorem finishPurge_eq (p : Purge) (outcome : PurgeOutcome) (s : State) :
    let closed := s.closedBy p
    let tally := s.escrow.tally
    let value := s.value tally.notes
    let b := purgeDebit (closed.any (fun r => r.kind == .commit)) s
    let y := b.2.onJournal (fun j => { j with reservations := j.reservations.filter (fun r => !p.closes r) })
    let draft := purgeDraft p outcome closed (y.value p.booked) b.1
    let x := if closed = [] then eventApplied draft y else stageApplied draft y
    let z := awaitClosed x.1 (tally.done value b.1 x.2.escrow.stack) closed x.2
    let ready : Bool := outcome == .complete || outcome == .short
    let u := z.onPath (fun q => { q with state := if ready then .ready else .jammed, purge := none })
    finishPurge p outcome s = if ready then raise .s (.moduleFault (.ready outcome)) u else u := rfl

/-- The debit of the commit a purge closes: applied, or what it misses. -/
theorem purgeDebit_booked (debits : Bool) (s : State) :
    let tally := s.escrow.tally
    let value : Nat := s.value (Quad.add tally.fit tally.unfit)
    let x := s.onEscrow (fun e => if debits then { e with tally := CommitTally.zero } else e)
    (purgeDebit debits s).1 = (if debits then debitMissed tally value s.position else 0) ∧
      Booked (debits = true ∧ DebitWordFails tally value s.position)
        (fun p => if debits then debitedPosition tally value p else p) x (purgeDebit debits s).2 := by
  intro tally value x
  cases debits with
  | false => exact ⟨rfl, (booked_onPosition id s).congr (by simp)⟩
  | true =>
    obtain ⟨h1, h2⟩ := debitCommit_booked s
    exact ⟨h1, h2.congr (by simp [tally, value])⟩

/-- A record of an event that has room is staged as an end record is. -/
theorem eventApplied_room (d : Draft) (s : State) (h : s.journal.eventRoom = true) : eventApplied d s = stageApplied d s := by
  unfold eventApplied stageApplied
  rw [eventRecord_room d s h]

/-- What waits for the operations a purge has closed (R92, R199). -/
theorem closedDone_spec (n : Nat) (closed : List Reservation) (tally : CommitTally) (value unbooked : Nat) (stack : List Bundle) :
    List.Forall₂
      (fun (x : Reservation) (w : WaitingDone) =>
        w.port = x.port ∧ w.done.kind = x.kind ∧ w.done.closing = n ∧ w.done.startSequence = x.startSequence ∧
          w.done.outcome = (if x.kind = .dispense then 14 else 3) ∧
          w.done.unbooked = (if x.kind = .commit then unbooked else 0) ∧
          (x.kind ≠ .commit → w.done.marks = x.marks ∧ w.done.unpaid = x.unpaid) ∧
          (x.kind = .insert ∨ x.kind = .return_ → w.done.remaining = stack) ∧
          (x.kind = .commit →
            w.done.counts = tally.perCassette ∧ w.done.value = value ∧ w.done.remaining = stack ∧
              w.done.marks.unbooked = decide (0 < unbooked)))
      (closed.filter (fun r => r.jammed)) (closedDone n (tally.done value unbooked stack) closed) := by
  unfold closedDone
  rw [List.forall₂_map_right_iff, List.forall₂_same]
  intro x _
  by_cases hk : x.kind = .commit
  · rw [Reservation.done_commit x _ hk]
    simp [hk, CommitTally.done, OpDone.zero]
  · rw [Reservation.done_other x _ hk]
    simp [hk, CommitTally.done, OpDone.zero]

/-- The end of a purge that the journal has room for. -/
structure PurgeEnds (p : Purge) (outcome : PurgeOutcome) (n : Nat) (s t : State) : Prop where
  ended : PurgeEnded p outcome.code (if outcome = .complete ∨ outcome = .short then .ready else .jammed) n s.position s t
  kept : KeptBut [.escrow, .path, .position, .journal, .ports] s t
  lines : t.ports.lines = s.ports.lines
  tells : Tells [.restriction, .journalHigh, .moduleFault] s t
  again : s.position.causes.any = true → Tells [.journalHigh, .moduleFault] s t
  told : outcome = .complete ∨ outcome = .short → Told .s (.moduleFault (.ready outcome)) t

/-- The closing record of a purge with its reservations and OP_DONEs, once the debit is made. -/
theorem purge_closes (p : Purge) (draft : Draft) (debit : List Bundle → OpDone) (closed : List Reservation) (n : Nat) (s : State)
    (hn : s.journal.next = some n) (hroom : closed = [] → s.journal.eventRoom = true) :
    let y := s.onJournal (fun j => { j with reservations := j.reservations.filter (fun r => !p.closes r) })
    let x := if closed = [] then eventApplied draft y else stageApplied draft y
    let z := awaitClosed x.1 (debit x.2.escrow.stack) closed x.2
    z = { s with position := z.position, journal := z.journal, ports := z.ports } ∧
      z.position = { s.position with lastApplied := n } ∧
      z.journal.reservations = s.journal.reservations.filter (fun r => !p.closes r) ∧
      Staged (draft.record n s.clock) s z ∧
      z.journal.waitingDone = s.journal.waitingDone ++ closedDone n (debit s.escrow.stack) closed ∧
      z.ports.lines = s.ports.lines ∧ Tells [.journalHigh] s z := by
  intro y x z
  have hx : x = stageApplied draft y := by
    simp only [x]
    split
    · next h =>
      have hs := hroom h
      have hle := List.length_filter_le (fun r => !p.closes r) s.journal.reservations
      refine eventApplied_room draft y ?_
      simp only [Journal.eventRoom, Bool.and_eq_true, decide_eq_true_eq] at hs ⊢
      exact ⟨lt_of_le_of_lt hle hs.1, hs.2⟩
    · rfl
  obtain ⟨h1, h2, r, hs, hst, hre, -, hwd, rfl⟩ := stageApplied_recorded draft y n hn
  rw [← hx] at h1 h2 hst hre hwd
  have hz : z = x.2.onJournal (fun j => { j with waitingDone := j.waitingDone ++ closedDone n (debit x.2.escrow.stack) closed }) := by
    simp only [z, h1]
    exact awaitClosed_eq _ _ _ _
  have xe : x.2.escrow = s.escrow := by rw [hx]; simp [y]
  have xl : x.2.ports.lines = s.ports.lines := by rw [hx, stageApplied_lines]; rfl
  have xt : Tells [.journalHigh] s x.2 := by
    rw [hx]; exact (tells_of_ports (t := y) _ rfl).trans (tells_stageApplied _ _)
  rw [xe] at hz
  rw [hz]
  refine ⟨?_, h2, hre, ?_, ?_, xl, xt.trans (tells_of_ports _ rfl)⟩
  · rw [hx]
    apply rest_of_fields <;> simp [y]
  · exact hst.of_journal rfl rfl rfl rfl rfl rfl rfl rfl rfl rfl rfl rfl rfl
  · exact congrArg (· ++ closedDone n (debit s.escrow.stack) closed) hwd

theorem raiseIf_told (c : Bool) (x : Notice) (s : State) :
    let t := if c then raise .s x s else s
    t = { s with ports := t.ports } ∧ t.ports.lines = s.ports.lines ∧ Tells [x.kind] s t ∧ (c = true → Told .s x t) := by
  cases c
  · exact ⟨rfl, rfl, tells_of_ports _ rfl, by simp⟩
  · exact ⟨rfl, raise_lines _ _ _, tells_raise _ _ _ _ (by simp), fun _ => raise_told _ _ _⟩

theorem closedBy_eq_nil_iff (p : Purge) (s : State) : s.closedBy p = [] ↔ s.journal.reservations.any p.closes = false := by
  simp [State.closedBy]

/-- What the room for a purge's record comes to. -/
theorem purgeRoom_spec (p : Purge) (n : Nat) (s : State) (h : PurgeRoom p n s) :
    s.journal.next = some n ∧ (s.closedBy p = [] → s.journal.eventRoom = true) ∧ (s.closedBy p ≠ [] → EndRoom n s) := by
  have h : if s.closedBy p = [] then s.journal.eventRoom = true ∧ s.journal.next = some n else EndRoom n s := h
  by_cases hc : s.closedBy p = []
  · rw [if_pos hc] at h
    exact ⟨h.2, fun _ => h.1, fun hn => absurd hc hn⟩
  · rw [if_neg hc] at h
    exact ⟨h.2.2, fun hn => absurd hn hc, fun _ => h⟩

theorem PurgeRoom.congr {p q : Purge} {n : Nat} {s t : State} (h : PurgeRoom p n s) (hq : q.startUp = p.startUp)
    (hj : t.journal = s.journal) : PurgeRoom q n t := by
  unfold PurgeRoom EndRoom at *
  rw [hq, hj]
  exact h

/-- The end of a purge, made at once: everything R65 says of it. -/
theorem endPurge_ends (p : Purge) (outcome : PurgeOutcome) (n : Nat) (s : State) (hp : s.path.purge = some p)
    (hroom : PurgeRoom p n s) : PurgeEnds p outcome n s (endPurge outcome s) := by
  obtain ⟨hnext, hevent, hend⟩ := purgeRoom_spec p n s hroom
  let x : State := { s with
    path := { s.path with draw := none, purge := some { p with rest := [], ended := some outcome }, timers := s.path.timersBut .purge } }
  have hx : endPurge outcome s = finishPurge p outcome x := by
    have hy : stopTimers .purge (s.onPath (fun q => { q with draw := none })) =
        { s with path := { s.path with draw := none, timers := s.path.timersBut .purge } } := by
      unfold stopTimers
      simp only [State.onPath, timersBut_eq]
    unfold endPurge
    rw [hy]
    simp only [hp]
    by_cases hc : s.closedBy p = []
    · have hany := (closedBy_eq_nil_iff p s).mp hc
      rw [if_neg (by simpa using hany)]
      rfl
    · have hany := Bool.of_not_eq_false (mt (closedBy_eq_nil_iff p s).mpr hc)
      rw [if_pos (by exact hany)]
      obtain ⟨hhold, hfree, -⟩ := hend hc
      exact holdOrFinish_now _ _ hhold hfree
  rw [hx, finishPurge_eq]
  have hcl : x.closedBy p = s.closedBy p := rfl
  have htally : x.escrow.tally = s.escrow.tally := rfl
  have hv (q : Quad Nat) : x.value q = s.value q := rfl
  simp only [hcl, htally, hv]
  generalize hd : (s.closedBy p).any (fun r => r.kind == .commit) = debits
  obtain ⟨b1, b2⟩ := purgeDebit_booked debits x
  simp only [htally, hv] at b1 b2
  rw [b1]
  have hval : s.value s.escrow.tally.notes = s.value (Quad.add s.escrow.tally.fit s.escrow.tally.unfit) := rfl
  rw [hval]
  generalize hvalue : s.value (Quad.add s.escrow.tally.fit s.escrow.tally.unfit) = value at b1 b2 ⊢
  generalize hmiss : (if debits = true then debitMissed s.escrow.tally value x.position else 0) = missed
  generalize (purgeDebit debits x).2 = y at b2 ⊢
  have yj : y.journal = s.journal := by rw [b2.rest]; rfl
  have yc : y.clock = s.clock := by rw [b2.rest]; rfl
  have ys : y.settings = s.settings := by rw [b2.rest]; rfl
  have hbooked (f : Journal → Journal) : (y.onJournal f).value p.booked = s.value p.booked := by
    simp [State.value, ys]
  simp only [hbooked]
  obtain ⟨c1, c2, c3, c4, c5, c6, c7⟩ := purge_closes p (purgeDraft p outcome (s.closedBy p) (s.value p.booked) missed)
    (s.escrow.tally.done value missed) (s.closedBy p) n y (by rw [yj, hnext]) (by rw [yj]; exact hevent)
  simp only [] at c1 c2 c3 c4 c5 c6 c7
  generalize awaitClosed _ _ _ _ = z at c1 c2 c3 c4 c5 c6 c7 ⊢
  have hj : x.journal = s.journal := rfl
  generalize hready : (outcome == .complete || outcome == .short) = ready
  have hstate : (if outcome = .complete ∨ outcome = .short then ModuleState.ready else .jammed) =
      if ready then .ready else .jammed := by
    rw [← hready]; simp
  generalize hw : z.onPath (fun q => { q with state := if ready = true then .ready else .jammed, purge := none }) = w
  obtain ⟨e1, e2, e3, e4⟩ := raiseIf_told ready (.moduleFault (.ready outcome)) w
  generalize (if ready = true then raise Port.s (.moduleFault (.ready outcome)) w else w) = t at e1 e2 e3 e4 ⊢
  have wrest : w = { x with
      path := { x.path with state := if ready then .ready else .jammed, purge := none }
      escrow := y.escrow, position := z.position, journal := z.journal, ports := z.ports } := by
    rw [← hw, c1, b2.rest]; rfl
  have trest : t = { s with
      path := { s.path with
        state := if ready then .ready else .jammed, draw := none, purge := none, timers := s.path.timersBut .purge }
      escrow := y.escrow, position := z.position, journal := z.journal, ports := t.ports } := by
    rw [e1, wrest]
  have ye : y.escrow = if debits then { s.escrow with tally := CommitTally.zero } else s.escrow := by rw [b2.rest]; rfl
  have yports : Tells [.restriction] s y := (tells_of_ports (t := x) _ rfl).trans ((tells_of_ports _ rfl).trans b2.tells)
  have zt : Tells [.journalHigh, .moduleFault] y t :=
    (c7.mono (by simp)).trans ((tells_of_ports (t := w) _ (by rw [wrest])).trans (e3.mono (by simp [Notice.kind])))
  have hdebits : ((s.journal.reservations.filter (fun r => p.startUp || r.jammed)).any (fun r => r.kind == .commit)) = debits := hd
  refine ⟨?_, ?_, ?_, ?_, ?_, ?_⟩
  · unfold PurgeEnded
    simp only [hdebits, hvalue, hstate]
    refine ⟨?_, ⟨y.position, ?_, ?_⟩, ?_, ?_, ⟨_, c4.of_journal ?_ ?_ ?_ ?_ ?_ ?_ ?_ ?_ ?_ ?_ ?_ ?_ ?_, ?_⟩, _, ?_, closedDone_spec n _ s.escrow.tally value _ _⟩
    · rw [trest]
    · exact b2.audit (s' := s) rfl rfl rfl zt
    · rw [trest]; exact c2
    · rw [trest]; exact ye
    · rw [trest]; exact c3.trans (by rw [yj]; rfl)
    iterate 6 rw [yj]
    · exact yc.symm
    iterate 6 rw [trest]
    · refine ⟨rfl, rfl, rfl, rfl, rfl, ?_, lowestStart_spec _⟩
      rw [← hmiss]; rfl
    · rw [trest]
      refine c5.trans ?_
      rw [yj, ← hmiss, ye]
      cases debits <;> rfl
  · intro b hb
    cases b
    case escrow | path | position | journal | ports => simp at hb
    all_goals rw [trest]; simp [Kept]
  · rw [e2, show w.ports = z.ports by rw [wrest], c6, b2.lines]; rfl
  · exact (yports.mono (by simp)).trans (zt.mono (by simp))
  · intro hq
    exact (tells_of_ports (t := y) _ (b2.again hq)).trans zt
  · intro ho
    exact e4 (by rw [← hready]; simpa using ho)

/-- A purge's end, seen from states that agree with those in which it was made. -/
theorem PurgeEnded.transfer {p q : Purge} {outcome : Nat} {state : ModuleState} {n : Nat} {before : Position} {s t s' t' : State}
    (h : PurgeEnded q outcome state n before s t) (hq : q.startUp = p.startUp) (hb : q.booked = p.booked)
    (hpath : { s'.path with draw := none, purge := none, timers := s'.path.timersBut .purge } =
      { s.path with draw := none, purge := none, timers := s.path.timersBut .purge })
    (hj : s'.journal = s.journal) (he : s'.escrow = s.escrow) (hc : s'.clock = s.clock) (ha : s'.alarm = s.alarm)
    (hs : s'.settings = s.settings) (tpath : t'.path = t.path) (te : t'.escrow = t.escrow) (tp : t'.position = t.position)
    (tj : t'.journal = t.journal) (ht : Tells [.alarmChange] t t') : PurgeEnded p outcome state n before s' t' := by
  have hv (x : Quad Nat) : s'.value x = s.value x := by rw [State.value, State.value, hs]
  unfold PurgeEnded at h ⊢
  rw [hq, hb] at h
  simp only [hj, he, hv] at h ⊢
  obtain ⟨h1, ⟨x, h2, h3⟩, h4, h5, ⟨r, h6, h7⟩, h8⟩ := h
  refine ⟨?_, ⟨x, h2.transfer hc ha ht, ?_⟩, ?_, ?_, ⟨r, ?_, h7⟩, ?_⟩
  · rw [tpath, h1]
    exact congrArg (fun u : NotePath => { u with state := state }) hpath.symm
  · rw [tp, h3]
  · rw [te, h4]
  · rw [tj, h5]
  · exact h6.of_journal (by rw [hj]) (by rw [hj]) (by rw [hj]) (by rw [hj]) (by rw [hj]) (by rw [hj]) hc (by rw [tj]) (by rw [tj])
      (by rw [tj]) (by rw [tj]) (by rw [tj]) (by rw [tj])
  · rw [tj]; exact h8

end Sys2Proof.Machine
end

section
/-! The source of a draw is empty: the end of a retract, of a stop, of a purge's source (R64, R65, R83, R87). -/
namespace Sys2Proof.Machine

/-! ## The draw is over -/

/-- The state once the draw is over and its owner's notes are no longer timed (R62). -/
def State.drawn (s : State) (o : MoveOwner) : State :=
  { s with path := { s.path with draw := none, timers := s.path.timersBut o } }

theorem drawn_timers (s : State) (o : MoveOwner) :
    ({ s.path with draw := none, timers := ({ s.path with draw := none } : NotePath).timersBut o } : NotePath) =
      { (s.drawn o).path with timers := (s.drawn o).path.timersBut o } := by
  simp [State.drawn, NotePath.timersBut, List.filter_filter]

theorem sourceEmpty_eq (d : Draw) (s : State) (h : s.path.draw = some d) :
    sourceEmpty s =
      match d.cause with
      | .purge => purgeSourceEmpty d (s.drawn .purge)
      | .retract t => retractEnded t d (s.drawn (.dispense t))
      | .stop t why => stopSourceEmpty t why d (s.drawn (.dispense t)) := by
  have hy (o : MoveOwner) : stopTimers o (s.onPath (fun q => { q with draw := none })) = s.drawn o := by
    unfold stopTimers
    simp only [State.onPath, timersBut_eq]
    rfl
  unfold sourceEmpty
  rw [h]
  simp only [hy]
  cases d.cause <;> rfl

theorem drawSourceEmpty_exec (s : State) (hrun : s.running = true) : exec .drawSourceEmpty s = done (sourceEmpty s) := by
  show done (event sourceEmpty s) = _
  rw [event_running _ _ hrun]

/-! ## A retract's source (R87) -/

theorem retract_empties (d : Draw) (w : Teller) (n : Nat) (s : State) (hrun : s.running = true) (hdraw : s.path.draw = some d)
    (hc : d.cause = .retract w) (hrest : OtherAtRest w s) (hroom : EndRoom n s) (hpocket : PocketHolds w d.uncounted s) :
    Does .drawSourceEmpty [.dispenses, .path, .position, .journal] s
      (TakenAndEnded w 4 d.uncounted
        (if (s.dispense w).short.isNone ∧ d.retracted.total = 0 then (s.dispense w).remainder else 0) n
        { s with path := { s.path with draw := none } }) := by
  have he := drawSourceEmpty_exec s hrun
  rw [sourceEmpty_eq d s hdraw, hc] at he
  refine dispense_ends_of _ w 4 d.uncounted _ none .none n s (s.drawn (.dispense w)) _ he hrun hrest hroom hpocket ?_ rfl
    fun t hends hk hn => ?_
  · intro b hb
    cases b
    case dispenses | path | position | journal => simp at hb
    all_goals simp [Kept, State.drawn]
  · have hrem : (if ((s.dispense w).short.isNone && d.retracted.total == 0) = true then
        ((s.drawn (.dispense w)).dispense w).remainder else 0) =
          if (s.dispense w).short.isNone ∧ d.retracted.total = 0 then (s.dispense w).remainder else 0 := by
      simp only [Bool.and_eq_true, beq_iff_eq]
      rfl
    have hends := hrem ▸ hends
    obtain ⟨p, hclosed, haudit⟩ := hends.closed
    refine ⟨p, ?_, haudit.transfer (s' := { s with path := { s.path with draw := none } }) rfl rfl hn⟩
    refine hclosed.transfer rfl rfl ?_ rfl rfl rfl (hk .dispenses (by simp)) (hk .path (by simp)) (hk .position (by simp))
      (hk .journal (by simp))
    exact drawn_timers s _

/-! ## A stop's source (R83) -/

theorem stop_goes_on (d : Draw) (w : Teller) (why : StopReason) (s : State) (hrun : s.running = true) (hq : Quiet s)
    (hdraw : s.path.draw = some d) (hc : d.cause = .stop w why) (hsrc : d.source = .transit)
    (hroom : s.position.retract.total < Config.retractNotes ∨ (s.position.pockets.get w).total = 0) :
    Does .drawSourceEmpty [.position, .path] s (fun t =>
      t.position = s.position.shortage .transit ∧
        t.path =
          { s.path with
            draw := some ⟨.pocket w, .stop w why, s.position.pockets.get w, Quad.zero⟩
            timers := s.path.timersBut (.dispense w) ++ [⟨.dispense w, .pocket w, false⟩] }) := by
  have he := drawSourceEmpty_exec s hrun
  let x : State := { s with
    position := s.position.shortage .transit
    path :=
      { s.path with
        draw := some ⟨.pocket w, .stop w why, s.position.pockets.get w, Quad.zero⟩
        timers := s.path.timersBut (.dispense w) ++ [⟨.dispense w, .pocket w, false⟩] } }
  have hx : sourceEmpty s = x := by
    rw [sourceEmpty_eq d s hdraw, hc]
    simp only [stopSourceEmpty, leaveShort, hsrc, DrawSource.place]
    unfold startDraw
    rw [if_neg]
    · rfl
    · simp only [Position.retractFull, decide_eq_true_eq]
      show ¬(Config.retractNotes ≤ s.position.retract.total ∧ 0 < (s.position.pockets.get w).total)
      omega
  rw [hx] at he
  refine does_done _ _ s x _ he ?_ (powered_of_running s hrun) ?_ fun t hk _ => ⟨hk .position (by simp), hk .path (by simp)⟩
  · intro u
    obtain ⟨h1, -⟩ := hq u
    exact ⟨h1, fun hr => by simp [State.retractWaits, x] at hr⟩
  · intro b hb
    cases b
    case path | position => simp at hb
    all_goals simp [Kept, x]

theorem stop_ends (d : Draw) (w v : Teller) (why : StopReason) (n : Nat) (s : State) (hrun : s.running = true)
    (hdraw : s.path.draw = some d) (hc : d.cause = .stop w why) (hsrc : d.source = .pocket v) (hrest : OtherAtRest w s)
    (hroom : EndRoom n s) :
    Does .drawSourceEmpty [.dispenses, .path, .position, .journal] s
      (DispenseEnded w why.outcome Quad.zero n (s.position.shortage (.pocket v)) { s with path := { s.path with draw := none } }) := by
  have he := drawSourceEmpty_exec s hrun
  let y : State := { s.drawn (.dispense w) with position := s.position.shortage (.pocket v) }
  have hy : sourceEmpty s = endDispense w why.outcome Quad.zero false none .none y := by
    rw [sourceEmpty_eq d s hdraw, hc]
    simp only [stopSourceEmpty, leaveShort, hsrc, DrawSource.place]
    rfl
  rw [hy] at he
  refine dispense_ends_of _ w _ Quad.zero false none .none n s y _ he hrun hrest hroom (fun k => by simp) ?_ rfl fun t hends hk _ => ?_
  · intro b hb
    cases b
    case dispenses | path | position | journal => simp at hb
    all_goals simp [Kept, State.drawn, y]
  · obtain ⟨p, hclosed, haudit⟩ := hends.closed
    have hcoin : y.coinBooked w 0 = 0 := by simp [State.coinBooked]
    have hmiss : y.takenMissed w Quad.zero 0 = 0 := by simp [State.takenMissed, value_zero, balanceFits]
    have hp : p = s.position.shortage (.pocket v) := by
      rw [haudit.1 (by simp [TakenWordFails, value_zero])]
      exact takenPosition_zero w y
    simp only [Bool.false_eq_true, if_false, hcoin, hmiss, hp] at hclosed
    refine hclosed.transfer rfl rfl ?_ rfl rfl rfl (hk .dispenses (by simp)) (hk .path (by simp)) (hk .position (by simp))
      (hk .journal (by simp))
    exact drawn_timers s _

/-! ## A purge's source (R65) -/

/-- A source that a purge passes over: a pocket without notes, or with a live present (R65). -/
def PassedOver (s : State) (x : DrawSource) : Prop :=
  ∃ v : Teller, x = .pocket v ∧
    ((s.position.pockets.get v).total = 0 ∨ (s.dispense v).state = .presenting ∨ (s.dispense v).state = .retracting)

theorem drawable_eq_false_iff (s : State) (x : DrawSource) : s.drawable x = false ↔ PassedOver s x := by
  unfold PassedOver State.drawable State.livePresent
  cases x with
  | transit => simp
  | drum => simp
  | pocket v => simp [Nat.pos_iff_ne_zero]; tauto

/-- The purge goes on to the first source to be drawn (R65). -/
theorem purgeNext_draws (s : State) (p : Purge) (before rest : List DrawSource) (x : DrawSource) (hp : s.path.purge = some p)
    (hr : p.rest = before ++ x :: rest) (hb : ∀ y ∈ before, PassedOver s y) (hx : ¬PassedOver s x)
    (hroom : s.position.retract.total < Config.retractNotes ∨ (s.position.sourceCounts x).total = 0) :
    purgeNext s = { s with
      path :=
        { s.path with
          draw := some ⟨x, .purge, s.position.sourceCounts x, Quad.zero⟩
          purge := some { p with rest := rest }
          timers := s.path.timers ++ [⟨.purge, x.sensor, false⟩] } } := by
  have hd : p.rest.dropWhile (fun y => !s.drawable y) = x :: rest := by
    rw [hr, List.dropWhile_append_of_pos fun y hy => by simpa using (drawable_eq_false_iff s y).mpr (hb y hy), List.dropWhile_cons_of_neg]
    simpa using mt (drawable_eq_false_iff s x).mp hx
  unfold purgeNext
  simp only [hp, hd]
  unfold startDraw
  rw [if_neg]
  · rfl
  · simp only [Position.retractFull, decide_eq_true_eq]
    show ¬(Config.retractNotes ≤ s.position.retract.total ∧ 0 < (s.position.sourceCounts x).total)
    omega

/-- With no source left to be drawn the purge ends (R65). -/
theorem purgeNext_ends (s : State) (p : Purge) (hp : s.path.purge = some p) (hr : ∀ y ∈ p.rest, PassedOver s y) :
    purgeNext s = endPurge (if p.short then .short else .complete) s := by
  have hd : p.rest.dropWhile (fun y => !s.drawable y) = [] := by
    rw [List.dropWhile_eq_nil_iff]
    intro y hy
    simpa using (drawable_eq_false_iff s y).mpr (hr y hy)
  unfold purgeNext
  simp only [hp, hd]

/-- The position once a purge has left its source: what is left in it is a shortage, with its audit cause (R65). -/
def Position.purgedOf (d : Draw) (p : Position) : Position :=
  if 0 < d.uncounted.total then
    { (match d.source.place with | some place => p.shortage place | none => p) with
      causes := { p.causes with reconcileDueJam := true } }
  else p

theorem shortage_causes (p : Position) (place : Store) : (p.shortage place).causes = p.causes := by cases place <;> rfl

theorem shortage_retract (p : Position) (x : DrawSource) (place : Store) (h : x.place = some place) :
    (p.shortage place).retract = p.retract := by
  cases x <;> simp_all [DrawSource.place] <;> subst h <;> rfl

theorem purge_self (q : NotePath) (p : Purge) (h : q.purge = some p) : ({ q with purge := some p } : NotePath) = q := by
  rw [← h]

/-- A purge's source is left (R65). -/
theorem purgeSourceEmpty_eq (d : Draw) (p : Purge) (s : State) (hp : s.path.purge = some p) :
    ∃ x : State, purgeSourceEmpty d s = purgeNext x ∧
      x = { s with
        position := s.position.purgedOf d
        path := { s.path with purge := some { p with short := p.short || decide (0 < d.uncounted.total) } }
        ports := x.ports } ∧
      x.ports.lines = s.ports.lines ∧
      (0 < d.uncounted.total → s.auditRequired = false → ∀ q : Port, q ≠ .m →
        Told q (.restriction s.alarm.restriction { s.position.causes with reconcileDueJam := true }) x) := by
  unfold purgeSourceEmpty Position.purgedOf
  by_cases hl : 0 < d.uncounted.total
  · simp only [if_pos hl]
    let y := leaveShort d s
    have hy : y = { s with position := match d.source.place with | some place => s.position.shortage place | none => s.position } := by
      simp only [y, leaveShort]
      cases d.source.place <;> rfl
    have yc : y.position.causes = s.position.causes := by
      rw [hy]
      cases d.source.place <;> simp [shortage_causes]
    have hr := addCause_rest .reconcileDueJam y
    refine ⟨_, rfl, ?_, ?_, fun _ hs q hq => ?_⟩
    · rw [hr]
      simp only [State.onPath, yc]
      rw [hy]
      simp only [hp, hl, decide_true, Bool.or_true]
      rfl
    · rw [show (State.onPath (addCause .reconcileDueJam (leaveShort d s)) _).ports = (addCause .reconcileDueJam y).ports from rfl]
      rw [addCause_lines, hy]
    · have ht := addCause_told .reconcileDueJam y (by rw [yc]; exact hs) q hq
      rw [yc, show y.alarm = s.alarm by rw [hy]] at ht
      exact told_of_ports _ _ _ _ ht rfl
  · simp only [if_neg hl]
    refine ⟨s, rfl, ?_, rfl, fun h => absurd h hl⟩
    simp only [hl, decide_false, Bool.or_false]
    exact congrArg (fun q => { s with path := q }) (purge_self s.path p hp).symm

theorem purgedOf_retract (d : Draw) (p : Position) : (p.purgedOf d).retract = p.retract := by
  unfold Position.purgedOf
  split
  · cases d.source <;> rfl
  · rfl

/-- The other sources hold what they held. -/
theorem purgedOf_sourceCounts (d : Draw) (p : Position) (x : DrawSource) (h : x ≠ d.source) :
    (p.purgedOf d).sourceCounts x = p.sourceCounts x := by
  unfold Position.purgedOf
  split
  · cases x with
    | drum => rfl
    | transit =>
      cases hs : d.source with
      | transit => exact absurd hs.symm h
      | pocket v => rfl
      | drum => rfl
    | pocket u =>
      cases hs : d.source with
      | transit => rfl
      | pocket v => exact Pair.get_set_other _ _ _ _ (by rintro rfl; exact h hs.symm)
      | drum => rfl
  · rfl

/-- A pocket without notes stays so. -/
theorem purgedOf_emptyPocket (d : Draw) (p : Position) (v : Teller) (h : (p.pockets.get v).total = 0) :
    ((p.purgedOf d).pockets.get v).total = 0 := by
  by_cases hs : DrawSource.pocket v = d.source
  · unfold Position.purgedOf
    split
    · rw [← hs]
      exact congrArg Quad.total (Pair.get_set_self p.pockets v Quad.zero)
    · exact h
  · exact (congrArg Quad.total (purgedOf_sourceCounts d p (.pocket v) hs)).trans h

/-- What the shortage leaves to be drawn. -/
theorem passedOver_purgedOf (d : Draw) (s t : State) (hp : t.position = s.position.purgedOf d) (hd : t.dispenses = s.dispenses)
    (x : DrawSource) : (PassedOver s x → PassedOver t x) ∧ (x ≠ d.source → PassedOver t x → PassedOver s x) := by
  simp only [PassedOver, State.dispense, hp, hd]
  constructor
  · rintro ⟨v, rfl, h⟩
    exact ⟨v, rfl, h.imp_left (purgedOf_emptyPocket d s.position v)⟩
  · rintro hx ⟨v, rfl, h⟩
    refine ⟨v, rfl, h.imp_left fun h => ?_⟩
    exact (congrArg Quad.total (purgedOf_sourceCounts d s.position (.pocket v) hx)).symm.trans h

/-- What is left in a purge's source is told to ports A, B and S, where it is the first audit cause (R10, R65). -/
def ToldOfShortage (d : Draw) (s t : State) : Prop :=
  0 < d.uncounted.total → s.auditRequired = false → ∀ q : Port, q ≠ .m →
    Told q (.restriction s.alarm.restriction { s.position.causes with reconcileDueJam := true }) t

/-- The state once a purge has left its source, at the ports apart. -/
structure SourceLeft (d : Draw) (p : Purge) (s y : State) : Prop where
  rest : y = { s with
    position := s.position.purgedOf d
    path :=
      { s.path with
        draw := none
        purge := some { p with short := p.short || decide (0 < d.uncounted.total) }
        timers := s.path.timersBut .purge }
    ports := y.ports }
  lines : y.ports.lines = s.ports.lines
  told : ToldOfShortage d s y

theorem purge_leaves (d : Draw) (p : Purge) (s : State) (hrun : s.running = true) (hdraw : s.path.draw = some d)
    (hc : d.cause = .purge) (hp : s.path.purge = some p) :
    ∃ y : State, exec .drawSourceEmpty s = done (purgeNext y) ∧ SourceLeft d p s y := by
  obtain ⟨y, hy, yrest, ylines, ytold⟩ := purgeSourceEmpty_eq d p (s.drawn .purge) hp
  have he := drawSourceEmpty_exec s hrun
  rw [sourceEmpty_eq d s hdraw, hc, show _ = _ from hy] at he
  exact ⟨y, he, yrest, ylines, ytold⟩

/-- A purge goes on to its next source (R65). -/
theorem purge_goes_on (d : Draw) (p : Purge) (s : State) (hrun : s.running = true) (hq : Quiet s) (hdraw : s.path.draw = some d)
    (hc : d.cause = .purge) (hp : s.path.purge = some p) (before rest : List DrawSource) (x : DrawSource)
    (hr : p.rest = before ++ x :: rest) (hb : ∀ y ∈ before, PassedOver s y) (hx : ¬PassedOver s x) (hne : x ≠ d.source)
    (hroom : s.position.retract.total < Config.retractNotes ∨ (s.position.sourceCounts x).total = 0) :
    Does .drawSourceEmpty [.path, .position] s (fun t =>
      t.position = s.position.purgedOf d ∧ ToldOfShortage d s t ∧
        t.path =
          { s.path with
            draw := some ⟨x, .purge, s.position.sourceCounts x, Quad.zero⟩
            purge := some { p with rest := rest, short := p.short || decide (0 < d.uncounted.total) }
            timers := s.path.timersBut .purge ++ [⟨.purge, x.sensor, false⟩] }) := by
  obtain ⟨y, he, hy⟩ := purge_leaves d p s hrun hdraw hc hp
  have ypos : y.position = s.position.purgedOf d := by rw [hy.rest]
  have ydisp : y.dispenses = s.dispenses := by rw [hy.rest]
  have hpass (z : DrawSource) := passedOver_purgedOf d s y ypos ydisp z
  have hcounts : y.position.sourceCounts x = s.position.sourceCounts x := by
    rw [ypos]; exact purgedOf_sourceCounts d s.position x hne
  have hret : y.position.retract = s.position.retract := by rw [ypos]; exact purgedOf_retract d s.position
  have hz := purgeNext_draws y { p with short := p.short || decide (0 < d.uncounted.total) } before rest x (by rw [hy.rest]) hr (fun z hz => (hpass z).1 (hb z hz))
    (fun h => hx ((hpass x).2 hne h)) (by rw [hcounts, hret]; exact hroom)
  generalize purgeNext y = z at he hz
  have zrest : z = { s with
      position := s.position.purgedOf d
      path :=
        { s.path with
          draw := some ⟨x, .purge, s.position.sourceCounts x, Quad.zero⟩
          purge := some { p with rest := rest, short := p.short || decide (0 < d.uncounted.total) }
          timers := s.path.timersBut .purge ++ [⟨.purge, x.sensor, false⟩] }
      ports := y.ports } := by
    rw [hz, hcounts, hy.rest]
  have zports : z.ports = y.ports := by rw [zrest]
  refine does_done _ _ s z _ he ?_ ?_ ?_ fun t hk hn => ⟨?_, ?_, ?_⟩
  · intro u
    obtain ⟨h1, -⟩ := hq u
    rw [zrest]
    exact ⟨h1, fun hr => by simp [State.retractWaits] at hr⟩
  · rw [zrest]; exact powered_of_running s hrun
  · intro b hb
    cases b
    case path | position => simp at hb
    case ports => exact kept_ports_of_lines _ _ (by rw [zports, hy.lines])
    all_goals rw [zrest]; simp [Kept]
  · rw [show t.position = z.position from hk .position (by simp), zrest]
  · exact fun hl hs q hqm => hn q _ (told_of_ports _ _ _ _ (hy.told hl hs q hqm) zports) (by simp [Notice.kind])
  · rw [show t.path = z.path from hk .path (by simp), zrest]

/-- A purge whose sources are all drawn ends (R65). -/
theorem purge_ends (d : Draw) (p : Purge) (s : State) (hrun : s.running = true) (hdraw : s.path.draw = some d)
    (hc : d.cause = .purge) (hp : s.path.purge = some p) (n : Nat) (hr : ∀ y ∈ p.rest, PassedOver s y) (hroom : PurgeRoom p n s)
    (ha : OtherAtRest .a s) (hb : OtherAtRest .b s) :
    let short : Bool := p.short || decide (0 < d.uncounted.total)
    Does .drawSourceEmpty [.path, .position, .escrow, .journal] s (fun t =>
      PurgeEnded p (if short then 2 else 1) .ready n (s.position.purgedOf d) s t ∧ ToldOfShortage d s t ∧
        Told .s (.moduleFault (.ready (if short then .short else .complete))) t) := by
  intro short
  obtain ⟨y, he, hy⟩ := purge_leaves d p s hrun hdraw hc hp
  have ypos : y.position = s.position.purgedOf d := by rw [hy.rest]
  have ydisp : y.dispenses = s.dispenses := by rw [hy.rest]
  have yj : y.journal = s.journal := by rw [hy.rest]
  have ypurge : y.path.purge = some { p with short := short } := by rw [hy.rest]
  have hpass (z : DrawSource) := passedOver_purgedOf d s y ypos ydisp z
  rw [purgeNext_ends y _ ypurge fun z hz => (hpass z).1 (hr z hz)] at he
  have hends := endPurge_ends { p with short := short } (if short then .short else .complete) n y ypurge
    (hroom.congr rfl yj)
  have hcode : (if short then PurgeOutcome.short else .complete).code = if short then 2 else 1 := by cases short <;> rfl
  have hgood : (if short then PurgeOutcome.short else .complete) = .complete ∨
      (if short then PurgeOutcome.short else .complete) = .short := by cases short <;> simp
  obtain ⟨hended, hkept, hlines, htells, hagain, htold⟩ := hends
  rw [hcode, if_pos hgood] at hended
  have htold := htold hgood
  simp only [] at he hended hkept hlines htells hagain htold
  generalize endPurge _ y = z at *
  refine does_done _ _ s z _ he ?_ ?_ ?_ fun t hk hn => ⟨?_, ?_, ?_⟩
  · have zdisp : z.dispenses = s.dispenses := (hkept .dispenses (by simp)).trans ydisp
    refine quiet_of_atRest z fun u => ?_
    rw [show z.dispense u = s.dispense u from congrArg (fun q : Pair Dispense => q.get u) zdisp]
    cases u
    · exact hb
    · exact ha
  · rw [State.powered, show z.startUp = y.startUp from hkept .startUp (by simp), hy.rest]
    exact powered_of_running s hrun
  · have hsy : KeptBut [.path, .position] s y := by
      intro b hb
      cases b
      case path | position => simp at hb
      case ports => exact kept_ports_of_lines _ _ hy.lines
      all_goals rw [hy.rest]; simp [Kept]
    have hyz : KeptBut [.path, .position, .escrow, .journal] y z :=
      keptBut_without_ports hkept (kept_ports_of_lines _ _ hlines) (by simp)
    exact (hsy.mono (by simp)).trans hyz
  · rw [← ypos]
    refine hended.transfer rfl rfl ?_ yj.symm (by rw [hy.rest]) (by rw [hy.rest]) (by rw [hy.rest]) (by rw [hy.rest])
      (hk .path (by simp)) (hk .escrow (by simp)) (hk .position (by simp)) (hk .journal (by simp))
      (fun q x hx hne => hn q x hx (by simpa using hne))
    rw [hy.rest]
    simp [NotePath.timersBut, List.filter_filter]
  · intro hl hs q hqm
    have hany : y.position.causes.any = true := by
      rw [ypos, Position.purgedOf, if_pos hl]
      simp [Causes.any]
    exact hn q _ (hagain hany q _ (hy.told hl hs q hqm) (by simp [Notice.kind])) (by simp [Notice.kind])
  · exact hn .s _ htold (by simp [Notice.kind])

/-- The position as the statement writes it. -/
theorem purgedOf_eq (d : Draw) (p : Position) :
    p.purgedOf d =
      let causes : Causes := if decide (0 < d.uncounted.total) then { p.causes with reconcileDueJam := true } else p.causes
      if decide (0 < d.uncounted.total) then
        match d.source with
        | .transit => { p.shortage .transit with causes := causes }
        | .pocket v => { p.shortage (.pocket v) with causes := causes }
        | .drum => { p with causes := causes }
      else p := by
  unfold Position.purgedOf
  by_cases h : 0 < d.uncounted.total
  · simp only [h, decide_true, if_true]
    cases d.source <;> rfl
  · simp only [h, decide_false]
    rfl

/-- Settles O26: the source of a retract, of a stop and of a purge. -/
theorem emptySourceEndsDraw : Obligations.EmptySourceEndsDraw := by
  unfold Obligations.EmptySourceEndsDraw
  intro d s hrun hq hdraw drawn
  refine ⟨fun w n hc hrest hroom hp => retract_empties d w n s hrun hdraw hc hrest hroom hp,
    fun w why hc hsrc hroom => stop_goes_on d w why s hrun hq hdraw hc hsrc hroom, fun w v why n hc hsrc hrest hroom => ?_,
    fun p hc hp => ?_⟩
  · have h := stop_ends d w v why n s hrun hdraw hc hsrc hrest hroom
    cases why <;> exact h
  · intro left short causes after told skipped
    have hafter : after = s.position.purgedOf d := (purgedOf_eq d s.position).symm
    have htold (t : State) (h : ToldOfShortage d s t) : told t := by
      intro hl
      have e : causes = { s.position.causes with reconcileDueJam := true } := if_pos hl
      rw [e]
      exact h (by simpa [left] using hl)
    rw [hafter]
    refine ⟨fun before rest x hr hb hx hne => ?_, fun n hr hroom ha hb => ?_⟩
    · intro notes hroom
      have hn : notes = s.position.sourceCounts x := by cases x <;> rfl
      rw [hn] at hroom ⊢
      obtain ⟨t, ht, hk, h1, h2, h3⟩ := purge_goes_on d p s hrun hq hdraw hc hp before rest x hr hb hx hne hroom
      exact ⟨t, ht, hk, h1, htold t h2, h3⟩
    · obtain ⟨t, ht, hk, h1, h2, h3⟩ := purge_ends d p s hrun hdraw hc hp n hr hroom ha hb
      exact ⟨t, ht, hk, h1, htold t h2, h3⟩

end Sys2Proof.Machine
end

section
/-! A grant and the first pick of a dispense: what the mix finds is there to be picked (R38, R41, R77 to R80). -/
namespace Sys2Proof.Machine

/-! ## The mix takes what is available (R38, R41) -/

theorem descend_mem (f : Nat → Quad Nat × Nat) (n : Nat) : ∃ i ≤ n, descend f n = f i := by
  induction n with
  | zero => exact ⟨0, le_rfl, rfl⟩
  | succ n ih =>
    obtain ⟨i, hi, he⟩ := ih
    rw [descend]
    split
    · exact ⟨i, by omega, he⟩
    · exact ⟨n + 1, le_rfl, rfl⟩

/-- The best mix holds no more of a cassette than is available there, and nothing of a cassette outside its list. -/
theorem bestMix_within (values avail : Quad Nat) (ks : List Ix) (cap target : Nat) (j : Ix) :
    (bestMix values avail ks cap target).1.get j ≤ avail.get j ∧
      (j ∉ ks → (bestMix values avail ks cap target).1.get j = 0) := by
  induction ks generalizing cap target with
  | nil => simp [bestMix]
  | cons k ks ih =>
    obtain ⟨t, ht, he⟩ := descend_mem
      (fun t =>
        ((bestMix values avail ks (cap - t) (target - t * values.get k)).1.set k t,
          (bestMix values avail ks (cap - t) (target - t * values.get k)).2))
      (greatestCount (values.get k) (avail.get k) cap target)
    have hb : bestMix values avail (k :: ks) cap target =
        ((bestMix values avail ks (cap - t) (target - t * values.get k)).1.set k t,
          (bestMix values avail ks (cap - t) (target - t * values.get k)).2) := he
    rw [hb]
    by_cases hj : j = k
    · subst hj
      simp only [Quad.get_set_self]
      exact ⟨ht.trans (Nat.min_le_left _ _), fun h => absurd List.mem_cons_self h⟩
    · simp only [Quad.get_set_other _ _ _ _ hj]
      obtain ⟨h1, h2⟩ := ih (cap - t) (target - t * values.get k)
      exact ⟨h1, fun h => h2 fun hm => h (List.mem_cons_of_mem _ hm)⟩

/-- A mix with notes takes some from a cassette of its list that is usable for dispensing. -/
theorem mix_first (s : State) (order : List Ix) (cap target unpaid : Nat)
    (h : (s.mix order Quad.zero cap target unpaid).notes ≠ 0) :
    ∃ k : Ix, order.find? (fun j => decide (0 < (s.mix order Quad.zero cap target unpaid).mix.get j)) = some k ∧
      (s.position.cassettes.get k).usable s.settings.denominations = true := by
  generalize hm : (s.mix order Quad.zero cap target unpaid).mix = m
  have hbest : m = (bestMix s.cassetteValues (s.availability Quad.zero) order cap target).1 := hm.symm
  have hnotes : m.total ≠ 0 := by rw [hbest]; exact h
  have hwithin (j : Ix) := bestMix_within s.cassetteValues (s.availability Quad.zero) order cap target j
  rw [← hbest] at hwithin
  have hsome : ∃ j, j ∈ order ∧ 0 < m.get j := by
    by_contra hn
    have hzero (j : Ix) : m.get j = 0 := by
      by_contra hj
      exact hj ((hwithin j).2 fun hm => hn ⟨j, hm, Nat.pos_of_ne_zero hj⟩)
    exact hnotes (by
      have h1 := hzero .i1
      have h2 := hzero .i2
      have h3 := hzero .i3
      have h4 := hzero .i4
      simp only [Quad.get] at h1 h2 h3 h4
      simp only [Quad.total, h1, h2, h3, h4])
  obtain ⟨j, hj, hpos⟩ := hsome
  obtain ⟨k, hk⟩ : ∃ k, order.find? (fun j => decide (0 < m.get j)) = some k := by
    rw [← Option.isSome_iff_exists, List.find?_isSome]
    exact ⟨j, hj, by simpa using hpos⟩
  refine ⟨k, hk, ?_⟩
  have hmk : 0 < m.get k := by simpa using List.find?_some hk
  have hav := lt_of_lt_of_le hmk (hwithin k).1
  simp only [State.availability, Quad.get_zip] at hav
  by_contra hu
  rw [if_neg hu] at hav
  exact Nat.lt_irrefl _ hav

/-- A usable cassette is picked from, unless the module is locked (R6, R80). -/
theorem commandPick_usable (s : State) (k : Ix) (h : (s.position.cassettes.get k).usable s.settings.denominations = true)
    (hl : s.restricted .moduleLock = false) :
    ∃ d, (s.position.cassettes.get k).index = some d ∧ s.commandPick k = .started d := by
  simp only [Cassette.usable, Bool.and_eq_true, Bool.or_eq_true, beq_iff_eq, decide_eq_true_eq] at h
  obtain ⟨⟨⟨-, hstate⟩, -⟩, hcount⟩ := h
  have hhere : ¬((s.position.cassettes.get k).state = .absent ∨ (s.position.cassettes.get k).state = .released) := by
    rcases hstate with (h | h) | h <;> simp [h]
  unfold State.commandPick
  simp only [if_neg hhere]
  unfold Cassette.ownCount at hcount ⊢
  cases hi : (s.position.cassettes.get k).index with
  | none => simp [hi] at hcount
  | some d =>
    simp only [hi] at hcount
    exact ⟨d, rfl, by simp [Nat.pos_iff_ne_zero.mp hcount, hl]⟩

theorem commandPick_congr (s x : State) (k : Ix) (hp : s.position.cassettes = x.position.cassettes) (ha : s.alarm = x.alarm) :
    s.commandPick k = x.commandPick k := by
  unfold State.commandPick State.restricted
  rw [hp, ha]

/-- A payable mix has notes and is the mix over the cassettes as they stand (R41, R42). -/
theorem payable_mix (w : Teller) (amount cap : Nat) (order : List Ix) (target : RemainderTarget) (s : State) (m : MixResult)
    (h : (requestMix w amount cap order target s).1 = .payable m) :
    m = s.mix order Quad.zero cap (s.mixTarget amount) (amount - s.mixTarget amount) ∧ m.notes ≠ 0 := by
  rw [(requestMix_spec w amount cap order target s).1] at h
  unfold State.mixFound MixResult.judged at h
  split at h
  · simp at h
  split at h
  · simp at h
  split at h
  · simp at h
  split at h
  · simp at h
  split at h
  · simp at h
  split at h
  · simp at h
  split at h
  · simp at h
  · simp only [MixOutcome.payable.injEq] at h
    subst h
    exact ⟨rfl, by assumption⟩

/-- Picking begins with the first cassette that the mix takes notes from (R79, R80). -/
theorem enterPicking_starts (w : Teller) (s : State) (k d : Ix) (hn : (s.dispense w).delivered = Quad.zero)
    (hk : (s.dispense w).preference.find? (fun j => decide (0 < (s.dispense w).mix.get j)) = some k)
    (hc : s.commandPick k = .started d) :
    enterPicking w s = { s with
      dispenses := s.dispenses.set w { s.dispense w with state := .picking }
      path := { s.path with pick := some ⟨w, k, d, .commanded⟩ } } := by
  have hw : (s.onDispense w (fun d => { d with state := .picking })).dispense w = { s.dispense w with state := .picking } :=
    Pair.get_set_self _ _ _
  have hnext : ({ s.dispense w with state := .picking } : Dispense).nextCassette = some k := by
    unfold Dispense.nextCassette
    simp only [hn]
    simpa using hk
  have hcmd : (s.onDispense w (fun d => { d with state := .picking })).commandPick k = .started d := hc
  unfold enterPicking advanceBound advance
  simp only [hw, hnext, hcmd]
  rfl

/-! ## What a window's dispense leaves alone as it goes on (R77 to R83) -/

/-- A dispense for which nothing waits to be taken up at the end of a step (R77, R86). -/
def Dispense.Calm (d : Dispense) : Prop := d.deferred = false ∧ d.state ≠ .retracting

/-- A window's dispense has gone on: the escrow and the other window's dispense are as they were, and nothing of it waits for the end of
the step where nothing did. -/
structure WithinWindow (w : Teller) (s t : State) : Prop where
  escrow : t.escrow = s.escrow
  lines : t.ports.lines = s.ports.lines
  other : t.dispense w.other = s.dispense w.other
  calm : (s.dispense w).Calm → (t.dispense w).Calm

theorem WithinWindow.trans {w : Teller} {s t u : State} (h : WithinWindow w s t) (k : WithinWindow w t u) : WithinWindow w s u :=
  ⟨k.escrow.trans h.escrow, k.lines.trans h.lines, k.other.trans h.other, fun c => k.calm (h.calm c)⟩

theorem within_of_same {w : Teller} {s t : State} (he : t.escrow = s.escrow) (hp : t.ports.lines = s.ports.lines)
    (hd : t.dispenses = s.dispenses) : WithinWindow w s t := by
  have h (u : Teller) : t.dispense u = s.dispense u := congrArg (fun q : Pair Dispense => q.get u) hd
  exact ⟨he, hp, h _, fun c => (h w).symm ▸ c⟩

theorem onDispense_self (w : Teller) (f : Dispense → Dispense) (s : State) : (s.onDispense w f).dispense w = f (s.dispense w) :=
  Pair.get_set_self _ _ _

theorem within_onDispense (w : Teller) (f : Dispense → Dispense) (s : State) (hf : (s.dispense w).Calm → (f (s.dispense w)).Calm) :
    WithinWindow w s (s.onDispense w f) := by
  refine ⟨rfl, rfl, Pair.get_set_other _ _ _ _ (by cases w <;> decide), fun c => ?_⟩
  rw [onDispense_self]
  exact hf c

theorem WordsRead.within {failed : Prop} {s t : State} (h : WordsRead failed s t) (w : Teller) : WithinWindow w s t :=
  within_of_same (by rw [h.rest]) h.lines (by rw [h.rest])

theorem reMix_read (w : Teller) (s : State) : ∃ failed, WordsRead failed s (reMix w s).2 := by
  obtain ⟨-, r⟩ := verifyCassettes_read s
  unfold reMix
  simp only []
  split
  · exact ⟨_, r⟩
  · exact ⟨_, r.trans (judgeMix_spec _ _ _ _ _).2⟩

theorem present_within (w : Teller) (s : State) : WithinWindow w s (present w s) := by
  unfold present
  exact (within_onDispense w _ s fun h => ⟨h.1, by simp⟩).trans (within_of_same (by simp) (raise_lines _ _ _) (by simp))

theorem finishDispense_lines (w : Teller) (outcome : Nat) (taken : Quad Nat) (due : Bool) (reason : Option Reason) (carried : Results)
    (s : State) : (finishDispense w outcome taken due reason carried s).ports.lines = s.ports.lines := by
  rw [finishDispense_eq]
  simp only [awaitDurable_keeps, State.onDispense_keeps, stepGeneration_ports, stageApplied_lines, release_keeps,
    (bookCoinDue_booked _ _ _).2.lines, (bookBalance_booked _ _ _).2.lines, State.onPosition_keeps]

theorem finishDispense_dispenses (w : Teller) (outcome : Nat) (taken : Quad Nat) (due : Bool) (reason : Option Reason)
    (carried : Results) (s : State) :
    (finishDispense w outcome taken due reason carried s).dispenses = s.dispenses.set w Dispense.idle := by
  rw [finishDispense_eq]
  simp [State.onDispense]

theorem stopTimers_within (w : Teller) (o : MoveOwner) (s : State) : WithinWindow w s (stopTimers o s) :=
  within_of_same (by simp) (by simp) (by simp)

theorem endDispense_within (w : Teller) (outcome : Nat) (taken : Quad Nat) (due : Bool) (reason : Option Reason) (carried : Results)
    (s : State) : WithinWindow w s (endDispense w outcome taken due reason carried s) := by
  unfold endDispense
  have h1 := within_onDispense w (fun d => { d with ending := true, deferred := false }) s fun h => ⟨rfl, h.2⟩
  refine (h1.trans (stopTimers_within w (.dispense w) _)).trans ?_
  generalize stopTimers _ _ = x
  unfold holdOrFinish
  split
  · have hd : (finishEnd (.dispense w outcome taken due reason carried) x).dispenses = x.dispenses.set w Dispense.idle :=
      finishDispense_dispenses w outcome taken due reason carried x
    refine ⟨?_, finishDispense_lines _ _ _ _ _ _ _, ?_, fun _ => ?_⟩
    · show (finishDispense w outcome taken due reason carried x).escrow = x.escrow
      rw [finishDispense_eq]
      simp
    · rw [State.dispense, hd]; exact Pair.get_set_other _ _ _ _ (by cases w <;> decide)
    · rw [State.dispense, hd, Pair.get_set_self]; exact ⟨rfl, by decide⟩
  · exact within_of_same rfl rfl rfl

theorem stopShort_within (w : Teller) (why : ShortCause) (s : State) : WithinWindow w s (stopShort w why s) := by
  unfold stopShort
  have h1 := within_onDispense w (fun d => { d with short := some why, unpaid := d.amount }) s fun h => h
  simp only []
  split
  · exact h1.trans (present_within w _)
  · exact h1.trans (endDispense_within w _ _ _ _ _ _)

theorem jamDispense_within (w : Teller) (s : State) : WithinWindow w s (jamDispense w s) := by
  rw [jamDispense_eq]
  refine ⟨rfl, rfl, Pair.get_set_other _ _ _ _ (by cases w <;> decide), fun _ => ?_⟩
  rw [State.dispense, Pair.get_set_self]
  exact ⟨rfl, by decide⟩

theorem beginStop_within (w : Teller) (why : StopReason) (s : State) : WithinWindow w s (beginStop w why s) := by
  unfold beginStop
  refine (within_onDispense w (fun d => { d with stop := some why }) s fun h => h).trans ?_
  unfold startDraw
  simp only []
  split
  · unfold stopDraw jam
    simp only [DrawCause.owner]
    refine WithinWindow.trans ?_ ((jamDispense_within w _).trans (within_of_same rfl rfl rfl))
    exact within_of_same (by simp [stopTransport]) (by simp [stopTransport]) (by simp [stopTransport])
  · exact within_of_same rfl rfl rfl

theorem advance_within (n : Nat) (w : Teller) (s : State) : WithinWindow w s (advance n w s) := by
  induction n generalizing s with
  | zero => exact within_of_same rfl rfl rfl
  | succ n ih =>
    obtain ⟨failed, hr⟩ := reMix_read w s
    unfold advance
    split
    · exact present_within w s
    · split
      · exact within_of_same rfl rfl rfl
      · exact beginStop_within w _ s
      · rcases hm : reMix w s with ⟨o, x⟩
        rw [hm] at hr
        cases o with
        | payable m =>
          exact (hr.within w).trans ((within_onDispense w _ x fun h => h).trans (ih _))
        | failed why carried =>
          simp only []
          split
          · exact (hr.within w).trans (beginStop_within w _ x)
          · exact (hr.within w).trans (stopShort_within w _ x)

theorem enterPicking_within (w : Teller) (s : State) : WithinWindow w s (enterPicking w s) :=
  (within_onDispense w _ s fun h => ⟨h.1, by simp⟩).trans (advance_within _ w _)

theorem grantChecks_within (w : Teller) (s : State) : WithinWindow w s (grantChecks w s) ∧
    ((grantChecks w s).dispense w).Calm := by
  have h0 : WithinWindow w s (s.onDispense w (fun d => { d with state := .queued, deferred := false })) :=
    within_onDispense w _ s fun _ => ⟨rfl, by simp⟩
  have hq : ((s.onDispense w (fun d => { d with state := .queued, deferred := false })).dispense w).Calm := by
    rw [onDispense_self]
    exact ⟨rfl, by simp⟩
  unfold grantChecks
  simp only []
  generalize s.onDispense w _ = x at h0 hq ⊢
  suffices hx : ∀ y, WithinWindow w x y → WithinWindow w s y ∧ (y.dispense w).Calm by
    split
    · exact hx _ (endDispense_within w _ _ _ _ _ _)
    · exact hx _ (endDispense_within w _ _ _ _ _ _)
    · split
      · exact hx _ (endDispense_within w _ _ _ _ _ _)
      split
      · exact hx _ (endDispense_within w _ _ _ _ _ _)
      rcases hm : requestMix w (x.dispense w).amount (x.dispense w).cap (x.dispense w).preference (x.dispense w).target x with ⟨o, y⟩
      have hr := ((requestMix_spec w (x.dispense w).amount (x.dispense w).cap (x.dispense w).preference (x.dispense w).target x).2).within w
      rw [hm] at hr
      cases o with
      | failed why carried => exact hx _ (hr.trans (endDispense_within w _ _ _ _ _ _))
      | payable m =>
        simp only []
        split
        · exact hx _ (hr.trans (endDispense_within w _ _ _ _ _ _))
        · exact hx _ (hr.trans ((within_onDispense w _ y fun h => h).trans (enterPicking_within w _)))
  exact fun y hy => ⟨h0.trans hy, hy.calm hq⟩

/-! ## The grant (R77, R78) -/

/-- Two states at which check words read the same, and fail at the same time. -/
def ReadAlike (x y : State) : Prop := y.position = x.position ∧ y.clock = x.clock

theorem ReadAlike.integrityFailure {x y : State} (h : ReadAlike x y) (g : GuardedRecord) :
    ReadAlike (integrityFailure g x) (integrityFailure g y) :=
  ⟨by rw [integrityFailure_position, integrityFailure_position, h.1, h.2], by simp [h.2]⟩

theorem ReadAlike.verifyCassette {x y : State} (h : ReadAlike x y) (k : Ix) :
    ReadAlike (verifyCassette k x).2 (verifyCassette k y).2 := by
  unfold Machine.verifyCassette
  rw [h.1]
  split
  · exact h
  · exact h.integrityFailure _

theorem ReadAlike.verifyAccount {x y : State} (h : ReadAlike x y) (a : AccountId) :
    ReadAlike (verifyAccount a x).2 (verifyAccount a y).2 := by
  unfold Machine.verifyAccount
  rw [h.1]
  split
  · exact h
  · exact h.integrityFailure _

theorem ReadAlike.verifyCassettes {x y : State} (h : ReadAlike x y) : ReadAlike (verifyCassettes x).2 (verifyCassettes y).2 := by
  simp only [Machine.verifyCassettes, Ix.all, List.foldl_cons, List.foldl_nil]
  exact (((h.verifyCassette _).verifyCassette _).verifyCassette _).verifyCassette _

theorem judgeMix_snd (w : Teller) (target : RemainderTarget) (limit : Nat) (m : MixResult) (s : State) :
    (judgeMix w target limit m s).2 =
      if m.notes = 0 ∨ limit < m.remainder then s
      else (verifyAccount (drawerOf w) (verifyAccount (remainderAccount w target) s).2).2 := by
  unfold judgeMix
  by_cases h1 : m.notes = 0
  · simp [h1]
  by_cases h2 : limit < m.remainder
  · simp [h1, h2]
  simp only [h1, h2, if_false, or_self]
  split
  · rfl
  · split
    · rfl
    · split <;> rfl

/-- The mix of a request reads the same records of states that agree on them. -/
theorem requestMix_alike (w : Teller) (amount cap : Nat) (order : List Ix) (target : RemainderTarget) {x y : State}
    (h : ReadAlike x y) (hs : y.settings = x.settings) (ha : y.alarm = x.alarm) :
    ReadAlike (requestMix w amount cap order target x).2 (requestMix w amount cap order target y).2 := by
  have hres : y.restricted .dispenseCap = x.restricted .dispenseCap := by rw [State.restricted, State.restricted, ha]
  have hfst : (verifyCassettes y).1 = (verifyCassettes x).1 := by
    rw [Bool.eq_iff_iff, (verifyCassettes_read y).1, (verifyCassettes_read x).1, WordsMatch, WordsMatch, h.1]
  have hv := h.verifyCassettes
  unfold requestMix
  rw [hres, hs]
  split
  · exact h
  · simp only [hfst]
    split
    · exact hv
    · have hm : (verifyCassettes y).2.mix order Quad.zero cap ((verifyCassettes y).2.mixTarget amount)
            (amount - (verifyCassettes y).2.mixTarget amount) =
          (verifyCassettes x).2.mix order Quad.zero cap ((verifyCassettes x).2.mixTarget amount)
            (amount - (verifyCassettes x).2.mixTarget amount) := by
        simp only [State.mix, State.mixTarget, State.cassetteValues, State.availability, State.restricted, hv.1, verifyCassettes_keeps,
          hs, ha]
      simp only [hm, judgeMix_snd, verifyCassettes_keeps, hs]
      split
      · exact hv
      · exact (hv.verifyAccount _).verifyAccount _

/-- A failed mix has one of the reasons of R42. -/
theorem mixFound_outcome (s : State) (w : Teller) (amount cap : Nat) (order : List Ix) (target : RemainderTarget) (why : Reason)
    (carried : Results) (h : s.mixFound w amount cap order target = .failed why carried) : why.outcomeCode = grantOutcome why := by
  unfold State.mixFound MixResult.judged at h
  (repeat' split at h) <;> simp at h <;> (obtain ⟨rfl, -⟩ := h; rfl)

/-- A grant that fails ends the dispense with nothing paid (R78). -/
theorem failGrant_closes (w : Teller) (outcome n : Nat) (why : Reason) (carried : Results) (x u : State)
    (hu : u = { x with
      dispenses := x.dispenses.set w { x.dispense w with state := .queued, deferred := false }
      claim := u.claim, escrow := u.escrow, position := u.position, ports := u.ports })
    (hroom : EndRoom n x) (t : State)
    (hk : KeptBut [] (endDispense w outcome Quad.zero false (some why) carried u) t) :
    DispenseClosed w outcome Quad.zero n u.position (some why) carried 0 0 x t := by
  have uj : u.journal = x.journal := by rw [hu]
  have ud : u.dispense w = { x.dispense w with state := .queued, deferred := false } := by rw [hu]; exact Pair.get_set_self _ _ _
  have hends := endDispense_ends w outcome Quad.zero false (some why) carried n u (by rw [EndRoom, uj]; exact hroom)
    (fun k => by simp)
  obtain ⟨p, hclosed, haudit⟩ := hends.closed
  have hp : p = u.position := by
    rw [haudit.1 (by simp [TakenWordFails, value_zero])]
    exact takenPosition_zero w u
  have hcoin : u.coinBooked w 0 = 0 := by simp [State.coinBooked]
  have hmiss : u.takenMissed w Quad.zero 0 = 0 := by simp [State.takenMissed, value_zero, balanceFits]
  simp only [Bool.false_eq_true, if_false, hcoin, hmiss, hp] at hclosed
  refine hclosed.transfer ?_ ?_ ?_ uj.symm (by rw [hu]) (by rw [hu]) (hk .dispenses (by simp)) (hk .path (by simp))
    (hk .position (by simp)) (hk .journal (by simp))
  · rw [hu]; exact (Pair.set_set _ _ _ _).symm
  · rw [ud]
  · rw [hu]

/-- The grant checks of a dispense, in a state y that differs from x at the claim, the escrow and the ports alone: they end as GrantGoesOn
says of x. -/
theorem grantChecks_goesOn (w : Teller) (x y t : State)
    (hy : y = { x with claim := y.claim, escrow := y.escrow, ports := y.ports })
    (hop : x.opInFlight w.other.port = false) (hk' : KeptBut [] (grantChecks w y) t) : GrantGoesOn w x t := by
  let y0 : State := y.onDispense w (fun d => { d with state := .queued, deferred := false })
  have ydisp : y.dispense w = x.dispense w := by rw [hy]; rfl
  have y0rest (p : Position) (q : Ports) : ({ y0 with position := p, ports := q } : State) = { x with
      dispenses := x.dispenses.set w { x.dispense w with state := .queued, deferred := false }
      claim := y.claim, escrow := y.escrow, position := p, ports := q } := by
    simp only [y0]
    rw [hy]
    rfl
  have y0d : y0.dispense w = { x.dispense w with state := .queued, deferred := false } := by
    rw [← ydisp]; exact onDispense_self _ _ _
  have ends (outcome : Nat) (why : Reason) (carried : Results) (failed : Prop) (u : State) (hr : WordsRead failed y0 u)
      (he : grantChecks w y = endDispense w outcome Quad.zero false (some why) carried u) (n : Nat) (hn : EndRoom n x) :
      DispenseClosed w outcome Quad.zero n u.position (some why) carried 0 0 x t := by
    rw [he] at hk'
    refine failGrant_closes w outcome n why carried x u ?_ hn t hk'
    have hu := hr.rest.trans (y0rest u.position u.ports)
    rw [hu]
  have same := WordsRead.refl y0
  have y0p : y0.position = x.position := by simp only [y0]; rw [hy]; rfl
  have y0path : y0.path = x.path := by simp only [y0]; rw [hy]; rfl
  have y0a : y0.alarm = x.alarm := by simp only [y0]; rw [hy]; rfl
  have y0s : y0.settings = x.settings := by simp only [y0]; rw [hy]; rfl
  have haudit : y0.auditRequired = x.auditRequired := by rw [State.auditRequired, State.auditRequired, y0p]
  have hres (e : Effect) : y0.restricted e = x.restricted e := by rw [State.restricted, State.restricted, y0a]
  have hunfold : grantChecks w y =
      match y0.path.state with
      | .jammed => failGrant w .jammed .none y0
      | .purging => failGrant w .busy .none y0
      | .ready =>
        if y0.auditRequired then failGrant w .audit .none y0
        else if y0.restricted .dispenseHalt ∨ y0.restricted .moduleLock then failGrant w .halted .none y0
        else
          match requestMix w (y0.dispense w).amount (y0.dispense w).cap (y0.dispense w).preference (y0.dispense w).target y0 with
          | (.failed why carried, s) => failGrant w why carried s
          | (.payable m, s) =>
            if s.position.binsFull then failGrant w .binFull .none s else enterPicking w (takeMix w m s) := by
    rfl
  rw [y0path, haudit, hres, hres, y0d] at hunfold
  unfold GrantGoesOn
  simp only [hop]
  rw [if_neg (by simp)]
  have p0 (n : Nat) (outcome : Nat) (why : Reason) (he : grantChecks w y = endDispense w outcome Quad.zero false (some why) .none y0)
      (hn : EndRoom n x) : DispenseClosed w outcome Quad.zero n x.position (some why) .none 0 0 x t := by
    have h := ends outcome why .none False y0 same he n hn
    rwa [y0p] at h
  cases hs : x.path.state with
  | jammed => rw [hs] at hunfold; exact fun n hn => p0 n _ _ hunfold hn
  | purging => rw [hs] at hunfold; exact fun n hn => p0 n _ _ hunfold hn
  | ready =>
    rw [hs] at hunfold
    simp only [] at hunfold ⊢
    by_cases h1 : x.auditRequired = true
    · rw [if_pos h1] at hunfold ⊢; exact fun n hn => p0 n _ _ hunfold hn
    rw [if_neg h1] at hunfold ⊢
    by_cases h2 : x.restricted .dispenseHalt = true ∨ x.restricted .moduleLock = true
    · rw [if_pos h2] at hunfold ⊢; exact fun n hn => p0 n _ _ hunfold hn
    rw [if_neg h2] at hunfold ⊢
    obtain ⟨m1, m2⟩ := requestMix_spec w (x.dispense w).amount (x.dispense w).cap (x.dispense w).preference (x.dispense w).target y0
    rw [mixFound_congr x y0 _ _ _ _ _ y0p y0s y0a] at m1 m2
    have hx := requestMix_spec w (x.dispense w).amount (x.dispense w).cap (x.dispense w).preference (x.dispense w).target x
    refine ⟨fun why carried u hu => ?_, fun m hm => ?_⟩
    · have hfound : x.mixFound w (x.dispense w).amount (x.dispense w).cap (x.dispense w).preference (x.dispense w).target =
          .failed why carried := by rw [← hx.1, hu]
      have halike := requestMix_alike w (x.dispense w).amount (x.dispense w).cap (x.dispense w).preference (x.dispense w).target
        (x := x) (y := y0) ⟨y0p, by simp only [y0]; rw [hy]; rfl⟩ y0s y0a
      rcases e : requestMix w (x.dispense w).amount (x.dispense w).cap (x.dispense w).preference (x.dispense w).target y0 with ⟨o, v⟩
      rw [hu, e] at halike
      rw [e] at m1 m2 hunfold
      obtain rfl : o = .failed why carried := m1.trans hfound
      intro n hn
      have he : grantChecks w y = endDispense w why.outcomeCode Quad.zero false (some why) carried v := hunfold
      have h := ends why.outcomeCode why carried _ _ m2 he n hn
      rw [halike.1, mixFound_outcome _ _ _ _ _ _ _ _ hfound] at h
      exact h
    · have hfound : x.mixFound w (x.dispense w).amount (x.dispense w).cap (x.dispense w).preference (x.dispense w).target =
          .payable m := by rw [← hx.1, hm]
      have hfine := m2.fine (by rw [hfound]; simp)
      have hsame : requestMix w (x.dispense w).amount (x.dispense w).cap (x.dispense w).preference (x.dispense w).target y0 =
          (.payable m, y0) := Prod.ext (m1.trans hfound) hfine
      rw [hsame] at hunfold
      simp only [y0p] at hunfold
      by_cases h3 : x.position.binsFull = true
      · rw [if_pos h3] at hunfold ⊢; exact fun n hn => p0 n _ _ hunfold hn
      rw [if_neg h3] at hunfold ⊢
      intro _ hnone
      obtain ⟨hmix, hnotes⟩ := payable_mix w _ _ _ _ x m (by rw [hm])
      rw [hmix] at hnotes
      obtain ⟨k, hk, husable⟩ := mix_first x _ _ _ _ hnotes
      rw [← hmix] at hk
      obtain ⟨c, hi, hc⟩ := commandPick_usable x k husable (by simpa using fun h => h2 (.inr h))
      refine ⟨k, c, hk, hi, ?_⟩
      have hz : (takeMix w m y0).dispense w =
          { x.dispense w with
            state := .queued, deferred := false, payable := m.payable, unpaid := m.unpaid
            capped := decide (m.payable < (x.dispense w).amount), mix := m.mix, remainder := m.remainder
            limit := x.settings.remainderLimit } := by
        unfold takeMix
        rw [onDispense_self, y0d, y0s]
      have hstart := enterPicking_starts w (takeMix w m y0) k c (by rw [hz]; exact hnone) (by rw [hz]; exact hk)
        ((commandPick_congr _ x k (by simp [y0p]) (by simpa using y0a)).trans hc)
      rw [hunfold, hstart] at hk'
      refine ⟨(hk' .position (by simp)).trans ?_, (hk' .journal (by simp)).trans ?_, (hk' .dispenses (by simp)).trans ?_,
        (hk' .path (by simp)).trans ?_⟩
      · show (takeMix w m y0).position = x.position
        simpa using y0p
      · show (takeMix w m y0).journal = x.journal
        simp only [takeMix_keeps, y0]
        rw [hy]
        rfl
      · rw [hz]
        show (takeMix w m y0).dispenses.set w _ = _
        simp only [takeMix, State.onDispense, y0, Pair.set_set]
        rw [hy]
      · simp only [takeMix_keeps, y0path]

end Sys2Proof.Machine
end

section
/-! DISPENSE that passes its checks: the start record, the first pick, the delay and the claim lent (R72 to R74, R77 to R79). -/
namespace Sys2Proof.Machine

/-! ## The amount of a request (R27, R70) -/

theorem digits_of_badDigitAt (n : Nat) (l : List Nat) (h : badDigitAt n l = none) : ∀ d ∈ l, d ≤ 9 := by
  induction l generalizing n with
  | nil => simp
  | cons d l ih =>
    rw [badDigitAt] at h
    split at h
    · cases h
    · intro e he
      rcases List.mem_cons.mp he with rfl | he
      · omega
      · exact ih _ h e he

theorem foldl_digits_lt (l : List Nat) (n k : Nat) (h : ∀ d ∈ l, d ≤ 9) (hn : n < 10 ^ k) :
    l.foldl (fun n d => n * 10 + d) n < 10 ^ (k + l.length) := by
  induction l generalizing n k with
  | nil => simpa using hn
  | cons d l ih =>
    have hd := h d List.mem_cons_self
    have hstep : n * 10 + d < 10 ^ (k + 1) := by rw [Nat.pow_succ]; omega
    have := ih _ (k + 1) (fun e he => h e (List.mem_cons_of_mem _ he)) hstep
    rw [List.foldl_cons, List.length_cons]
    rwa [show k + (l.length + 1) = k + 1 + l.length by omega]

/-- An amount of four packed bytes has eight digits (R27). -/
theorem readU4_lt (ops : List Byte) (at_ amount : Nat) (h : readU4 (field ops at_ 4) = .ok amount) : amount < 10 ^ 8 := by
  unfold readU4 at h
  split at h
  · cases h
  · simp only [Except.ok.injEq] at h
    rename_i hd
    have hlt := foldl_digits_lt (digitsOf (field ops at_ 4)) 0 0 (digits_of_badDigitAt _ _ hd) (by simp)
    have hlen : (digitsOf (field ops at_ 4)).length ≤ 8 := by
      simp [digitsOf, List.length_flatMap, field]
      omega
    rw [← h]
    exact hlt.trans_le (Nat.pow_le_pow_right (by omega) (by omega))

/-- The amount of a DISPENSE's start record is its payable amount (R34, R72). -/
theorem recordAmount_payable (w : Teller) (ops : List Byte) (amount : Nat) (m : MixResult) (s : State)
    (ho : (dispenseOperands ops).amount = .ok amount)
    (hm : (requestMix w amount (dispenseOperands ops).cap (dispenseOperands ops).preference (dispenseOperands ops).target s).1 =
      .payable m) : recordAmount m.payable = m.payable := by
  obtain ⟨hmix, -⟩ := payable_mix w _ _ _ _ s m hm
  have hpay : m.payable ≤ amount := by
    rw [hmix]
    show s.mixTarget amount ≤ amount
    unfold State.mixTarget
    split <;> omega
  have hlt := readU4_lt ops 0 amount ho
  unfold recordAmount Config.balanceMax
  rw [if_neg (by omega), if_neg (by omega)]

/-! ## The start of a dispense (R72) -/

/-- The DISPENSE_START record's draft (R72). -/
def startDraft (w : Teller) (o : DispenseOperands) (amount : Nat) (m : MixResult) (delayed : Bool) : Draft :=
  { kind := .dispenseStart, port := some w.port, counts := m.mix.toInt, amount := m.payable
    detail :=
      .dispense
        { amount := amount, payable := 0, remainder := m.remainder, unpaid := 0, unbooked := 0, cap := o.cap
          preference := o.preference, account := some (remainderAccount w o.target), cause := if delayed then 1 else 0 } }

/-- A dispense started: its record staged, its reservation made, its port's record filled. -/
def startDispense (w : Teller) (o : DispenseOperands) (amount : Nat) (m : MixResult) (delayed : Bool) (s : State) : Nat × State :=
  let x := stageApplied (startDraft w o amount m delayed) s
  let y := reserve w.port .dispense (x.1.getD 0) x.2
  (x.1.getD 0, y.onDispense w (fun _ => acceptedRecord y o amount m (x.1.getD 0)))

/-- The answer to a dispense started, and its delay or its picking (R72). -/
def startedAnswer (w : Teller) (o : DispenseOperands) (m : MixResult) (used applied delayed : Bool) (x : Nat × State) : Answer × State :=
  accepted
    (.dispenseAccepted
      { startSequence := x.1, cap := o.cap, preference := o.preference, mix := m, account := remainderAccount w o.target
        waiverConsumed := used, waiverApplied := applied, delay := if delayed then x.2.settings.delayTime else 0 })
    (if delayed then enterDelaying w x.2 else enterPicking w x.2)

theorem acceptDispense_eq (w : Teller) (o : DispenseOperands) (amount : Nat) (m : MixResult) (used : Bool) (s : State) :
    acceptDispense w o amount m used s =
      startedAnswer w o m used (s.waiverApplies used) (s.delayApplies amount used)
        (startDispense w o amount m (s.delayApplies amount used) s) := by
  unfold acceptDispense startDispense startedAnswer
  rfl

theorem DispenseStarted.transfer {w : Teller} {m : MixResult} {n : Nat} {s t s' t' : State} (h : DispenseStarted w m n s t)
    (hp : s'.position = s.position) (hj : s'.journal = s.journal) (hc : s'.clock = s.clock) (tp : t'.position = t.position)
    (tj : t'.journal = t.journal) : DispenseStarted w m n s' t' := by
  simpa only [DispenseStarted, Staged, hp, hj, hc, tp, tj] using h

/-- What the start of a dispense leaves. -/
theorem startDispense_started (w : Teller) (o : DispenseOperands) (amount : Nat) (m : MixResult) (delayed : Bool) (n : Nat) (s : State)
    (hn : s.journal.next = some n) (hpay : recordAmount m.payable = m.payable) :
    let x := startDispense w o amount m delayed s
    x.1 = n ∧ DispenseStarted w m n s x.2 ∧ x.2.ports.lines = s.ports.lines ∧
      x.2 = { s with
        position := { s.position with lastApplied := n }
        dispenses := s.dispenses.set w (acceptedRecord s o amount m n)
        journal := x.2.journal, ports := x.2.ports } := by
  intro x
  obtain ⟨h1, h2, r, hs, hst, hre, heh, hwd, rfl⟩ := stageApplied_recorded (startDraft w o amount m delayed) s n hn
  have hx1 : x.1 = n := by simp only [x, startDispense, h1, Option.getD_some]
  have hlimit (y : State) (hy : y.settings = s.settings) : acceptedRecord y o amount m n = acceptedRecord s o amount m n := by
    unfold acceptedRecord; rw [hy]
  have hx2 : x.2 = ((reserve w.port .dispense n (stageApplied (startDraft w o amount m delayed) s).2).onDispense w
      (fun _ => acceptedRecord s o amount m n)) := by
    simp only [x, startDispense, h1, Option.getD_some]
    rw [hlimit _ (by simp)]
  rw [hx2]
  refine ⟨hx1, ⟨?_, ?_, ?_, ?_, (startDraft w o amount m delayed).record n s.clock, ?_, rfl, rfl, rfl, rfl, hpay⟩, ?_, ?_⟩
  · simpa using h2
  · simp only [State.onDispense_keeps, reserve_journal, hre]
  · simp only [State.onDispense_keeps, reserve_journal, heh]
  · simp only [State.onDispense_keeps, reserve_journal, hwd]
  · exact hst.of_journal rfl rfl rfl rfl rfl rfl rfl rfl rfl rfl rfl rfl rfl
  · simp
  · have k := stageApplied_keeps (startDraft w o amount m delayed) s
    generalize (stageApplied (startDraft w o amount m delayed) s).2 = z at h2 k ⊢
    cases z; cases s; simp_all [State.onDispense]

/-! ## The request that passes (R71) -/

/-- The state in which a request is asked differs from the state before it at the claim's timer and the ports alone. -/
theorem reached_rest (r : Request) (f : Frame) (s : State) (h : Taken r f s) :
    reached r f s = { s with claim := (reached r f s).claim, ports := (reached r f s).ports } := by
  have k := reached_keeps r f s h
  generalize reached r f s = x at *
  cases x; cases s; simp_all

/-- A DISPENSE that passes every check is accepted. -/
theorem dispense_accepted (w : Teller) (f : Frame) (s : State) (amount n : Nat) (m : MixResult) (hw : f.port = w.port)
    (h : Taken .dispense f s) (hp : DispensePasses w (dispenseOperands f.operands) amount m n s)
    (hstack : s.delayApplies amount (Approved .dispense f s) = true → s.escrow.stack = []) :
    dispenseOwner f (consumed .dispense f s) (reached .dispense f s) =
      acceptDispense w (dispenseOperands f.operands) amount m (Approved .dispense f s) (reached .dispense f s) := by
  obtain ⟨hidle, hop, hown, hready, haudit, hhalt, hlock, ham, hzero, hgen, hmix, hbins, hmargins, hroom, -⟩ := hp
  have k := reached_keeps .dispense f s h
  have hpos : (reached .dispense f s).position = s.position := by simp only [k]
  have hj : (reached .dispense f s).journal = s.journal := by simp only [k]
  have hset : (reached .dispense f s).settings = s.settings := by simp only [k]
  have halarm : (reached .dispense f s).alarm = s.alarm := by simp only [k]
  have hesc : (reached .dispense f s).escrow = s.escrow := by simp only [k]
  have hpath : (reached .dispense f s).path = s.path := by simp only [k]
  have haud : (reached .dispense f s).auditRequired = s.auditRequired := by simp only [State.auditRequired, hpos]
  have hres (e : Effect) : (reached .dispense f s).restricted e = s.restricted e := by simp only [State.restricted, halarm]
  have hdisp : (reached .dispense f s).dispense w = s.dispense w := by simp only [State.dispense, k]
  have hmix' : requestMix w amount (dispenseOperands f.operands).cap (dispenseOperands f.operands).preference
      (dispenseOperands f.operands).target (reached .dispense f s) = (.payable m, reached .dispense f s) := by
    obtain ⟨x1, x2⟩ := requestMix_spec w amount (dispenseOperands f.operands).cap (dispenseOperands f.operands).preference
      (dispenseOperands f.operands).target (reached .dispense f s)
    have hs := (requestMix_spec w amount (dispenseOperands f.operands).cap (dispenseOperands f.operands).preference
      (dispenseOperands f.operands).target s).1
    rw [mixFound_congr s _ _ _ _ _ _ hpos hset halarm, ← hs, hmix] at x1 x2
    exact Prod.ext x1 (x2.fine (by simp))
  rw [consumed_eq_approved]
  have hat : dispenseOwner f (Approved .dispense f s) (reached .dispense f s) =
      dispenseAt w f.operands (Approved .dispense f s) (reached .dispense f s) := by
    cases w <;> simp only [dispenseOwner, hw, Teller.port, Port.teller?]
  rw [hat, dispenseAt, hdisp, reached_opInFlight .dispense f s h, reached_ownershipCheck .dispense f s h]
  simp only [hidle, hop, hown, State.moduleCheck, hpath, hready, haud, haudit, hres, hhalt, hlock, ham, hzero, hpos, hgen, judgeDispense,
    hmix', hbins, hesc, withMargins, hmargins, withRoom, hj, show s.journal.roomCheck 2 1 = none from hroom,
    reached_delayApplies f s h]
  by_cases hd : s.delayApplies amount (Approved .dispense f s) = true
  · simp [hstack hd]
  · simp [hd]

/-- A DISPENSE that passes, once its start is made: the block's answer, and the state y in which the delay or the picking begins. -/
theorem dispense_begun (w : Teller) (f : Frame) (s : State) (amount n : Nat) (m : MixResult) (hw : f.port = w.port)
    (h : Taken .dispense f s) (hp : DispensePasses w (dispenseOperands f.operands) amount m n s)
    (hstack : s.delayApplies amount (Approved .dispense f s) = true → s.escrow.stack = []) :
    let o := dispenseOperands f.operands
    let used := Approved .dispense f s
    let delayed := s.delayApplies amount used
    ∃ y : State,
      dispenseOwner f (consumed .dispense f s) (reached .dispense f s) =
        (.reply .accepted none
          (.dispenseAccepted
            { startSequence := n, cap := o.cap, preference := o.preference, mix := m,
              account := remainderAccount w o.target, waiverConsumed := used,
              waiverApplied := used && !s.restricted .dispenseCap, delay := if delayed then s.settings.delayTime else 0 }),
          if delayed then enterDelaying w y else enterPicking w y) ∧
      DispenseStarted w m n s y ∧ y.ports.lines = (reached .dispense f s).ports.lines ∧
      y = { s with
        position := { s.position with lastApplied := n }
        dispenses := s.dispenses.set w (acceptedRecord s o amount m n)
        claim := y.claim, journal := y.journal, ports := y.ports } ∧
      y.claim.owner = s.claim.owner ∧ y.claim.waiting = s.claim.waiting := by
  intro o used delayed
  have ho := dispense_accepted w f s amount n m hw h hp hstack
  obtain ⟨-, -, -, -, -, hhalt, -, ham, -, -, hmix, -, -, -, hnext⟩ := hp
  have hrest := reached_rest .dispense f s h
  have hwaiver : (reached .dispense f s).waiverApplies used = (used && !s.restricted .dispenseCap) := by
    have hres (e : Effect) : (reached .dispense f s).restricted e = s.restricted e := by rw [hrest]; rfl
    simp only [State.waiverApplies, hres, hhalt, Bool.or_false]
  have hpay := recordAmount_payable w f.operands amount m s ham (by rw [hmix])
  rw [acceptDispense_eq, reached_delayApplies f s h amount used, hwaiver] at ho
  have hkeeps := reached_keeps .dispense f s h
  generalize reached .dispense f s = x at *
  obtain ⟨s1, s2, s3, s4⟩ := startDispense_started w o amount m delayed n x (by rw [hrest]; exact hnext) hpay
  simp only [] at s1 s2 s3 s4
  have hrecord : acceptedRecord x o amount m n = acceptedRecord s o amount m n := by
    unfold acceptedRecord; rw [hrest]
  rw [hrecord] at s4
  rcases hz : startDispense w o amount m delayed x with ⟨start, y⟩
  rw [hz] at s1 s2 s3 s4
  simp only [] at s1 s2 s3 s4
  subst s1
  refine ⟨y, ?_, s2.transfer (by rw [hrest]) (by rw [hrest]) (by rw [hrest]) rfl rfl, s3, ?_, ?_, ?_⟩
  · rw [ho, show startDispense w (dispenseOperands f.operands) amount m (s.delayApplies amount used) x = _ from hz]
    simp only [startedAnswer, accepted, show y.settings = s.settings by rw [s4, hrest]]
    rfl
  · rw [s4, hrest]
  · rw [s4]; exact hkeeps.2.2.2.2.2.1
  · rw [s4]; exact hkeeps.2.2.2.2.2.2.1

/-! ## Without a delay (R72, R79) -/

/-- A step that leaves nothing of a window's dispense to be taken up, and the other window's as it was. -/
theorem quiet_of_started (w : Teller) (s x : State) (hq : Quiet s) (hready : s.path.state = .ready)
    (hop : s.opInFlight w.port = false) (hw : (x.dispense w).Calm) (ho : x.dispense w.other = s.dispense w.other)
    (hdraw : x.path.draw = s.path.draw) : Quiet x := by
  intro u
  by_cases e : u = w
  · subst e
    refine ⟨fun hc => ?_, fun hr => ?_⟩
    · rw [hw.1] at hc; simp at hc
    · simp only [State.retractWaits, Bool.and_eq_true, beq_iff_eq] at hr
      exact absurd hr.1.1 hw.2
  · have e := Teller.eq_other e
    subst e
    obtain ⟨h1, h2⟩ := hq w.other
    have hport : w.other.other.port = w.port := by cases w <;> rfl
    rw [hport] at h1
    rw [ho]
    refine ⟨fun hc => h1 ⟨hc.1, hc.2.1, hop⟩, fun hr => ?_⟩
    have := h2 (by simpa only [State.retractWaits, ho, hdraw] using hr)
    rw [hready] at this
    cases this

theorem dispense_starts (w : Teller) (f : Frame) (s : State) (amount n : Nat) (m : MixResult) (hw : f.port = w.port)
    (h : Taken .dispense f s) (hp : DispensePasses w (dispenseOperands f.operands) amount m n s)
    (hdelay : s.delayApplies amount (Approved .dispense f s) = false) :
    let o := dispenseOperands f.operands
    let consumed := Approved .dispense f s
    Replies (.dispense f) .dispense f .accepted
      (.dispenseAccepted
        { startSequence := n, cap := o.cap, preference := o.preference, mix := m,
          account := remainderAccount w o.target, waiverConsumed := consumed,
          waiverApplied := consumed && !s.restricted .dispenseCap, delay := 0 })
      [.position, .dispenses, .path, .journal, .ports] s (fun t =>
        ApprovalUsed .dispense f s t ∧ DispenseStarted w m n s t ∧
          t.dispenses = s.dispenses.set w { acceptedRecord s o amount m n with state := .picking } ∧
          ∃ k d : Ix,
            o.preference.find? (fun j => decide (0 < m.mix.get j)) = some k ∧
              (s.position.cassettes.get k).index = some d ∧
              t.path = { s.path with pick := some ⟨w, k, d, .commanded⟩ }) := by
  intro o consumed
  obtain ⟨y, ho, s2, s3, yrest, yowner, ywaiting⟩ := dispense_begun w f s amount n m hw h hp (by rw [hdelay]; simp)
  obtain ⟨-, hop, -, hready, -, -, hlock, -, -, -, hmix, -⟩ := hp
  simp only [hdelay, Bool.false_eq_true, if_false] at ho
  have yd : y.dispense w = acceptedRecord s o amount m n := by rw [yrest]; exact Pair.get_set_self _ _ _
  obtain ⟨hm, hnotes⟩ := payable_mix w amount o.cap o.preference o.target s m (by rw [hmix])
  rw [hm] at hnotes
  obtain ⟨k, hk, husable⟩ := mix_first s _ _ _ _ hnotes
  rw [← hm] at hk
  obtain ⟨d, hi, hc⟩ := commandPick_usable s k husable hlock
  have hstart := enterPicking_starts w y k d (by rw [yd]; rfl) (by rw [yd]; exact hk)
    ((commandPick_congr y s k (by rw [yrest]) (by rw [yrest])).trans hc)
  rw [yd] at hstart
  generalize enterPicking w y = z at *
  have zrest : z = { s with
      position := { s.position with lastApplied := n }
      dispenses := s.dispenses.set w { acceptedRecord s o amount m n with state := .picking }
      path := { s.path with pick := some ⟨w, k, d, .commanded⟩ }
      claim := y.claim, journal := y.journal, ports := y.ports } := by
    rw [hstart, yrest]
    simp only [Pair.set_set]
  have zports : z.ports = y.ports := by rw [zrest]
  have hlines : z.ports.lines = (reached .dispense f s).ports.lines := by rw [zports, s3]
  refine replies_with (.dispense f) .dispense f (dispenseOwner f) .accepted _ _ s z _ rfl h ho ?_ ?_ hlines ?_ fun t hkept _ => ⟨?_, ?_, ?_, k, d, hk, hi, ?_⟩
  · refine quiet_of_started w s z h.2.2.2.2.1 hready hop ?_ ?_ (by rw [zrest])
    · rw [show z.dispense w = { acceptedRecord s o amount m n with state := .picking } by
        rw [zrest]; exact Pair.get_set_self _ _ _]
      exact ⟨rfl, by simp⟩
    · rw [zrest]; exact Pair.get_set_other _ _ _ _ (by cases w <;> decide)
  · rw [zrest]; exact h.1
  · intro b hb
    cases b
    case position | dispenses | path | journal | ports => simp at hb
    all_goals rw [zrest]; simp [Kept, yowner, ywaiting]
  · exact approvalUsed_of .dispense f s z t h hlines (hkept .ports (by simp))
  · refine s2.transfer rfl rfl rfl ?_ ?_
    · rw [show t.position = z.position from hkept .position (by simp), zrest, yrest]
    · rw [show t.journal = z.journal from hkept .journal (by simp), zrest]
  · rw [show t.dispenses = z.dispenses from hkept .dispenses (by simp), zrest]
  · rw [show t.path = z.path from hkept .path (by simp), zrest]

/-! ## The claim freed (R51) -/

/-- A freed module of which nobody owns the escrow record. -/
def State.claimed (s : State) (o : Owner) (waiting : List WaitEntry) : State :=
  { s with claim := ⟨o, waiting, none⟩, escrow := { s.escrow with isOpen := false } }

theorem setOwner_none (s : State) (h : s.escrow.stack = []) : setOwner .none s = s.claimed .none s.claim.waiting := by
  unfold setOwner State.claimed
  by_cases ho : s.escrow.isOpen = true
  · have hp : Owner.none ≠ ownerOf s.escrow.owner.port := by cases s.escrow.owner <;> decide
    simp only [ho, h, hp, ne_eq, not_false_eq_true, and_self, if_true, State.onEscrow]
  · rw [if_neg fun hc => ho hc.1, ← Bool.eq_false_iff.mpr ho]

theorem setOwner_claimed (s : State) (o p : Owner) (ws vs : List WaitEntry) :
    setOwner p { s.claimed o ws with claim := { (s.claimed o ws).claim with waiting := vs } } = s.claimed p vs := by
  unfold setOwner State.claimed
  simp

/-- The claim goes to a port that waits for it (R51). -/
theorem freeClaim_claim (s : State) (p : Port) (rest : List WaitEntry) (h : s.escrow.stack = []) (hw : s.claim.waiting = .claim p :: rest) :
    freeClaim s = raise p (.grant (ownerOf p)) (s.claimed (ownerOf p) rest) := by
  unfold freeClaim handOn
  rw [setOwner_none s h]
  simp only [show (s.claimed .none s.claim.waiting).claim.waiting = .claim p :: rest from hw]
  have := setOwner_claimed s .none (ownerOf p) s.claim.waiting rest
  exact congrArg (raise p (.grant (ownerOf p))) this

/-- The claim goes to a dispense whose delay has ended (R51, R77). -/
theorem freeClaim_delayed (s : State) (w : Teller) (rest : List WaitEntry) (h : s.escrow.stack = [])
    (hw : s.claim.waiting = .delayed w :: rest) :
    freeClaim s = grantDispense w (s.claimed (ownerOf w.port) rest) := by
  unfold freeClaim handOn
  rw [setOwner_none s h]
  simp only [show (s.claimed .none s.claim.waiting).claim.waiting = .delayed w :: rest from hw]
  have := setOwner_claimed s .none (ownerOf w.port) s.claim.waiting rest
  exact congrArg (grantDispense w) this

/-! ## With the delay (R73, R74) -/

/-- The record of a dispense whose delay runs (R74). -/
def delayedRecord (s : State) (o : DispenseOperands) (amount : Nat) (m : MixResult) (n : Nat) : Dispense :=
  { acceptedRecord s o amount m n with
    state := .delaying, delayEnd := s.clock.count + BitVec.ofNat 32 s.settings.delayTime }

/-- A dispense that its request has begun, the delay running and the claim about to be lent: the block's answer, in a state x that
differs from the one before at the position, the dispense, the journal, the claim's timer and the ports alone. -/
theorem dispense_delays (w : Teller) (f : Frame) (s : State) (amount n : Nat) (m : MixResult) (hw : f.port = w.port)
    (h : Taken .dispense f s) (hp : DispensePasses w (dispenseOperands f.operands) amount m n s)
    (hdelay : s.delayApplies amount (Approved .dispense f s) = true) (hstack : s.escrow.stack = []) :
    let o := dispenseOperands f.operands
    let consumed := Approved .dispense f s
    ∃ x : State,
      dispenseOwner f (Machine.consumed .dispense f s) (reached .dispense f s) =
        (.reply .accepted none
          (.dispenseAccepted
            { startSequence := n, cap := o.cap, preference := o.preference, mix := m,
              account := remainderAccount w o.target, waiverConsumed := consumed,
              waiverApplied := consumed && !s.restricted .dispenseCap, delay := s.settings.delayTime }), freeClaim x) ∧
      DispenseStarted w m n s x ∧ x.ports.lines = (reached .dispense f s).ports.lines ∧
      x = { s with
        position := { s.position with lastApplied := n }
        dispenses := s.dispenses.set w (delayedRecord s o amount m n)
        claim := x.claim, journal := x.journal, ports := x.ports } ∧
      x.claim.owner = s.claim.owner ∧ x.claim.waiting = s.claim.waiting := by
  intro o consumed
  obtain ⟨y, ho, s2, s3, yrest, yowner, ywaiting⟩ := dispense_begun w f s amount n m hw h hp fun _ => hstack
  simp only [hdelay, if_true] at ho
  have yd : y.dispense w = acceptedRecord s o amount m n := by rw [yrest]; exact Pair.get_set_self _ _ _
  let x : State := { y with
    dispenses := y.dispenses.set w { y.dispense w with
      state := .delaying, delayEnd := y.clock.count + BitVec.ofNat 32 y.settings.delayTime, extended := false } }
  refine ⟨x, ho, s2.transfer rfl rfl rfl rfl rfl, s3, ?_, yowner, ywaiting⟩
  simp only [x]
  rw [yd, yrest]
  simp only [Pair.set_set]
  rfl

/-- The reply to a DISPENSE whose delay runs (R72, R73). -/
def delayedReply (w : Teller) (f : Frame) (s : State) (n : Nat) (m : MixResult) : Results :=
  .dispenseAccepted
    { startSequence := n, cap := (dispenseOperands f.operands).cap, preference := (dispenseOperands f.operands).preference, mix := m,
      account := remainderAccount w (dispenseOperands f.operands).target, waiverConsumed := Approved .dispense f s,
      waiverApplied := Approved .dispense f s && !s.restricted .dispenseCap, delay := s.settings.delayTime }

/-- The claim is lent to nobody or to a port that waited for it, which may be told (R51, R74). -/
theorem dispense_lends (w : Teller) (f : Frame) (s x z : State) (n : Nat) (m : MixResult) (d : Dispense) (o : Owner)
    (ws : List WaitEntry) (told : State → Prop) (h : Taken .dispense f s)
    (ho : dispenseOwner f (consumed .dispense f s) (reached .dispense f s) = (.reply .accepted none (delayedReply w f s n m), z))
    (hready : s.path.state = .ready) (hop : s.opInFlight w.port = false) (hd : d.Calm) (hstart : DispenseStarted w m n s x)
    (hl : x.ports.lines = (reached .dispense f s).ports.lines)
    (hx : x = { s with
      position := { s.position with lastApplied := n }, dispenses := s.dispenses.set w d
      claim := x.claim, journal := x.journal, ports := x.ports })
    (hz : z = { x.claimed o ws with ports := z.ports }) (hzl : z.ports.lines = x.ports.lines)
    (ht : ∀ t, (∀ p n, Told p n z → n.kind ≠ .alarmChange → Told p n t) → told t) :
    Replies (.dispense f) .dispense f .accepted (delayedReply w f s n m) [.position, .dispenses, .claim, .escrow, .journal, .ports] s
      (fun t => ApprovalUsed .dispense f s t ∧ (DispenseStarted w m n s t ∧ t.dispenses = s.dispenses.set w d) ∧ ClaimIs o ws t ∧
        t.escrow = { s.escrow with isOpen := false } ∧ told t) := by
  have hlines := hzl.trans hl
  have zrest : z = { s with
      position := { s.position with lastApplied := n }, dispenses := s.dispenses.set w d
      claim := ⟨o, ws, none⟩, escrow := { s.escrow with isOpen := false }, journal := x.journal, ports := z.ports } := by
    rw [hz, hx]; rfl
  refine replies_with (.dispense f) .dispense f (dispenseOwner f) .accepted _ _ s z _ rfl h ho ?_ ?_ hlines ?_
    fun t hk hn => ⟨approvalUsed_of .dispense f s z t h hlines (hk .ports (by simp)), ⟨hstart.transfer rfl rfl rfl ?_ ?_, ?_⟩, ?_, ?_,
      ht t hn⟩
  · refine quiet_of_started w s z h.2.2.2.2.1 hready hop ?_ ?_ (by rw [zrest])
    · rw [show z.dispense w = d by rw [zrest]; exact Pair.get_set_self _ _ _]
      exact hd
    · rw [zrest]; exact Pair.get_set_other _ _ _ _ (by cases w <;> decide)
  · rw [zrest]; exact h.1
  · intro b hb
    cases b
    case position | dispenses | claim | escrow | journal | ports => simp at hb
    all_goals rw [zrest]; simp [Kept]
  · rw [show t.position = z.position from hk .position (by simp), zrest, hx]
  · rw [show t.journal = z.journal from hk .journal (by simp), zrest]
  · rw [show t.dispenses = z.dispenses from hk .dispenses (by simp), zrest]
  · obtain ⟨h1, h2⟩ := hk .claim (by simp)
    exact ⟨h1.trans (by rw [zrest]), h2.trans (by rw [zrest])⟩
  · rw [show t.escrow = z.escrow from hk .escrow (by simp), zrest]

/-- The claim is lent to the other window's dispense, whose delay has ended: it is granted (R51, R77). -/
theorem dispense_lends_delayed (w : Teller) (f : Frame) (s x : State) (n : Nat) (m : MixResult) (d : Dispense)
    (rest : List WaitEntry) (h : Taken .dispense f s)
    (ho : dispenseOwner f (consumed .dispense f s) (reached .dispense f s) =
      (.reply .accepted none (delayedReply w f s n m), freeClaim x))
    (hop : s.opInFlight w.port = false) (hd : d.state = .delaying) (hdef : d.deferred = false) (hstart : DispenseStarted w m n s x)
    (hl : x.ports.lines = (reached .dispense f s).ports.lines)
    (hx : x = { s with
      position := { s.position with lastApplied := n }, dispenses := s.dispenses.set w d
      claim := x.claim, journal := x.journal, ports := x.ports })
    (hstack : s.escrow.stack = []) (hw : x.claim.waiting = .delayed w.other :: rest) :
    Replies (.dispense f) .dispense f .accepted (delayedReply w f s n m)
      [.position, .dispenses, .claim, .escrow, .path, .journal, .ports] s
      (fun t => ApprovalUsed .dispense f s t ∧ ClaimIs (ownerOf w.other.port) rest t ∧ t.escrow = { s.escrow with isOpen := false } ∧
        ∃ u : State, (DispenseStarted w m n s u ∧ u.dispenses = s.dispenses.set w d) ∧
          KeptBut [.position, .dispenses, .journal, .ports] s u ∧ GrantGoesOn w.other u t) := by
  have hback : w.other.other = w := by cases w <;> rfl
  let u : State := { s with
    position := { s.position with lastApplied := n }, dispenses := s.dispenses.set w d, journal := x.journal }
  have hidle : u.opInFlight w.other.other.port = false := by
    have hflight : u.dispenseInFlight w = false := by
      rw [State.dispenseInFlight, show u.dispenses.get w = d from Pair.get_set_self _ _ _, hd]; rfl
    have hport : w.port.teller? = some w := by cases w <;> rfl
    rw [hback]
    unfold State.opInFlight at hop ⊢
    rw [hport] at hop ⊢
    simp only [hflight, Bool.false_or, Bool.or_eq_false_iff] at hop ⊢
    exact hop.2
  let y := x.claimed (ownerOf w.other.port) rest
  have hyu : y = { u with claim := y.claim, escrow := y.escrow, ports := y.ports } := by
    simp only [y, State.claimed, u]
    rw [hx]
  have hyop : y.opInFlight w.other.other.port = false := by
    rw [← hidle]
    simp only [State.opInFlight, State.dispenseInFlight, show y.dispenses = u.dispenses by rw [hyu],
      show y.escrow.op = u.escrow.op by simp only [y, State.claimed, u]; rw [hx]]
  have hfree : freeClaim x = grantChecks w.other y := by
    rw [freeClaim_delayed x w.other rest (by rw [hx]; exact hstack) hw, grantDispense, if_neg (by rw [hyop]; simp)]
  rw [hfree] at ho
  obtain ⟨hwithin, hcalm⟩ := grantChecks_within w.other y
  have hkeeps := grantChecks_keeps w.other y
  have hgo (t : State) (hk : KeptBut [] (grantChecks w.other y) t) := grantChecks_goesOn w.other u y t hyu hidle hk
  generalize grantChecks w.other y = z at *
  have hlines : z.ports.lines = (reached .dispense f s).ports.lines := hwithin.lines.trans hl
  have zd : z.dispense w = d := by
    have e := hwithin.other
    rw [hback] at e
    rw [e, show y.dispense w = u.dispense w by rw [hyu]; rfl]
    exact Pair.get_set_self _ _ _
  have hesc : y.escrow = { s.escrow with isOpen := false } := by simp only [y, State.claimed]; rw [hx]
  refine replies_with (.dispense f) .dispense f (dispenseOwner f) .accepted _ _ s z _ rfl h ho ?_ ?_ hlines ?_
    fun t hk _ => ⟨approvalUsed_of .dispense f s z t h hlines (hk .ports (by simp)), ?_, ?_, u,
      ⟨hstart.transfer rfl rfl rfl ?_ rfl, rfl⟩, ?_, hgo t hk⟩
  · refine quiet_of_atRest z fun v => ?_
    by_cases e : v = w
    · subst e
      rw [zd]
      exact ⟨fun hc => by rw [hdef] at hc; simp at hc, by rw [hd]; simp⟩
    · rw [Teller.eq_other e]
      exact ⟨fun hc => by rw [hcalm.1] at hc; simp at hc, hcalm.2⟩
  · rw [hkeeps.1, hyu]; exact h.1
  · intro b hb
    cases b
    case position | dispenses | claim | escrow | path | journal | ports => simp at hb
    all_goals simp only [Kept, hkeeps]; rw [hyu]
  · obtain ⟨h1, h2⟩ := hk .claim (by simp)
    exact ⟨h1.trans (by rw [hkeeps.2.2.2.2.1]; rfl), h2.trans (by rw [hkeeps.2.2.2.2.1]; rfl)⟩
  · rw [show t.escrow = z.escrow from hk .escrow (by simp), hwithin.escrow, hesc]
  · rw [hx]
  · intro b hb
    cases b
    case position | dispenses | journal | ports => simp at hb
    all_goals simp [Kept, u]

/-- Settles O17: without a delay the first pick; with it the claim lent to nobody, to a port, or to the other window's dispense. -/
theorem dispenseIsAccepted : Obligations.DispenseIsAccepted := by
  unfold Obligations.DispenseIsAccepted
  refine ⟨fun w f s amount n m hw h hp hd => dispense_starts w f s amount n m hw h hp hd,
    fun w f s amount n m hw h hp hd hstack => ?_⟩
  have hfacts := hp
  obtain ⟨-, hop, -, hready, -⟩ := hfacts
  obtain ⟨x, ho, hstart, hl, hx, -, hwaiting⟩ := dispense_delays w f s amount n m hw h hp hd hstack
  have hcalm : (delayedRecord s (dispenseOperands f.operands) amount m n).Calm := ⟨rfl, by simp [delayedRecord]⟩
  have hxs : x.escrow.stack = [] := by rw [hx]; exact hstack
  refine ⟨fun hw' => ?_, fun p rest hw' => ?_, fun rest hw' _ => ?_⟩
  · have hfree : freeClaim x = x.claimed .none [] := by
      rw [freeClaim_alone x (hwaiting.trans hw'), setOwner_none x hxs, hwaiting, hw']
    rw [hfree] at ho
    obtain ⟨t, he, ha, hk, h1, h2, h3, h4, -⟩ := dispense_lends w f s x _ n m _ .none [] (fun _ => True) h ho hready hop
      hcalm hstart hl hx rfl rfl fun _ _ => trivial
    exact ⟨t, he, ha, hk, h1, h2, h3, h4⟩
  · have hfree := freeClaim_claim x p rest hxs (hwaiting.trans hw')
    rw [hfree] at ho
    exact dispense_lends w f s x _ n m _ (ownerOf p) rest (Told p (.grant (ownerOf p))) h ho hready hop hcalm hstart hl hx
      rfl (raise_lines _ _ _) fun t ht => ht p _ (raise_told _ _ _) (by simp [Notice.kind])
  · exact dispense_lends_delayed w f s x n m _ rest h ho hop rfl rfl hstart hl hx hstack (hwaiting.trans hw')

end Sys2Proof.Machine
end

section
/-! What start-up's steps leave: the journal grown, the lines of the ports, what was told, and the alarm unit derived (R158, R198). -/
namespace Sys2Proof.Machine

/-! ## A journal that has grown (R160, R163) -/

/-- Records have been staged, in the order of their numbers, or lost; the durable part, the reservations and the OP_DONEs yet to be raised
stand as they were. -/
structure Journal.GrownTo (i j : Journal) : Prop where
  reservations : j.reservations = i.reservations
  retained : j.retained = i.retained
  durable : j.durable = i.durable
  trimPoint : j.trimPoint = i.trimPoint
  waitingDone : j.waitingDone = i.waitingDone
  staged : ∃ more : List Record, j.staging = i.staging ++ more ∧ (more = [] → j.next = i.next) ∧
    ∀ r, more.head? = some r → i.next = some r.sequence

theorem Journal.grown_refl (j : Journal) : j.GrownTo j := ⟨rfl, rfl, rfl, rfl, rfl, [], by simp⟩

theorem Journal.GrownTo.trans {i j k : Journal} (h : i.GrownTo j) (g : j.GrownTo k) : i.GrownTo k := by
  obtain ⟨xs, hx, hn, hh⟩ := h.staged
  obtain ⟨ys, hy, gn, gh⟩ := g.staged
  refine ⟨g.reservations.trans h.reservations, g.retained.trans h.retained, g.durable.trans h.durable,
    g.trimPoint.trans h.trimPoint, g.waitingDone.trans h.waitingDone, xs ++ ys, by rw [hy, hx, List.append_assoc], ?_, ?_⟩
  · intro e
    obtain ⟨ex, ey⟩ := List.append_eq_nil_iff.mp e
    rw [gn ey, hn ex]
  · intro r hr
    cases xs with
    | nil => rw [← hn rfl]; exact gh r hr
    | cons x xs => exact hh r hr

theorem stage_grown (d : Draft) (s : State) : s.journal.GrownTo (stage d s).2.journal := by
  cases h : s.journal.next with
  | none => rw [stage_none d s h]; exact s.journal.grown_refl
  | some n =>
    obtain ⟨-, ⟨-, -, -, hst, hre, hdu, htr, -, -⟩, hr, -, hw⟩ := stage_some d s n h
    refine ⟨hr, hre, hdu, htr, hw, [d.record n s.clock], hst, by simp, ?_⟩
    intro r e
    cases e
    exact h

theorem eventRecord_grown (d : Draft) (s : State) : s.journal.GrownTo (eventRecord d s).2.journal := by
  unfold eventRecord
  split
  · exact stage_grown d s
  · rw [show (none, loseRecord s).2 = loseRecord s from rfl, loseRecord_journal]
    exact ⟨rfl, rfl, rfl, rfl, rfl, [], by simp⟩

/-! ## What a step of start-up touches -/

/-- A step of start-up touches no setting, clock, sensor, claim or path; idle dispenses stay idle, the journal grows, and at the ports no
more than notices change. -/
structure StartWork (s t : State) : Prop where
  rest : t = { s with
    position := t.position, dispenses := t.dispenses, escrow := t.escrow, depository := t.depository, alarm := t.alarm
    journal := t.journal, ports := t.ports }
  idle : s.dispenses = ⟨Dispense.idle, Dispense.idle⟩ → t.dispenses = ⟨Dispense.idle, Dispense.idle⟩
  lines : t.ports.lines = s.ports.lines
  grown : s.journal.GrownTo t.journal
  tells : Tells [.restriction, .journalHigh, .cassetteLow] s t

theorem StartWork.refl (s : State) : StartWork s s := ⟨rfl, id, rfl, s.journal.grown_refl, tells_of_ports _ rfl⟩

theorem StartWork.trans {s t u : State} (h : StartWork s t) (k : StartWork t u) : StartWork s u :=
  ⟨k.rest.trans (congrArg (fun x : State => { x with
      position := u.position, dispenses := u.dispenses, escrow := u.escrow, depository := u.depository, alarm := u.alarm
      journal := u.journal, ports := u.ports }) h.rest),
    k.idle ∘ h.idle, k.lines.trans h.lines, h.grown.trans k.grown, h.tells.trans k.tells⟩

/-- Work that reaches neither the dispenses, the journal nor the ports. -/
theorem StartWork.of_same {s t : State}
    (h : t = { s with position := t.position, escrow := t.escrow, depository := t.depository, alarm := t.alarm }) : StartWork s t := by
  have hd : t.dispenses = s.dispenses := by rw [h]
  have hj : t.journal = s.journal := by rw [h]
  have hp : t.ports = s.ports := by rw [h]
  refine ⟨?_, fun e => hd.trans e, by rw [hp], by rw [hj]; exact s.journal.grown_refl, tells_of_ports _ hp⟩
  rw [hd, hj, hp]
  exact h

theorem StartWork.startUp {s t : State} (h : StartWork s t) : t.startUp = s.startUp := by rw [h.rest]
theorem StartWork.clock {s t : State} (h : StartWork s t) : t.clock = s.clock := by rw [h.rest]
theorem StartWork.pins {s t : State} (h : StartWork s t) : t.pins = s.pins := by rw [h.rest]
theorem StartWork.settings {s t : State} (h : StartWork s t) : t.settings = s.settings := by rw [h.rest]
theorem StartWork.claim {s t : State} (h : StartWork s t) : t.claim = s.claim := by rw [h.rest]
theorem StartWork.path {s t : State} (h : StartWork s t) : t.path = s.path := by rw [h.rest]

/-- The custody's bookings are such work, where the journal grows. -/
theorem CustodyOnly.work {s t : State} (h : CustodyOnly s t) (hj : s.journal.GrownTo t.journal)
    (ht : Tells [.restriction, .journalHigh, .cassetteLow] s t) : StartWork s t := by
  have hd : t.dispenses = s.dispenses := by rw [h.rest]
  have he : t.escrow = s.escrow := by rw [h.rest]
  have hs : t.depository = s.depository := by rw [h.rest]
  have ha : t.alarm = s.alarm := by rw [h.rest]
  refine ⟨?_, fun e => hd.trans e, h.lines, hj, ht⟩
  rw [hd, he, hs, ha]
  exact h.rest

/-! ## Work of the alarm unit before what follows from the zones -/

/-- Zones and the sounder may have changed and records been written; the level, the set and the silent line, and with them the slot, are
not yet what follows. -/
structure AlarmHeld (s t : State) : Prop where
  work : StartWork s t
  position : t.position = s.position
  escrow : t.escrow = s.escrow
  depository : t.depository = s.depository
  level : t.alarm.level = s.alarm.level
  restriction : t.alarm.restriction = s.alarm.restriction
  silent : t.alarm.silentLine = s.alarm.silentLine

theorem AlarmHeld.refl (s : State) : AlarmHeld s s := ⟨.refl s, rfl, rfl, rfl, rfl, rfl, rfl⟩

theorem AlarmHeld.trans {s t u : State} (h : AlarmHeld s t) (k : AlarmHeld t u) : AlarmHeld s u :=
  ⟨h.work.trans k.work, k.position.trans h.position, k.escrow.trans h.escrow, k.depository.trans h.depository,
    k.level.trans h.level, k.restriction.trans h.restriction, k.silent.trans h.silent⟩

theorem onAlarm_held (f : AlarmUnit → AlarmUnit) (s : State) (hl : (f s.alarm).level = s.alarm.level)
    (hr : (f s.alarm).restriction = s.alarm.restriction) (hs : (f s.alarm).silentLine = s.alarm.silentLine) :
    AlarmHeld s (s.onAlarm f) := ⟨.of_same rfl, rfl, rfl, rfl, hl, hr, hs⟩

theorem onZone_held (z : Fin 16) (f : Zone → Zone) (s : State) : AlarmHeld s (onZone z f s) := onAlarm_held _ s rfl rfl rfl

theorem markChanged_held (s : State) : AlarmHeld s (markChanged s) := onAlarm_held _ s rfl rfl rfl

theorem setZoneState_held (z : Fin 16) (x : ZoneState) (s : State) : AlarmHeld s (setZoneState z x s) := by
  unfold setZoneState
  split
  · exact .refl s
  · exact (onZone_held z _ s).trans (markChanged_held _)

theorem soundFor_held (z : Fin 16) (s : State) : AlarmHeld s (soundFor z s) := by
  unfold soundFor
  split
  · exact onAlarm_held _ s rfl rfl rfl
  · exact .refl s

theorem eventRecord_only (d : Draft) (s : State) : CustodyOnly s (eventRecord d s).2 :=
  ⟨by apply rest_of_fields <;> simp, eventRecord_lines d s⟩

theorem eventRecord_held (d : Draft) (s : State) : AlarmHeld s (eventRecord d s).2 := by
  refine ⟨(eventRecord_only d s).work (eventRecord_grown d s) ((tells_eventRecord d s).mono (by simp)), ?_, ?_, ?_, ?_, ?_, ?_⟩
  all_goals simp

theorem extendDelay_idle (w : Teller) (s : State) (h : s.dispenses = ⟨Dispense.idle, Dispense.idle⟩) : extendDelay w s = s := by
  obtain ⟨⟩ := s
  subst h
  cases w <;> rfl

theorem reportHoldup_held (z : Fin 16) (s : State) : AlarmHeld s (reportHoldup z s) := by
  have k := reportHoldup_keeps z s
  have hi (h : s.dispenses = ⟨Dispense.idle, Dispense.idle⟩) : reportHoldup z s = s := by
    unfold reportHoldup
    rw [extendDelay_idle .a s h, extendDelay_idle .b s h]
    exact ite_self s
  refine ⟨⟨?_, fun h => by rw [hi h]; exact h, by simp, by simp only [k]; exact s.journal.grown_refl, tells_of_ports _ (by simp)⟩, ?_, ?_, ?_,
    ?_, ?_, ?_⟩
  · generalize reportHoldup z s = t at k
    cases t; cases s
    simp_all
  all_goals simp

/-! ## What follows from the zones (R118, R151, R153) -/

/-- The level, the set and the slot follow from zones that were changed: nothing follows where they give the same level and set, and
otherwise both are computed anew. -/
def AlarmFollows (s t : State) : Prop :=
  (AlarmHeld s t ∧ t.alarm.activeLevel = s.alarm.activeLevel ∧ t.alarm.latchedEffects = s.alarm.latchedEffects) ∨
    ∃ x, AlarmHeld s x ∧ t = recompute x

theorem AlarmFollows.refl (s : State) : AlarmFollows s s := .inl ⟨.refl s, rfl, rfl⟩

theorem AlarmFollows.after {s x t : State} (h : AlarmFollows x t) (k : AlarmHeld s x)
    (hl : x.alarm.activeLevel = s.alarm.activeLevel) (he : x.alarm.latchedEffects = s.alarm.latchedEffects) : AlarmFollows s t := by
  rcases h with ⟨h, h1, h2⟩ | ⟨y, h, rfl⟩
  · exact .inl ⟨k.trans h, h1.trans hl, h2.trans he⟩
  · exact .inr ⟨y, k.trans h, rfl⟩

theorem slotJudged_self (s : State) : s.slotJudged s.alarm.restriction = s.depository := if_neg (by simp [State.restricted])

theorem recompute_work (s : State) (h : s.startUp.phase ≠ .ready) : StartWork s (recompute s) := by
  have k := recompute_spec s (fun _ _ => .inl h)
  have hd : (recompute s).dispenses = s.dispenses := by rw [k.rest]
  have hj : (recompute s).journal = s.journal := by rw [k.rest]
  have hp : (recompute s).position = s.position := by rw [k.rest]
  have he : (recompute s).escrow = s.escrow := by rw [k.rest]
  refine ⟨?_, fun e => hd.trans e, k.lines, by rw [hj]; exact s.journal.grown_refl, k.tells.mono (by simp)⟩
  rw [hp, hd, he, hj]
  exact k.rest

theorem recompute_slot (s : State) (h : s.startUp.phase ≠ .ready) :
    (recompute s).depository = s.slotJudged s.alarm.latchedEffects := by
  obtain ⟨b, -, hl⟩ := recomputeLevel_eq s
  unfold recompute
  rw [hl]
  generalize hy : ({ s with alarm := { s.alarm with level := s.alarm.activeLevel, changed := b } } : State) = y
  have he : y.alarm.latchedEffects = s.alarm.latchedEffects := by rw [← hy]; rfl
  have hr : y.alarm.restriction = s.alarm.restriction := by rw [← hy]
  have hd : y.depository = s.depository := by rw [← hy]
  have hj : y.slotJudged s.alarm.latchedEffects = s.slotJudged s.alarm.latchedEffects := by rw [← hy]; rfl
  simp only [he]
  by_cases e : s.alarm.latchedEffects = y.alarm.restriction
  · rw [if_pos e, hd, e, hr, slotJudged_self]
  · rw [if_neg e, newRestriction_eq _ y (fun _ _ => .inl (by rw [← hy]; exact h)), ← hj]

/-- An alarm unit derived stays so, and the slot is judged where SLOT_CLOSE has entered or left the set. -/
structure AlarmStepped (s t : State) : Prop where
  work : StartWork s t
  position : t.position = s.position
  escrow : t.escrow = s.escrow
  derived : AlarmDerived t
  slot : t.depository = s.slotJudged t.alarm.restriction

theorem AlarmFollows.stepped {s t : State} (h : AlarmFollows s t) (hd : AlarmDerived s) (hp : s.startUp.phase ≠ .ready) :
    AlarmStepped s t := by
  obtain ⟨dl, de, ds⟩ := hd
  rcases h with ⟨h, h1, h2⟩ | ⟨x, h, rfl⟩
  · refine ⟨h.work, h.position, h.escrow, ⟨?_, ?_, ?_⟩, ?_⟩
    · rw [h.level, dl, h1]
    · rw [h.restriction, de, h2]
    · rw [h.silent, ds, h2]
    · rw [h.restriction, slotJudged_self, h.depository]
  · have hx : x.startUp.phase ≠ .ready := by rw [h.work.startUp]; exact hp
    have k := recompute_spec x (fun _ _ => .inl hx)
    obtain ⟨kz, -, -⟩ := recompute_zones x
    obtain ⟨z1, z2⟩ := AlarmUnit.derived_of_zones _ _ kz
    refine ⟨h.work.trans (recompute_work x hx), ?_, ?_, ⟨?_, ?_, ?_⟩, ?_⟩
    · rw [k.rest]; exact h.position
    · rw [k.rest]; exact h.escrow
    · rw [k.level, z1]
    · rw [k.set, z2]
    · rw [k.silent, z2]
      split
      · rename_i e
        rw [h.silent, ds, ← de, ← h.restriction, e]
      · rfl
    · rw [recompute_slot x hx, k.set]
      simp only [State.slotJudged, State.restricted, h.restriction, h.depository, h.work.settings]
      rfl

end Sys2Proof.Machine
end

section
/-! A zone judged, activated or restored during start-up: what follows from it (R139, R142 to R144, R158). -/
namespace Sys2Proof.Machine

/-- A zone's record changed in nothing that the level and the set are made of. -/
theorem AlarmHeld.follows {z : Fin 16} {r : Zone} {s t : State} (h : AlarmHeld s t) (hz : ZonesAre (s.alarm.setZone z r) t)
    (hp : r.state.pending = (s.zone z).state.pending) (hl : r.state.latched = (s.zone z).state.latched)
    (hc : r.config = (s.zone z).config) : AlarmFollows s t := by
  obtain ⟨d1, d2⟩ := AlarmUnit.derived_setZone s.alarm z r (s.alarm.zone z) hp hl hc
  rw [AlarmUnit.setZone_same] at d1 d2
  obtain ⟨e1, e2⟩ := AlarmUnit.derived_of_zones _ _ hz.1
  exact .inl ⟨h, e1.trans d1, e2.trans d2⟩

theorem latch_follows (z : Fin 16) (port : Option Port) (entry : Bool) (s : State) : AlarmFollows s (latch z port entry s) := by
  refine .inr ⟨_, ?_, rfl⟩
  exact ((setZoneState_held z _ s).trans (onZone_held z _ _)).trans
    ((eventRecord_held _ _).trans ((soundFor_held z _).trans (reportHoldup_held z _)))

theorem activate_follows (z : Fin 16) (port : Option Port) (s : State) : AlarmFollows s (activate z port s) := by
  have hz := activate_zones z port s
  unfold activate at hz ⊢
  by_cases he : s.alarm.eligible z = true
  · rw [if_pos he] at hz ⊢
    cases hs : (s.zone z).state with
    | entryTiming | pendingActive | ackedActive => exact .refl s
    | pendingRestored => exact .inr ⟨_, (setZoneState_held z _ s).trans (soundFor_held z _), rfl⟩
    | quiet =>
      by_cases hd : (s.zone z).config.type = .intrusionDelayed ∧ s.alarm.armed = true
      · simp only [hs, if_pos hd, he, if_true, Zone.activated] at hz ⊢
        exact ((onZone_held z _ s).trans (setZoneState_held z _ _)).follows hz (by rw [hs]; rfl) (by rw [hs]; rfl) rfl
      · simp only [if_neg hd]
        exact latch_follows z port false s
  · rw [if_neg he]
    exact .refl s

theorem restore_follows (z : Fin 16) (s : State) : AlarmFollows s (restore z s) := by
  unfold restore
  cases (s.zone z).state with
  | pendingActive | ackedActive => exact .inr ⟨_, setZoneState_held z _ s, rfl⟩
  | entryTiming | quiet | pendingRestored => exact .refl s

/-- What follows a change of a zone's record that leaves its state and its configuration. -/
theorem AlarmFollows.after_mark {z : Fin 16} {r : Zone} {s x t : State} (h : AlarmFollows x t) (k : AlarmHeld s x)
    (hz : ZonesAre (s.alarm.setZone z r) x) (hs : r.state = (s.zone z).state) (hc : r.config = (s.zone z).config) :
    AlarmFollows s t := by
  rcases k.follows hz (by rw [hs]) (by rw [hs]) hc with ⟨-, h1, h2⟩ | ⟨y, -, e⟩
  · exact h.after k h1 h2
  · obtain ⟨d1, d2⟩ := AlarmUnit.derived_setZone s.alarm z r (s.alarm.zone z) (by rw [hs]; rfl) (by rw [hs]; rfl) hc
    rw [AlarmUnit.setZone_same] at d1 d2
    obtain ⟨e1, e2⟩ := AlarmUnit.derived_of_zones _ _ hz.1
    exact h.after k (e1.trans d1) (e2.trans d2)

theorem setInput_follows (z : Fin 16) (active : Bool) (s : State) : AlarmFollows s (setInput z active s) := by
  unfold setInput
  split
  · exact .refl s
  · have hz : ZonesAre (s.alarm.setZone z { s.zone z with inputActive := active })
        (onZone z (fun r => { r with inputActive := active }) s) := ⟨rfl, rfl, rfl⟩
    cases active
    · exact (restore_follows z _).after_mark (onZone_held z _ s) hz rfl rfl
    · exact (activate_follows z none _).after_mark (onZone_held z _ s) hz rfl rfl

theorem setTrouble_held (z : Fin 16) (mark : Bool) (s : State) : AlarmHeld s (setTrouble z mark s) := by
  unfold setTrouble
  dsimp only
  split
  · exact .refl s
  · split
    · exact ((onZone_held z _ s).trans (markChanged_held _)).trans (eventRecord_held _ _)
    · exact (onZone_held z _ s).trans (markChanged_held _)

theorem judgeReading_follows (z : Fin 16) (x : Reading) (s : State) : AlarmFollows s (judgeReading z x s) := by
  have h1 : ZonesAre (s.alarm.setZone z { s.zone z with reading := x }) (onZone z (fun r => { r with reading := x }) s) := ⟨rfl, rfl, rfl⟩
  have trouble (mark : Bool) : AlarmFollows s (setTrouble z mark (onZone z (fun r => { r with reading := x }) s)) := by
    have k := setTrouble_zones z mark (onZone z (fun r => { r with reading := x }) s)
    exact ((setTrouble_held z mark _).follows k rfl rfl rfl).after_mark (onZone_held z _ s) h1 rfl rfl
  have input (active : Bool) : AlarmFollows s (setInput z active (setTrouble z false (onZone z (fun r => { r with reading := x }) s))) := by
    have k := setTrouble_zones z false (onZone z (fun r => { r with reading := x }) s)
    refine AlarmFollows.after_mark ?_ (onZone_held z _ s) h1 rfl rfl
    exact (setInput_follows z active _).after_mark (setTrouble_held z false _) k rfl rfl
  unfold judgeReading
  cases x with
  | normal => exact input false
  | active => exact input true
  | open_ | short =>
    dsimp only
    split
    · exact input true
    · exact trouble true

end Sys2Proof.Machine
end

section
/-! The zones worked on one after the other during start-up, SLOT_CLOSE entering or leaving the set in one direction (R118, R158). -/
namespace Sys2Proof.Machine

/-- An effect is in the set that the zones give where a latched zone has it (R153). -/
theorem AlarmUnit.latchedEffects_has (u : AlarmUnit) (e : Effect) :
    Effects.has u.latchedEffects e = true ↔ ∃ z, (u.zone z).state.latched = true ∧ Effects.has (u.zone z).config.effects e = true := by
  have fold (l : List (Fin 16)) (a : Effects) :
      Effects.has (l.foldl (fun e z => if (u.zone z).state.latched then e ||| (u.zone z).config.effects else e) a) e = true ↔
        Effects.has a e = true ∨
          ∃ z ∈ l, (u.zone z).state.latched = true ∧ Effects.has (u.zone z).config.effects e = true := by
    induction l generalizing a with
    | nil => simp
    | cons z l ih =>
      rw [List.foldl_cons, ih]
      cases h : (u.zone z).state.latched <;> simp [h, Effects.has, or_assoc]
  have all (z : Fin 16) : z ∈ allZones := by decide +revert
  unfold AlarmUnit.latchedEffects
  rw [fold]
  have hz : Effects.has (0#6) e = false := by simp [Effects.has]
  simp [hz, all]

/-- A zone's record changed in its state: an effect enters or leaves the set as the zone latches or goes. -/
theorem AlarmUnit.latchedEffects_setZone (dir : Bool) (u : AlarmUnit) (z : Fin 16) (r : Zone) (e : Effect)
    (hl : r.state.latched = (u.zone z).state.latched ∨ r.state.latched = dir) (hc : r.config = (u.zone z).config) :
    Effects.has (u.setZone z r).latchedEffects e = Effects.has u.latchedEffects e ∨
      Effects.has (u.setZone z r).latchedEffects e = dir := by
  have self : (u.setZone z r).zone z = r := AlarmUnit.zone_setZone_self u z r
  have other (y : Fin 16) (h : y ≠ z) : (u.setZone z r).zone y = u.zone y := AlarmUnit.zone_setZone_other u z y r h
  have up := AlarmUnit.latchedEffects_has u e
  have up' := AlarmUnit.latchedEffects_has (u.setZone z r) e
  cases dir
  · by_cases h : Effects.has (u.setZone z r).latchedEffects e = true
    · obtain ⟨y, h1, h2⟩ := up'.mp h
      refine .inl (h.trans (Eq.symm (up.mpr ?_)))
      by_cases hy : y = z
      · subst hy
        rw [self] at h1 h2
        exact ⟨y, by rw [← hl.resolve_right (by simp [h1])]; exact h1, by rw [← hc]; exact h2⟩
      · rw [other y hy] at h1 h2
        exact ⟨y, h1, h2⟩
    · exact .inr (by simpa using h)
  · by_cases h : Effects.has u.latchedEffects e = true
    · obtain ⟨y, h1, h2⟩ := up.mp h
      refine .inr (up'.mpr ?_)
      by_cases hy : y = z
      · subst hy
        exact ⟨y, by rw [self]; exact hl.elim (fun k => k.trans h1) id, by rw [self, hc]; exact h2⟩
      · exact ⟨y, by rw [other y hy]; exact h1, by rw [other y hy]; exact h2⟩
    · by_cases h' : Effects.has (u.setZone z r).latchedEffects e = true
      · exact .inr h'
      · exact .inl (by rw [Bool.not_eq_true] at h h'; rw [h, h'])

/-- Steps of the alarm unit in which SLOT_CLOSE may have entered the set (`dir` true) or left it (`dir` false), but not both. -/
structure AlarmTurned (dir : Bool) (s t : State) : Prop where
  work : StartWork s t
  derived : AlarmDerived t
  turn : t.restricted .slotClose = s.restricted .slotClose ∨ t.restricted .slotClose = dir
  slot : t.depository = s.slotJudged t.alarm.restriction

theorem slotJudged_congr {s x : State} {a b : Effects} (hd : x.depository = s.depository) (hs : x.settings = s.settings)
    (hr : x.restricted .slotClose = s.restricted .slotClose) (hab : Effects.has a .slotClose = Effects.has b .slotClose) :
    x.slotJudged a = s.slotJudged b := by
  unfold State.slotJudged
  rw [hd, hs, hr, hab]

theorem slotJudged_same {s : State} {a : Effects} (h : Effects.has a .slotClose = s.restricted .slotClose) :
    s.slotJudged a = s.depository := if_neg (not_not_intro h)

theorem AlarmTurned.refl (dir : Bool) {s : State} (h : AlarmDerived s) : AlarmTurned dir s s :=
  ⟨.refl s, h, .inl rfl, (slotJudged_self s).symm⟩

theorem AlarmTurned.trans {dir : Bool} {s t u : State} (h : AlarmTurned dir s t) (k : AlarmTurned dir t u) : AlarmTurned dir s u := by
  refine ⟨h.work.trans k.work, k.derived, ?_, ?_⟩
  · rcases k.turn with e | e
    · rw [e]; exact h.turn
    · exact .inr e
  · by_cases e : t.restricted .slotClose = s.restricted .slotClose
    · have hd : t.depository = s.depository := by rw [h.slot]; exact slotJudged_same e
      rw [k.slot]
      exact slotJudged_congr hd h.work.settings e rfl
    · have ht := h.turn.resolve_left e
      have hu : u.restricted .slotClose = t.restricted .slotClose := by
        rcases k.turn with e' | e'
        · exact e'
        · rw [e', ht]
      rw [k.slot, slotJudged_same (s := t) hu, h.slot]
      exact slotJudged_congr rfl rfl rfl hu.symm

theorem AlarmDerived.restricted {s : State} (h : AlarmDerived s) (e : Effect) :
    s.restricted e = Effects.has s.alarm.latchedEffects e := by
  unfold State.restricted; rw [h.2.1]

/-- The position and the escrow record stand as they were. -/
abbrev AlarmOnly (s t : State) : Prop := t.position = s.position ∧ t.escrow = s.escrow

theorem AlarmOnly.trans {s t u : State} (h : AlarmOnly s t) (k : AlarmOnly t u) : AlarmOnly s u :=
  ⟨k.1.trans h.1, k.2.trans h.2⟩

/-- One zone worked on. -/
theorem AlarmFollows.turned {dir : Bool} {z : Fin 16} {r : Zone} {s t : State} (h : AlarmFollows s t) (hd : AlarmDerived s)
    (hp : s.startUp.phase ≠ .ready) (hz : ZonesAre (s.alarm.setZone z r) t)
    (hl : r.state.latched = (s.zone z).state.latched ∨ r.state.latched = dir) (hc : r.config = (s.zone z).config) :
    AlarmTurned dir s t ∧ AlarmOnly s t := by
  have k := h.stepped hd hp
  refine ⟨⟨k.work, k.derived, ?_, k.slot⟩, k.position, k.escrow⟩
  rw [k.derived.restricted, hd.restricted, (AlarmUnit.derived_of_zones _ _ hz.1).2]
  exact AlarmUnit.latchedEffects_setZone dir s.alarm z r .slotClose hl hc

/-- The zones are those given, and the arm state and the monitor timer stand. -/
structure ZonesTurned (dir : Bool) (F : Fin 16 → Zone) (s t : State) : Prop where
  turned : AlarmTurned dir s t
  only : AlarmOnly s t
  armed : t.alarm.armed = s.alarm.armed
  monitor : t.alarm.monitorTimer = s.alarm.monitorTimer
  zones : ∀ z, t.zone z = F z

/-- Zones worked on one after the other, each from its own record alone. -/
theorem zones_turn (dir : Bool) (f : Fin 16 → State → State) (F : Fin 16 → Zone) (s : State) (hd : AlarmDerived s)
    (hp : s.startUp.phase ≠ .ready)
    (step : ∀ z x, StartWork s x → x.alarm.armed = s.alarm.armed → x.zone z = s.zone z →
      AlarmFollows x (f z x) ∧ ZonesAre (x.alarm.setZone z (F z)) (f z x))
    (hl : ∀ z, (F z).state.latched = (s.zone z).state.latched ∨ (F z).state.latched = dir)
    (hc : ∀ z, (F z).config = (s.zone z).config) :
    ZonesTurned dir F s (allZones.foldl (fun x z => f z x) s) := by
  have fold (l : List (Fin 16)) (x : State) (hn : l.Nodup) (hx : AlarmTurned dir s x) (ho : AlarmOnly s x)
      (ha : x.alarm.armed = s.alarm.armed)
      (hm : x.alarm.monitorTimer = s.alarm.monitorTimer) (hz : ∀ y ∈ l, x.zone y = s.zone y) :
      let t := l.foldl (fun x z => f z x) x
      AlarmTurned dir s t ∧ AlarmOnly s t ∧ t.alarm.armed = s.alarm.armed ∧ t.alarm.monitorTimer = s.alarm.monitorTimer ∧
        ∀ y, t.zone y = if y ∈ l then F y else x.zone y := by
    induction l generalizing x with
    | nil => exact ⟨hx, ho, ha, hm, by simp⟩
    | cons z l ih =>
      have hxz := hz z (by simp)
      obtain ⟨h1, h2⟩ := step z x hx.work ha hxz
      have hpx : x.startUp.phase ≠ .ready := by rw [hx.work.startUp]; exact hp
      obtain ⟨k, ko⟩ := h1.turned (dir := dir) hx.derived hpx h2 (by rw [hxz]; exact hl z) (by rw [hxz]; exact hc z)
      obtain ⟨hzl, hn⟩ := List.nodup_cons.mp hn
      have h3 (y : Fin 16) (hy : y ∈ l) : (f z x).zone y = s.zone y := by
        rw [h2.other (fun e => hzl (e ▸ hy))]
        exact hz y (by simp [hy])
      obtain ⟨t1, t0, t2, t3, t4⟩ := ih (f z x) hn (hx.trans k) (ho.trans ko) (h2.2.1.trans ha) (h2.2.2.trans hm) h3
      refine ⟨t1, t0, t2, t3, fun y => ?_⟩
      rw [List.foldl_cons, t4 y]
      by_cases hy : y = z
      · subst hy
        rw [if_neg hzl, if_pos (by simp), h2.zone]
      · simp only [List.mem_cons, hy, false_or]
        split
        · rfl
        · exact h2.other hy
  have all (z : Fin 16) : z ∈ allZones := by decide +revert
  obtain ⟨t1, t0, t2, t3, t4⟩ := fold allZones s (by decide) (.refl dir hd) ⟨rfl, rfl⟩ rfl rfl (fun _ _ => rfl)
  exact ⟨t1, t0, t2, t3, fun z => by rw [t4 z, if_pos (all z)]⟩

end Sys2Proof.Machine
end

section
/-! The alarm unit's start-up steps: the entry timers, the loops judged, the kept zones restored (R158). -/
namespace Sys2Proof.Machine

/-! ## The zones as the start-up steps leave them, one step after the other -/

/-- A zone found in ENTRY_TIMING has its timer started afresh. -/
def State.zoneTimed (s : State) (z : Fin 16) : Zone :=
  if (s.zone z).atReset.state = .entryTiming then { (s.zone z).atReset with entryTimer := some s.settings.entryDelay }
  else (s.zone z).atReset

/-- An activation of a zone, where it is eligible. -/
def State.zoneActivated (s : State) (z : Fin 16) (r : Zone) : Zone :=
  if s.alarm.eligible z then r.activated s.alarm.armed s.settings.entryDelay s.clock.count none else r

/-- A zone's first reading judged. -/
def State.zoneRead (s : State) (z : Fin 16) (reading : Reading) : Zone :=
  let read : Zone := { s.zoneTimed z with reading := reading }
  if reading = .normal then read
  else if reading = .active ∨
      ((reading = .open_ ∨ reading = .short) ∧
        ((s.zone z).atReset.config.type = .tamper ∨ (s.zone z).atReset.config.type = .attack)) then
    s.zoneActivated z { read with inputActive := true }
  else { read with trouble := (s.zone z).atReset.config.enabled }

/-- A wired zone's first reading judged. -/
def State.zoneJudged (s : State) (z : Fin 16) : Zone :=
  if wires : z.val < 14 then s.zoneRead z (s.pins.loops.get ⟨z.val, wires⟩) else s.zoneTimed z

/-- A zone kept latched whose input is NORMAL, restored. -/
def State.zoneRestored (s : State) (z : Fin 16) : Zone :=
  if ((s.zone z).atReset.state = .pendingActive ∨ (s.zone z).atReset.state = .ackedActive) ∧ (s.zoneJudged z).inputActive = false then
    (s.zoneJudged z).restored
  else s.zoneJudged z

/-- A cassette found gone that was not RELEASED. -/
def State.foundTorn (s : State) : Bool :=
  Ix.all.any (fun k => s.foundGone k && (s.position.cassettes.get k).state != .released)

theorem zoneStarted_eq (s : State) (z : Fin 16) :
    s.zoneStarted z =
      if z = 3 ∧ s.foundTorn = true ∧ (s.zoneRestored z).inputActive = false then (s.zoneActivated z (s.zoneRestored z)).restored
      else s.zoneRestored z := rfl

theorem Zone.activated_kept (r : Zone) (armed : Bool) (delay : Nat) (now : Word32) (port : Option Port) :
    (r.activated armed delay now port).config = r.config ∧ (r.activated armed delay now port).bypassed = r.bypassed ∧
      (r.activated armed delay now port).inputActive = r.inputActive ∧
      (r.state.latched = true → (r.activated armed delay now port).state.latched = true) := by
  unfold Zone.activated
  cases h : r.state with
  | quiet =>
    dsimp only
    split <;> simp [ZoneState.latched]
  | entryTiming | pendingActive | ackedActive | pendingRestored => simp [h, ZoneState.latched]

theorem Zone.restored_kept (r : Zone) :
    r.restored.config = r.config ∧ r.restored.bypassed = r.bypassed ∧ r.restored.inputActive = r.inputActive ∧
      (r.state.latched = false → r.restored.state.latched = false) := by
  unfold Zone.restored
  cases h : r.state <;> simp [h, ZoneState.latched]

theorem State.zoneActivated_kept (s : State) (z : Fin 16) (r : Zone) :
    (s.zoneActivated z r).config = r.config ∧ (s.zoneActivated z r).bypassed = r.bypassed ∧
      (s.zoneActivated z r).inputActive = r.inputActive ∧
      (r.state.latched = true → (s.zoneActivated z r).state.latched = true) := by
  unfold State.zoneActivated
  split
  · exact Zone.activated_kept r _ _ _ _
  · exact ⟨rfl, rfl, rfl, id⟩

theorem State.zoneTimed_kept (s : State) (z : Fin 16) :
    (s.zoneTimed z).config = (s.zone z).config ∧ (s.zoneTimed z).bypassed = (s.zone z).bypassed ∧
      (s.zoneTimed z).inputActive = false ∧ (s.zoneTimed z).trouble = false ∧ (s.zoneTimed z).state = (s.zone z).state := by
  unfold State.zoneTimed
  split <;> exact ⟨rfl, rfl, rfl, rfl, rfl⟩

theorem State.zoneRead_kept (s : State) (z : Fin 16) (reading : Reading) :
    (s.zoneRead z reading).config = (s.zone z).config ∧ (s.zoneRead z reading).bypassed = (s.zone z).bypassed ∧
      ((s.zone z).state.latched = true → (s.zoneRead z reading).state.latched = true) := by
  obtain ⟨t1, t2, -, -, t5⟩ := s.zoneTimed_kept z
  unfold State.zoneRead
  dsimp only
  split
  · exact ⟨t1, t2, fun h => by rw [t5]; exact h⟩
  · split
    · obtain ⟨a1, a2, -, a4⟩ := s.zoneActivated_kept z { s.zoneTimed z with reading := reading, inputActive := true }
      exact ⟨a1.trans t1, a2.trans t2, fun h => a4 (by rw [t5]; exact h)⟩
    · exact ⟨t1, t2, fun h => by rw [t5]; exact h⟩

theorem State.zoneJudged_kept (s : State) (z : Fin 16) :
    (s.zoneJudged z).config = (s.zone z).config ∧ (s.zoneJudged z).bypassed = (s.zone z).bypassed ∧
      ((s.zone z).state.latched = true → (s.zoneJudged z).state.latched = true) := by
  obtain ⟨t1, t2, -, -, t5⟩ := s.zoneTimed_kept z
  unfold State.zoneJudged
  split
  · exact s.zoneRead_kept z _
  · exact ⟨t1, t2, fun h => by rw [t5]; exact h⟩

/-! ## The steps -/

/-- Start-up works on the zones that s has, as the reset leaves them. -/
structure StartsFrom (s x : State) : Prop where
  settings : x.settings = s.settings
  clock : x.clock = s.clock
  pins : x.pins = s.pins
  armed : x.alarm.armed = s.alarm.armed
  zones : ∀ z, x.zone z = (s.zone z).atReset
  derived : AlarmDerived x
  phase : x.startUp.phase ≠ .ready

theorem eligible_of {s x : State} {z : Fin 16} (ha : x.alarm.armed = s.alarm.armed) (hc : (x.zone z).config = (s.zone z).config)
    (hb : (x.zone z).bypassed = (s.zone z).bypassed) : x.alarm.eligible z = s.alarm.eligible z := by
  unfold AlarmUnit.eligible
  rw [ha, show (x.alarm.zone z).config = (s.alarm.zone z).config from hc,
    show (x.alarm.zone z).bypassed = (s.alarm.zone z).bypassed from hb]

theorem restartEntryTimers_turned {s x : State} (h : StartsFrom s x) : ZonesTurned true s.zoneTimed x (restartEntryTimers x) := by
  refine zones_turn true _ _ x h.derived h.phase (fun z y hy _ hz => ?_) (fun z => ?_) (fun z => ?_)
  · rw [hz, h.zones z, hy.settings, h.settings]
    unfold State.zoneTimed
    by_cases c : (s.zone z).atReset.state = .entryTiming
    · rw [if_pos c, if_pos c]
      have hzz : ZonesAre (y.alarm.setZone z { (s.zone z).atReset with entryTimer := some s.settings.entryDelay })
          (onZone z (fun r => { r with entryTimer := some s.settings.entryDelay }) y) := by
        have e : y.alarm.zone z = (s.zone z).atReset := hz.trans (h.zones z)
        exact ⟨by simp [onZone, e], rfl, rfl⟩
      have hzr : (y.zone z) = (s.zone z).atReset := hz.trans (h.zones z)
      exact ⟨(onZone_held z _ y).follows hzz (by rw [hzr]) (by rw [hzr]) (by rw [hzr]), hzz⟩
    · rw [if_neg c, if_neg c]
      have e : y.alarm.setZone z (s.zone z).atReset = y.alarm := by
        rw [← h.zones z, ← hz]; exact AlarmUnit.setZone_same _ _
      exact ⟨.refl y, by rw [e]; exact ⟨rfl, rfl, rfl⟩⟩
  · rw [h.zones z, (s.zoneTimed_kept z).2.2.2.2]
    exact .inl rfl
  · rw [h.zones z, (s.zoneTimed_kept z).1]
    rfl

/-- A first reading judged, of a zone whose input is NORMAL, without trouble. -/
theorem judgeReading_read {s y : State} {z : Fin 16} (reading : Reading) (hs : y.settings = s.settings) (hc : y.clock = s.clock)
    (ha : y.alarm.armed = s.alarm.armed) (hz : y.zone z = s.zoneTimed z) :
    ZonesAre (y.alarm.setZone z (s.zoneRead z reading)) (judgeReading z reading y) := by
  obtain ⟨t1, t2, t3, t4, -⟩ := s.zoneTimed_kept z
  have k := judgeReading_zones z reading y
  have he : y.alarm.eligible z = s.alarm.eligible z := eligible_of ha (by rw [hz, t1]) (by rw [hz, t2])
  have hcut : (s.zoneTimed z).config.type.cutActivates = true ↔
      ((s.zone z).atReset.config.type = .tamper ∨ (s.zone z).atReset.config.type = .attack) := by
    rw [t1]
    simp only [Zone.atReset]
    cases (s.zone z).config.type <;> simp [ZoneType.cutActivates]
  have hen : (s.zone z).atReset.config.enabled = (s.zoneTimed z).config.enabled := by rw [t1]; rfl
  simp only [hz, hs, hc, ha, he, t3, t4, ite_self, Bool.false_eq_true, if_false, if_true] at k
  unfold State.zoneRead State.zoneActivated
  simp only [hen, t3, t4]
  cases reading with
  | normal => simpa using k
  | active => simpa using k
  | open_ | short =>
    by_cases c : (s.zoneTimed z).config.type.cutActivates = true
    · simpa [c, hcut.mp c] using k
    · simpa [c, mt hcut.mpr c] using k

/-- The first reading of one zone's loop judged, where it has one. -/
def judgeLoop (z : Fin 16) (x : State) : State :=
  if wires : z.val < 14 then judgeReading z (x.pins.loops.get ⟨z.val, wires⟩) x else x

theorem judgeLoops_eq (x : State) : judgeLoops x = allZones.foldl (fun x z => judgeLoop z x) x := by
  have hall : allZones = wiredZones.map wired ++ [14, 15] := by decide
  have hno (y : State) : [14, 15].foldl (fun x z => judgeLoop z x) y = y := rfl
  have hyes (y : State) (z : Fin 14) : judgeLoop (wired z) y = judgeReading (wired z) (y.pins.loops.get z) y := dif_pos z.isLt
  rw [hall, List.foldl_append, hno, List.foldl_map]
  simp only [hyes]
  rfl

/-- The loops are judged, where the entry timers have been started. -/
theorem judgeLoops_turned {s x : State} (hs : x.settings = s.settings) (hc : x.clock = s.clock) (hpins : x.pins = s.pins)
    (ha : x.alarm.armed = s.alarm.armed) (hz : ∀ z, x.zone z = s.zoneTimed z) (hd : AlarmDerived x)
    (hp : x.startUp.phase ≠ .ready) : ZonesTurned true s.zoneJudged x (judgeLoops x) := by
  rw [judgeLoops_eq]
  refine zones_turn true judgeLoop _ x hd hp (fun z y hy hya hyz => ?_) (fun z => ?_) (fun z => ?_)
  · have hyt : y.zone z = s.zoneTimed z := hyz.trans (hz z)
    unfold judgeLoop State.zoneJudged
    by_cases c : z.val < 14
    · rw [dif_pos c, dif_pos c, hy.pins, hpins]
      exact ⟨judgeReading_follows z _ y,
        judgeReading_read _ (hy.settings.trans hs) (hy.clock.trans hc) (hya.trans ha) hyt⟩
    · rw [dif_neg c, dif_neg c]
      refine ⟨.refl y, ?_⟩
      have e : y.alarm.setZone z (s.zoneTimed z) = y.alarm := by rw [← hyt]; exact AlarmUnit.setZone_same _ _
      rw [e]
      exact ⟨rfl, rfl, rfl⟩
  · rw [hz z, (s.zoneTimed_kept z).2.2.2.2]
    cases h : (s.zone z).state.latched
    · cases h' : (s.zoneJudged z).state.latched
      · exact .inl rfl
      · exact .inr rfl
    · exact .inl ((s.zoneJudged_kept z).2.2 h)
  · rw [hz z, (s.zoneJudged_kept z).1, (s.zoneTimed_kept z).1]

/-- A zone kept latched whose input is NORMAL is restored. -/
def restoreOne (kept : Fin 16 → Bool) (z : Fin 16) (x : State) : State :=
  if kept z && !(x.zone z).inputActive then restore z x else x

/-- The zones kept latched are restored, where the loops have been judged. -/
theorem restoreKept_turned {s x : State} (kept : Fin 16 → Bool)
    (hk : ∀ z, kept z = true ↔ ((s.zone z).atReset.state = .pendingActive ∨ (s.zone z).atReset.state = .ackedActive))
    (hz : ∀ z, x.zone z = s.zoneJudged z) (hd : AlarmDerived x)
    (hp : x.startUp.phase ≠ .ready) : ZonesTurned false s.zoneRestored x (restoreKept kept x) := by
  have he : restoreKept kept x = allZones.foldl (fun x z => restoreOne kept z x) x := rfl
  rw [he]
  refine zones_turn false (restoreOne kept) _ x hd hp (fun z y hy hya hyz => ?_) (fun z => ?_) (fun z => ?_)
  · have hyt : y.zone z = s.zoneJudged z := hyz.trans (hz z)
    unfold restoreOne State.zoneRestored
    rw [hyt]
    by_cases c : kept z = true ∧ (s.zoneJudged z).inputActive = false
    · rw [if_pos (by simp [c]), if_pos ⟨(hk z).mp c.1, c.2⟩]
      refine ⟨restore_follows z y, ?_⟩
      have k := restore_zones z y
      rwa [hyt] at k
    · have hn : ¬(((s.zone z).atReset.state = .pendingActive ∨ (s.zone z).atReset.state = .ackedActive) ∧
          (s.zoneJudged z).inputActive = false) := fun h => c ⟨(hk z).mpr h.1, h.2⟩
      rw [if_neg (by simpa using c), if_neg hn]
      refine ⟨.refl y, ?_⟩
      have e : y.alarm.setZone z (s.zoneJudged z) = y.alarm := by rw [← hyt]; exact AlarmUnit.setZone_same _ _
      rw [e]
      exact ⟨rfl, rfl, rfl⟩
  · rw [hz z]
    unfold State.zoneRestored
    split
    · cases h : (s.zoneJudged z).state.latched
      · exact .inr ((Zone.restored_kept _).2.2.2 h)
      · cases h' : (s.zoneJudged z).restored.state.latched
        · exact .inr rfl
        · exact .inl rfl
    · exact .inl rfl
  · rw [hz z]
    unfold State.zoneRestored
    split
    · exact (Zone.restored_kept _).1
    · rfl

end Sys2Proof.Machine
end

section
/-! The alarm unit's start-up steps together (R118, R158). -/
namespace Sys2Proof.Machine

/-- The alarm unit as its start-up steps leave it: SLOT_CLOSE has moved in one direction at most, away from what it was. -/
structure AlarmStarted (s x t : State) : Prop where
  turned : AlarmTurned (!x.restricted .slotClose) x t
  only : AlarmOnly x t
  armed : t.alarm.armed = x.alarm.armed
  monitor : t.alarm.monitorTimer = some Config.monitorTime
  zones : ∀ z, t.zone z = s.zoneRestored z

/-- A zone latched by the judging is not restored. -/
theorem State.zoneRestored_of_latched (s : State) (z : Fin 16) (h : (s.zone z).state.latched = false) :
    s.zoneRestored z = s.zoneJudged z := by
  unfold State.zoneRestored
  refine if_neg fun ⟨hs, _⟩ => ?_
  have e : (s.zone z).atReset.state = (s.zone z).state := rfl
  rw [e] at hs
  rcases hs with hs | hs <;> simp [hs, ZoneState.latched] at h

theorem State.zoneRestored_kept (s : State) (z : Fin 16) :
    (s.zoneRestored z).config = (s.zone z).config ∧ (s.zoneRestored z).bypassed = (s.zone z).bypassed := by
  obtain ⟨j1, j2, -⟩ := s.zoneJudged_kept z
  unfold State.zoneRestored
  split
  · obtain ⟨r1, r2, -⟩ := Zone.restored_kept (s.zoneJudged z)
    exact ⟨r1.trans j1, r2.trans j2⟩
  · exact ⟨j1, j2⟩

/-- SLOT_CLOSE, out of the set when the reset came, does not leave it again in the restores. -/
theorem restores_keep_slotClose {s x m t : State} (hx : AlarmDerived x) (hm : AlarmDerived m) (ht : AlarmDerived t)
    (hxz : ∀ z, (x.zone z).state = (s.zone z).state ∧ (x.zone z).config = (s.zone z).config)
    (hmz : ∀ z, m.zone z = s.zoneJudged z) (htz : ∀ z, t.zone z = s.zoneRestored z)
    (h0 : x.restricted .slotClose = false) (h1 : m.restricted .slotClose = true) : t.restricted .slotClose = true := by
  rw [hm.restricted, AlarmUnit.latchedEffects_has] at h1
  obtain ⟨z, hl, he⟩ := h1
  have hmz' : m.alarm.zone z = s.zoneJudged z := hmz z
  rw [hmz'] at hl he
  have hs : (s.zone z).state.latched = false := by
    rw [hx.restricted] at h0
    by_contra hn
    have h2 : Effects.has x.alarm.latchedEffects .slotClose = true := by
      rw [AlarmUnit.latchedEffects_has]
      refine ⟨z, ?_, ?_⟩
      · rw [show (x.alarm.zone z).state = (s.zone z).state from (hxz z).1]
        simpa using hn
      · rw [show (x.alarm.zone z).config = (s.zone z).config from (hxz z).2, ← (s.zoneJudged_kept z).1]
        exact he
    rw [h0] at h2
    exact absurd h2 (by decide)
  rw [ht.restricted, AlarmUnit.latchedEffects_has]
  have htz' : t.alarm.zone z = s.zoneJudged z := (htz z).trans (s.zoneRestored_of_latched z hs)
  exact ⟨z, by rw [htz']; exact hl, by rw [htz']; exact he⟩

/-- The monitor timer is no part of what follows from the zones. -/
theorem AlarmTurned.monitored {dir : Bool} {s t : State} (h : AlarmTurned dir s t) (n : Option Nat) :
    AlarmTurned dir s (t.onAlarm fun u => { u with monitorTimer := n }) :=
  ⟨h.work.trans (.of_same rfl), h.derived, h.turn, h.slot⟩

/-- Steps that leave SLOT_CLOSE as it is turn in either direction. -/
theorem AlarmTurned.of_same {dir dir' : Bool} {s t : State} (h : AlarmTurned dir s t)
    (hs : t.restricted .slotClose = s.restricted .slotClose) : AlarmTurned dir' s t := ⟨h.work, h.derived, .inl hs, h.slot⟩

/-- Steps up and then down, where what has come up stays. -/
theorem AlarmTurned.up_down {s m t : State} (up : AlarmTurned true s m) (down : AlarmTurned false m t)
    (stays : s.restricted .slotClose = false → m.restricted .slotClose = true → t.restricted .slotClose = true) :
    AlarmTurned (!s.restricted .slotClose) s t := by
  cases h : s.restricted .slotClose
  · refine up.trans (down.of_same ?_)
    cases hm : m.restricted .slotClose
    · rcases down.turn with e | e
      · rw [e, hm]
      · exact e
    · exact stays h hm
  · refine (up.of_same ?_).trans down
    rcases up.turn with e | e
    · exact e
    · rw [e, h]

theorem alarmStart_started {s x : State} (h : StartsFrom s x) : AlarmStarted s x (alarmStart x) := by
  have a := restartEntryTimers_turned h
  have hpa : (restartEntryTimers x).startUp.phase ≠ .ready := by rw [a.turned.work.startUp]; exact h.phase
  have b := judgeLoops_turned (a.turned.work.settings.trans h.settings) (a.turned.work.clock.trans h.clock)
    (a.turned.work.pins.trans h.pins) (a.armed.trans h.armed) a.zones a.turned.derived hpa
  have hpb : (judgeLoops (restartEntryTimers x)).startUp.phase ≠ .ready := by rw [b.turned.work.startUp]; exact hpa
  have c := restoreKept_turned (s := s) x.keptActive (fun z => by
    unfold State.keptActive
    rw [h.zones z]
    simp) b.zones b.turned.derived hpb
  have stays := restores_keep_slotClose h.derived b.turned.derived c.turned.derived
    (fun z => by rw [h.zones z]; exact ⟨rfl, rfl⟩) b.zones c.zones
  exact ⟨((a.turned.trans b.turned).up_down c.turned stays).monitored _, (a.only.trans b.only).trans c.only,
    c.armed.trans (b.armed.trans a.armed), rfl, c.zones⟩

end Sys2Proof.Machine
end

section
/-! One cassette-present sensor read during start-up (R20, R22, R23, R26, R198). -/
namespace Sys2Proof.Machine

/-! ## Zone 3 raised momentarily (R142) -/

/-- A momentary raise of a zone that was not acknowledged: SLOT_CLOSE may enter the set, and does not leave it. -/
theorem momentary_turned (z : Fin 16) (s : State) (hd : AlarmDerived s) (hp : s.startUp.phase ≠ .ready)
    (hn : (s.zone z).inputActive = false → (s.zone z).state ≠ .ackedActive) :
    AlarmTurned true s (momentary z none s) ∧ AlarmOnly s (momentary z none s) := by
  unfold momentary
  by_cases hi : (s.zone z).inputActive = true
  · rw [if_pos hi]
    exact ⟨.refl true hd, rfl, rfl⟩
  rw [if_neg hi]
  have hack := hn (by simpa using hi)
  have az := activate_zones z none s
  have af := activate_follows z none s
  generalize activate z none s = x at az af
  have hxz : x.zone z = s.zoneActivated z (s.zone z) := az.zone
  obtain ⟨c1, -, -, c4⟩ := s.zoneActivated_kept z (s.zone z)
  obtain ⟨t1, o1⟩ := af.turned (dir := true) hd hp az (by
    cases h : (s.zone z).state.latched
    · cases h' : (s.zoneActivated z (s.zone z)).state.latched
      · exact .inl h'
      · exact .inr h'
    · exact .inl (c4 h)) c1
  have hpx : x.startUp.phase ≠ .ready := by rw [t1.work.startUp]; exact hp
  have hres : (x.zone z).restored.state.latched = (x.zone z).state.latched := by
    have hnack : (x.zone z).state ≠ .ackedActive := by
      rw [hxz]
      unfold State.zoneActivated
      split
      · unfold Zone.activated
        cases h : (s.zone z).state with
        | quiet => dsimp only; split <;> simp
        | pendingRestored => simp
        | entryTiming | pendingActive => simp [h]
        | ackedActive => exact absurd h hack
      · exact hack
    unfold Zone.restored
    cases h : (x.zone z).state with
    | ackedActive => exact absurd h hnack
    | pendingActive => rfl
    | quiet | entryTiming | pendingRestored => simp [h]
  obtain ⟨t2, o2⟩ := (restore_follows z x).turned (dir := true) t1.derived hpx (restore_zones z x) (.inl hres) (Zone.restored_kept _).1
  exact ⟨t1.trans t2, o1.trans o2⟩

/-! ## One sensor read -/

/-- A cassette found gone was RELEASED, or it was not. -/
def State.foundFreed (s : State) (k : Ix) : Bool := s.foundGone k && (s.position.cassettes.get k).state == .released
def State.foundTornAt (s : State) (k : Ix) : Bool := s.foundGone k && (s.position.cassettes.get k).state != .released

/-- A record read whose check word fails. -/
def State.foundFailed (s : State) (k : Ix) : Bool :=
  !(s.position.cassettes.get k).intact && (s.pins.cassettePresent.get k || s.foundGone k)

/-- A cassette's record once its sensor has been read. -/
def State.sensedCassette (s : State) (k : Ix) : Cassette :=
  let c := s.position.cassettes.get k
  if s.foundGone k then { c with counts := Quad.zero, state := .absent, pickFailed := false, intact := true }
  else if s.pins.cassettePresent.get k = true ∧ c.state = .absent then
    { c with counts := Quad.zero, state := .uncounted, pickFailed := false, intact := true }
  else c

/-- What the store books as one sensor is read, before zone 3 is raised. -/
structure SensorBooked (k : Ix) (s t : State) : Prop where
  work : StartWork s t
  escrow : t.escrow = if s.foundGone k then s.escrow.lostAt k else s.escrow
  position : t.position =
    { s.position with
      cassettes := s.position.cassettes.set k (s.sensedCassette k)
      discrepancy :=
        if s.foundTornAt k then Quad.zip (fun (a : Int) (n : Nat) => a + n) s.position.discrepancy (s.position.cassettes.get k).counts
        else s.position.discrepancy
      flows :=
        { s.position.flows with
          unloaded :=
            if s.foundFreed k then Quad.add s.position.flows.unloaded (s.position.cassettes.get k).counts
            else s.position.flows.unloaded }
      generation := if s.foundGone k then s.position.generation + 1 else s.position.generation
      causes :=
        { s.position.causes with
          unauthorisedRemoval := s.position.causes.unauthorisedRemoval || s.foundTornAt k
          integrity := s.position.causes.integrity || s.foundFailed k }
      integrityFault :=
        if s.foundFailed k then some (s.position.integrityFault.getD ⟨.cassette k, s.clock.count⟩) else s.position.integrityFault
      lastApplied := t.position.lastApplied }
  applied : s.foundGone k = false → t.position.lastApplied = s.position.lastApplied
  alarm : t.alarm = s.alarm
  depository : t.depository = s.depository

/-- One sensor read: what the store books, and zone 3 raised for a cassette torn out (R22, R142). -/
def SensorRead (k : Ix) (s t : State) : Prop :=
  ∃ b : State, SensorBooked k s b ∧ t = if s.foundTornAt k then momentary 3 none b else b

theorem writeCassetteAs_work (k : Ix) (c : Cassette) (s : State) : StartWork s (writeCassetteAs k c s) :=
  (writeCassetteAs_only k c s).work (by simp only [writeCassetteAs_keeps]; exact s.journal.grown_refl)
      ((tells_writeCassetteAs k c s).mono (by simp))

theorem addCause_work (c : AuditCause) (s : State) : StartWork s (addCause c s) :=
  (addCause_only c s).work (by simp only [addCause_keeps]; exact s.journal.grown_refl) ((tells_addCause c s).mono (by simp))

theorem eventApplied_work (d : Draft) (s : State) : StartWork s (eventApplied d s).2 := by
  refine (eventApplied_only d s).work ?_ ((tells_eventApplied d s).mono (by simp))
  have e : (eventApplied d s).2.journal = (eventRecord d s).2.journal := by unfold eventApplied; simp
  rw [e]
  exact eventRecord_grown d s

theorem onPosition_work (g : Position → Position) (s : State) : StartWork s (s.onPosition g) := .of_same rfl

/-- The word of a cassette's record verified as it is read (R9). -/
def State.readCassette (k : Ix) (s : State) : State := (verifyCassette k s).2

theorem readCassette_work (k : Ix) (s : State) : StartWork s (s.readCassette k) := by
  unfold State.readCassette verifyCassette
  split
  · exact .refl s
  · exact (onPosition_work _ s).trans (addCause_work _ _)

theorem readCassette_position (k : Ix) (s : State) :
    (s.readCassette k).position =
      { s.position with
        causes := { s.position.causes with integrity := s.position.causes.integrity || !(s.position.cassettes.get k).intact }
        integrityFault :=
          if (s.position.cassettes.get k).intact then s.position.integrityFault
          else some (s.position.integrityFault.getD ⟨.cassette k, s.clock.count⟩) } := by
  unfold State.readCassette verifyCassette
  cases h : (s.position.cassettes.get k).intact
  · simp only [Bool.false_eq_true, if_false, integrityFailure_position, Bool.not_false, Bool.or_true]
    cases s.position.integrityFault <;> rfl
  · simp

theorem readCassette_only (k : Ix) (s : State) : CustodyOnly s (s.readCassette k) := by
  unfold State.readCassette verifyCassette
  split
  · exact ⟨rfl, rfl⟩
  · exact (onPosition_only _ s).trans (addCause_only _ _)

theorem bookRemoval_eq (k : Ix) (s : State) (h : ((s.readCassette k).position.cassettes.get k).state ≠ .absent) :
    bookRemoval k s =
      if ((s.readCassette k).position.cassettes.get k).state = .released then removeReleased k (loseDestination k (s.readCassette k))
      else removeUnreleased k (loseDestination k (s.readCassette k)) := by
  have e : verifyCassette k s = ((verifyCassette k s).1, s.readCassette k) := rfl
  unfold bookRemoval
  rw [e]
  generalize s.readCassette k = x at h ⊢
  dsimp only
  split
  · rename_i hs
    exact absurd hs h
  · rename_i hs
    rw [if_pos hs]
  · rename_i hs
    rw [if_neg hs]

theorem emptyRecord_position (k : Ix) (s : State) :
    (emptyRecord k s).position =
      { s.position with
        cassettes := s.position.cassettes.set k
          { s.position.cassettes.get k with counts := Quad.zero, state := .absent, pickFailed := false, intact := true } } := by
  rw [emptyRecord, writeCassetteAs_position]

theorem removeReleased_books (k : Ix) (s : State) :
    StartWork s (removeReleased k s) ∧ CustodyOnly s (removeReleased k s) ∧
      (removeReleased k s).position =
        { s.position with
          cassettes := s.position.cassettes.set k
            { s.position.cassettes.get k with counts := Quad.zero, state := .absent, pickFailed := false, intact := true }
          flows := { s.position.flows with
            unloaded := Quad.add s.position.flows.unloaded (s.position.cassettes.get k).counts }
          generation := s.position.generation + 1
          lastApplied := (removeReleased k s).position.lastApplied } := by
  unfold removeReleased
  dsimp only
  refine ⟨?_, ?_, ?_⟩
  · exact (((onPosition_work _ s).trans (writeCassetteAs_work k _ _)).trans (onPosition_work _ _)).trans (eventApplied_work _ _)
  · exact (((onPosition_only _ s).trans (writeCassetteAs_only k _ _)).trans (onPosition_only _ _)).trans (eventApplied_only _ _)
  · rw [eventApplied_position]
    simp only [bumpGeneration, State.onPosition_position, emptyRecord_position]

theorem bookUnreleased_books (k : Ix) (s : State) :
    StartWork s (bookUnreleased k s) ∧ CustodyOnly s (bookUnreleased k s) ∧
      (bookUnreleased k s).position =
        { s.position with
          cassettes := s.position.cassettes.set k
            { s.position.cassettes.get k with counts := Quad.zero, state := .absent, pickFailed := false, intact := true }
          discrepancy := Quad.zip (fun (a : Int) (n : Nat) => a + n) s.position.discrepancy (s.position.cassettes.get k).counts
          causes := { s.position.causes with unauthorisedRemoval := true }
          generation := s.position.generation + 1
          lastApplied := (bookUnreleased k s).position.lastApplied } := by
  unfold bookUnreleased
  dsimp only
  refine ⟨?_, ?_, ?_⟩
  · exact ((((onPosition_work _ s).trans (writeCassetteAs_work k _ _)).trans (addCause_work _ _)).trans (onPosition_work _ _)).trans
      (eventApplied_work _ _)
  · exact ((((onPosition_only _ s).trans (writeCassetteAs_only k _ _)).trans (addCause_only _ _)).trans (onPosition_only _ _)).trans
      (eventApplied_only _ _)
  · rw [eventApplied_position]
    simp only [bumpGeneration, State.onPosition_position, addCause_position, emptyRecord_position]
    congr 1

theorem bookInsertion_eq (k : Ix) (s : State) :
    bookInsertion k s =
      if ((s.readCassette k).position.cassettes.get k).state = .absent then
        writeCassetteAs k
          { (s.readCassette k).position.cassettes.get k with counts := Quad.zero, state := .uncounted, pickFailed := false }
          (s.readCassette k)
      else s.readCassette k := rfl

theorem loseDestination_work (k : Ix) (s : State) : StartWork s (loseDestination k s) := .of_same rfl

theorem Quad.set_get_self {α : Type} (q : Quad α) (k : Ix) : q.set k (q.get k) = q := by
  obtain ⟨a, b, c, d⟩ := q
  cases k <;> rfl

/-- A cassette found present (R23, R198). -/
theorem readSensor_present (k : Ix) (s : State) (hp : s.pins.cassettePresent.get k = true) : SensorRead k s (readSensor k s) := by
  have hgone : s.foundGone k = false := by simp [State.foundGone, hp]
  have hfree : s.foundFreed k = false := by simp [State.foundFreed, hgone]
  have htorn : s.foundTornAt k = false := by simp [State.foundTornAt, hgone]
  have hfail : s.foundFailed k = !(s.position.cassettes.get k).intact := by simp [State.foundFailed, hp]
  have hpos := readCassette_position k s
  have hwork := readCassette_work k s
  have honly := readCassette_only k s
  have hget : (s.readCassette k).position.cassettes.get k = s.position.cassettes.get k := by rw [hpos]
  have hfault : (if (s.position.cassettes.get k).intact then s.position.integrityFault
      else some (s.position.integrityFault.getD ⟨.cassette k, s.clock.count⟩)) =
      if (!(s.position.cassettes.get k).intact) = true then some (s.position.integrityFault.getD ⟨.cassette k, s.clock.count⟩)
      else s.position.integrityFault := by cases (s.position.cassettes.get k).intact <;> rfl
  have he : readSensor k s = bookInsertion k s := if_pos hp
  rw [he, bookInsertion_eq, hget]
  rw [hfault] at hpos
  by_cases ha : (s.position.cassettes.get k).state = .absent
  · rw [if_pos ha]
    have hsensed : s.sensedCassette k =
        { s.position.cassettes.get k with counts := Quad.zero, state := .uncounted, pickFailed := false, intact := true } := by
      simp [State.sensedCassette, hgone, hp, ha]
    have wpos := writeCassetteAs_position k
      { s.position.cassettes.get k with counts := Quad.zero, state := .uncounted, pickFailed := false } (s.readCassette k)
    have wonly := honly.trans (writeCassetteAs_only k
      { s.position.cassettes.get k with counts := Quad.zero, state := .uncounted, pickFailed := false } (s.readCassette k))
    have wwork := hwork.trans (writeCassetteAs_work k
      { s.position.cassettes.get k with counts := Quad.zero, state := .uncounted, pickFailed := false } (s.readCassette k))
    generalize writeCassetteAs k _ (s.readCassette k) = t at wpos wonly wwork
    refine ⟨t, ⟨wwork, ?_, ?_, fun _ => by rw [wpos, hpos], ?_, ?_⟩, by rw [htorn]; rfl⟩
    · rw [wonly.rest, hgone]; rfl
    · rw [wpos, hpos, hsensed, hfail]
      simp only [hgone, hfree, htorn, Bool.or_false, Bool.false_eq_true, if_false]
    · rw [wonly.rest]
    · rw [wonly.rest]
  · rw [if_neg ha]
    have hsensed : s.sensedCassette k = s.position.cassettes.get k := by
      simp [State.sensedCassette, hgone, ha]
    refine ⟨_, ⟨hwork, ?_, ?_, fun _ => by rw [hpos], ?_, ?_⟩, by rw [htorn]; rfl⟩
    · rw [honly.rest, hgone]; rfl
    · rw [hpos, hsensed, hfail]
      simp only [hgone, hfree, htorn, Bool.or_false, Bool.false_eq_true, if_false, Quad.set_get_self]
    · rw [honly.rest]
    · rw [honly.rest]

/-- A cassette found gone, or absent as its record says (R20, R22, R198). -/
theorem readSensor_missing (k : Ix) (s : State) (hp : s.pins.cassettePresent.get k = false) : SensorRead k s (readSensor k s) := by
  by_cases ha : (s.position.cassettes.get k).state = .absent
  · have hgone : s.foundGone k = false := by simp [State.foundGone, ha]
    have hfree : s.foundFreed k = false := by simp [State.foundFreed, hgone]
    have htorn : s.foundTornAt k = false := by simp [State.foundTornAt, hgone]
    have hfail : s.foundFailed k = false := by simp [State.foundFailed, hgone, hp]
    have hsensed : s.sensedCassette k = s.position.cassettes.get k := by simp [State.sensedCassette, hgone, hp]
    have he : readSensor k s = s := by
      unfold readSensor
      rw [if_neg (by simp [hp]), if_pos ha]
    rw [he]
    refine ⟨s, ⟨.refl s, by rw [hgone]; rfl, ?_, fun _ => rfl, rfl, rfl⟩, by rw [htorn]; rfl⟩
    rw [hsensed]
    simp only [hgone, hfree, htorn, hfail, Bool.or_false, Bool.false_eq_true, if_false, Quad.set_get_self]
  have hgone : s.foundGone k = true := by simp [State.foundGone, ha, hp]
  have hfail : s.foundFailed k = !(s.position.cassettes.get k).intact := by simp [State.foundFailed, hgone]
  have hsensed : s.sensedCassette k =
      { s.position.cassettes.get k with counts := Quad.zero, state := .absent, pickFailed := false, intact := true } := by
    simp [State.sensedCassette, hgone]
  have hpos := readCassette_position k s
  have hwork := (readCassette_work k s).trans (loseDestination_work k _)
  have hget : (s.readCassette k).position.cassettes.get k = s.position.cassettes.get k := by rw [hpos]
  have hfault : (if (s.position.cassettes.get k).intact then s.position.integrityFault
      else some (s.position.integrityFault.getD ⟨.cassette k, s.clock.count⟩)) =
      if (!(s.position.cassettes.get k).intact) = true then some (s.position.integrityFault.getD ⟨.cassette k, s.clock.count⟩)
      else s.position.integrityFault := by cases (s.position.cassettes.get k).intact <;> rfl
  rw [hfault] at hpos
  have he : readSensor k s = bookRemoval k s := by
    unfold readSensor
    rw [if_neg (by simp [hp]), if_neg ha]
  have hq : (loseDestination k (s.readCassette k)).position = (s.readCassette k).position := rfl
  have hesc : (loseDestination k (s.readCassette k)).escrow = s.escrow.lostAt k := by
    rw [loseDestination_eq, (readCassette_only k s).rest]
  have halarm : (loseDestination k (s.readCassette k)).alarm = s.alarm := by
    rw [loseDestination_eq, (readCassette_only k s).rest]
  have hdep : (loseDestination k (s.readCassette k)).depository = s.depository := by
    rw [loseDestination_eq, (readCassette_only k s).rest]
  rw [he, bookRemoval_eq k s (by rw [hget]; exact ha), hget]
  generalize loseDestination k (s.readCassette k) = x at hwork hq hesc halarm hdep
  by_cases hr : (s.position.cassettes.get k).state = .released
  · have hfree : s.foundFreed k = true := by simp [State.foundFreed, hgone, hr]
    have htorn : s.foundTornAt k = false := by simp [State.foundTornAt, hr]
    rw [if_pos hr]
    obtain ⟨w, only, wpos⟩ := removeReleased_books k x
    generalize removeReleased k x = t at w only wpos
    refine ⟨t, ⟨hwork.trans w, ?_, ?_, fun h => ?_, ?_, ?_⟩, by rw [htorn]; rfl⟩
    · rw [only.rest, if_pos hgone]; exact hesc
    · rw [hsensed, hfail]
      simp only [hgone, hfree, htorn, Bool.or_false, Bool.false_eq_true, if_false, if_true]
      rw [wpos, hq, hpos]
    · rw [hgone] at h; exact absurd h (by decide)
    · rw [only.rest]; exact halarm
    · rw [only.rest]; exact hdep
  · have hfree : s.foundFreed k = false := by simp [State.foundFreed, hr]
    have htorn : s.foundTornAt k = true := by simp [State.foundTornAt, hgone, hr]
    rw [if_neg hr, removeUnreleased_eq]
    obtain ⟨w, only, wpos⟩ := bookUnreleased_books k x
    generalize bookUnreleased k x = b at w only wpos
    refine ⟨b, ⟨hwork.trans w, ?_, ?_, fun h => ?_, ?_, ?_⟩, by rw [htorn]; rfl⟩
    · rw [only.rest, if_pos hgone]; exact hesc
    · rw [hsensed, hfail]
      simp only [hgone, hfree, htorn, Bool.or_true, Bool.false_eq_true, if_false, if_true]
      rw [wpos, hq, hpos]
    · rw [hgone] at h; exact absurd h (by decide)
    · rw [only.rest]; exact halarm
    · rw [only.rest]; exact hdep

theorem readSensor_read (k : Ix) (s : State) : SensorRead k s (readSensor k s) := by
  cases h : s.pins.cassettePresent.get k
  · exact readSensor_missing k s h
  · exact readSensor_present k s h

end Sys2Proof.Machine
end

section
/-! The cassette-present sensors read one after the other (R26, R198). -/
namespace Sys2Proof.Machine

/-! ## Zone 3 raised more than once (R142) -/

/-- A momentary raise of a zone's record. -/
def State.zoneRaised (s : State) (z : Fin 16) (r : Zone) : Zone :=
  if r.inputActive then r else (s.zoneActivated z r).restored

theorem Zone.activated_restored (armed : Bool) (delay : Nat) (now : Word32) (port : Option Port) (r : Zone) (h : r.state ≠ .ackedActive) :
    ((r.activated armed delay now port).restored.activated armed delay now port).restored =
      (r.activated armed delay now port).restored := by
  obtain ⟨c, bp, rd, db, inp, tr, st, et, mk, la⟩ := r
  cases st with
  | quiet =>
    unfold Zone.activated
    by_cases hd : c.type = .intrusionDelayed ∧ armed = true
    · simp [hd, Zone.restored]
    · simp [hd, Zone.restored]
  | ackedActive => exact absurd rfl h
  | entryTiming | pendingActive | pendingRestored => rfl

theorem Zone.restored_restored (r : Zone) (h : r.state ≠ .ackedActive) : r.restored.restored = r.restored := by
  unfold Zone.restored
  cases hs : r.state with
  | ackedActive => exact absurd hs h
  | pendingActive => rfl
  | quiet | entryTiming | pendingRestored => simp [hs]

/-- A zone raised momentarily twice is as raised once. -/
theorem State.zoneRaised_twice (s : State) (z : Fin 16) (r : Zone) (h : r.inputActive = false → r.state ≠ .ackedActive) :
    s.zoneRaised z (s.zoneRaised z r) = s.zoneRaised z r ∧
      ((s.zoneRaised z r).inputActive = false → (s.zoneRaised z r).state ≠ .ackedActive) := by
  unfold State.zoneRaised
  cases hi : r.inputActive
  · have hack := h hi
    simp only [Bool.false_eq_true, if_false, (Zone.restored_kept _).2.2.1, (s.zoneActivated_kept z r).2.2.1, hi]
    unfold State.zoneActivated
    split
    · refine ⟨Zone.activated_restored _ _ _ _ r hack, fun _ => ?_⟩
      unfold Zone.activated
      cases hs : r.state with
      | quiet => dsimp only; split <;> simp [Zone.restored]
      | ackedActive => exact absurd hs hack
      | entryTiming | pendingActive | pendingRestored => simp [Zone.restored, hs]
    · refine ⟨Zone.restored_restored r hack, fun _ => ?_⟩
      unfold Zone.restored
      cases hs : r.state with
      | ackedActive => exact absurd hs hack
      | quiet | entryTiming | pendingActive | pendingRestored => simp [hs]
  · simp [hi]

/-! ## The escrow record while cassettes are removed (R112) -/

/-- At most a commit's lost mark has changed. -/
def Escrow.Marked (e f : Escrow) : Prop :=
  f = e ∨ ∃ o o' : CommitOp, e.op = some (.commit o) ∧ f = { e with op := some (.commit o') }

theorem Escrow.Marked.trans {e f g : Escrow} (h : e.Marked f) (k : f.Marked g) : e.Marked g := by
  rcases h with rfl | ⟨o, o', he, rfl⟩
  · exact k
  · rcases k with rfl | ⟨p, p', -, rfl⟩
    · exact .inr ⟨o, o', he, rfl⟩
    · exact .inr ⟨o, p', he, rfl⟩

theorem Escrow.lostAt_marked (e : Escrow) (k : Ix) : e.Marked (e.lostAt k) := by
  have same (h : (e.lostAt k).op = e.op) : e.Marked (e.lostAt k) := by
    refine .inl ?_
    have he : e.lostAt k = { e with op := (e.lostAt k).op } := rfl
    rw [he, h]
  unfold Escrow.Marked
  cases ho : e.op with
  | none => exact ho ▸ same (by simp only [Escrow.lostAt, ho])
  | some o =>
    cases o with
    | commit o =>
      refine .inr ⟨o, { o with lost := o.lost || o.chosen == some k }, rfl, ?_⟩
      simp only [Escrow.lostAt, ho]
    | insert o => exact ho ▸ same (by simp only [Escrow.lostAt, ho])
    | give o => exact ho ▸ same (by simp only [Escrow.lostAt, ho])

/-! ## Several sensors read -/

/-- The notes of the cassettes listed that meet a test. -/
def State.notesIn (s : State) (l : List Ix) (test : Ix → Bool) : Quad Nat :=
  l.foldl (fun q k => if test k then Quad.add q (s.position.cassettes.get k).counts else q) Quad.zero

theorem State.notesIn_snoc (s : State) (l : List Ix) (k : Ix) (test : Ix → Bool) :
    s.notesIn (l ++ [k]) test =
      if test k then Quad.add (s.notesIn l test) (s.position.cassettes.get k).counts else s.notesIn l test := by
  simp [State.notesIn, List.foldl_append]

/-- The sensors listed have been read. -/
structure SensorsRead (l : List Ix) (s t : State) : Prop where
  work : StartWork s t
  escrow : s.escrow.Marked t.escrow
  position : t.position =
    { s.position with
      cassettes := Quad.of (fun k => if k ∈ l then s.sensedCassette k else s.position.cassettes.get k)
      discrepancy := Quad.zip (fun (a : Int) (n : Nat) => a + n) s.position.discrepancy (s.notesIn l s.foundTornAt)
      flows := { s.position.flows with unloaded := Quad.add s.position.flows.unloaded (s.notesIn l s.foundFreed) }
      generation := s.position.generation + BitVec.ofNat 32 (l.filter s.foundGone).length
      causes :=
        { s.position.causes with
          unauthorisedRemoval := s.position.causes.unauthorisedRemoval || l.any s.foundTornAt
          integrity := s.position.causes.integrity || l.any s.foundFailed }
      integrityFault := t.position.integrityFault
      lastApplied := t.position.lastApplied }
  faultKept : ∀ x, s.position.integrityFault = some x → t.position.integrityFault = some x
  faultNone : s.position.integrityFault = none → l.any s.foundFailed = false → t.position.integrityFault = none
  faultNew : s.position.integrityFault = none → l.any s.foundFailed = true →
    ∃ w, t.position.integrityFault = some ⟨w, s.clock.count⟩
  applied : (∀ k ∈ l, s.foundGone k = false) → t.position.lastApplied = s.position.lastApplied
  turned : AlarmTurned true s t
  armed : t.alarm.armed = s.alarm.armed
  monitor : t.alarm.monitorTimer = s.alarm.monitorTimer
  zones : ∀ z, t.zone z = if z = 3 ∧ l.any s.foundTornAt = true then s.zoneRaised 3 (s.zone 3) else s.zone z

theorem sensorsRead_nil {s : State} (hd : AlarmDerived s) : SensorsRead [] s s := by
  refine ⟨.refl s, .inl rfl, ?_, fun _ h => h, fun h _ => h, fun _ h => by simp at h, fun _ => rfl, .refl true hd, rfl, rfl, fun z => ?_⟩
  · have h1 : Quad.of (fun k => if k ∈ ([] : List Ix) then s.sensedCassette k else s.position.cassettes.get k) = s.position.cassettes :=
      Quad.ext_get fun k => by simp
    have h2 : Quad.zip (fun (a : Int) (n : Nat) => a + n) s.position.discrepancy (s.notesIn [] s.foundTornAt) = s.position.discrepancy :=
      Quad.ext_get fun k => by simp [State.notesIn]
    have h3 : Quad.add s.position.flows.unloaded (s.notesIn [] s.foundFreed) = s.position.flows.unloaded :=
      Quad.ext_get fun k => by simp [State.notesIn]
    rw [h1, h2, h3]
    simp
  · simp

/-- What a sensor's read finds depends on the sensor and on its cassette's record alone. -/
theorem found_congr {s x : State} {k : Ix} (hp : x.pins = s.pins) (hk : x.position.cassettes.get k = s.position.cassettes.get k) :
    x.foundGone k = s.foundGone k ∧ x.foundFreed k = s.foundFreed k ∧ x.foundTornAt k = s.foundTornAt k ∧
      x.foundFailed k = s.foundFailed k ∧ x.sensedCassette k = s.sensedCassette k := by
  have h : x.foundGone k = s.foundGone k := by simp only [State.foundGone, hp, hk]
  simp only [State.foundFreed, State.foundTornAt, State.foundFailed, State.sensedCassette, h, hp, hk, and_self]

theorem zoneRaised_congr {s x : State} (z : Fin 16) (r : Zone) (hs : x.settings = s.settings) (hc : x.clock = s.clock)
    (ha : x.alarm.armed = s.alarm.armed) (he : x.alarm.eligible z = s.alarm.eligible z) : x.zoneRaised z r = s.zoneRaised z r := by
  simp only [State.zoneRaised, State.zoneActivated, hs, hc, ha, he]

/-- What one more sensor's read leaves: the bookings, and zone 3 with the rest of the alarm unit. -/
theorem SensorRead.spec {k : Ix} {x y : State} (g : SensorRead k x y) (hd : AlarmDerived x) (hp : x.startUp.phase ≠ .ready)
    (hn : (x.zone 3).inputActive = false → (x.zone 3).state ≠ .ackedActive) :
    (∃ b : State, SensorBooked k x b ∧ AlarmOnly b y) ∧ AlarmTurned true x y ∧ y.alarm.armed = x.alarm.armed ∧
      y.alarm.monitorTimer = x.alarm.monitorTimer ∧
      ∀ z, y.zone z = if z = 3 ∧ x.foundTornAt k = true then x.zoneRaised 3 (x.zone 3) else x.zone z := by
  obtain ⟨b, g, hy⟩ := g
  have hbd : AlarmDerived b := by
    unfold AlarmDerived
    rw [g.alarm]
    exact hd
  have hb : AlarmTurned true x b :=
    ⟨g.work, hbd, .inl (by simp only [State.restricted, g.alarm]), by rw [g.alarm, slotJudged_self, g.depository]⟩
  have hbz (z : Fin 16) : b.zone z = x.zone z := by simp only [State.zone, g.alarm]
  cases ht : x.foundTornAt k
  · rw [ht] at hy
    have hyb : y = b := hy
    rw [hyb]
    exact ⟨⟨b, g, rfl, rfl⟩, hb, by rw [g.alarm], by rw [g.alarm], fun z => by simp [hbz z]⟩
  · rw [ht] at hy
    have hyb : y = momentary 3 none b := hy
    have hbp : b.startUp.phase ≠ .ready := by rw [g.work.startUp]; exact hp
    obtain ⟨m1, m2⟩ := momentary_turned 3 b hbd hbp (by rw [hbz 3]; exact hn)
    have mz : ZonesAre (b.alarm.setZone 3 (b.zoneRaised 3 (b.zone 3))) (momentary 3 none b) := momentary_zones 3 none b
    rw [← hyb] at m1 m2 mz
    refine ⟨⟨b, g, m2⟩, hb.trans m1, by rw [mz.2.1, ← g.alarm]; rfl, by rw [mz.2.2, ← g.alarm]; rfl, fun z => ?_⟩
    by_cases hz : z = 3
    · subst hz
      have hr : b.zoneRaised 3 (x.zone 3) = x.zoneRaised 3 (x.zone 3) :=
        zoneRaised_congr 3 _ g.work.settings g.work.clock (by rw [g.alarm]) (by rw [g.alarm])
      rw [mz.zone, hbz 3, hr]
      simp
    · rw [mz.other hz, if_neg (by simp [hz])]
      exact hbz z

/-- Zone 3 may be raised once or more: it is as raised once. -/
theorem zone3_raised {l : List Ix} {k : Ix} {s x y : State} (h : SensorsRead l s x) (hk : x.foundTornAt k = s.foundTornAt k)
    (hn : (s.zone 3).inputActive = false → (s.zone 3).state ≠ .ackedActive)
    (hy : ∀ z, y.zone z = if z = 3 ∧ x.foundTornAt k = true then x.zoneRaised 3 (x.zone 3) else x.zone z) (z : Fin 16) :
    y.zone z = if z = 3 ∧ (l ++ [k]).any s.foundTornAt = true then s.zoneRaised 3 (s.zone 3) else s.zone z := by
  have kept : (s.zoneRaised 3 (s.zone 3)).config = (s.zone 3).config ∧ (s.zoneRaised 3 (s.zone 3)).bypassed = (s.zone 3).bypassed := by
    unfold State.zoneRaised
    obtain ⟨a1, a2, -⟩ := s.zoneActivated_kept 3 (s.zone 3)
    obtain ⟨r1, r2, -⟩ := Zone.restored_kept (s.zoneActivated 3 (s.zone 3))
    split
    · exact ⟨rfl, rfl⟩
    · exact ⟨r1.trans a1, r2.trans a2⟩
  have el : x.alarm.eligible 3 = s.alarm.eligible 3 := by
    refine eligible_of h.armed ?_ ?_ <;> rw [h.zones 3] <;> split
    exacts [kept.1, rfl, kept.2, rfl]
  have hr (r : Zone) : x.zoneRaised 3 r = s.zoneRaised 3 r := zoneRaised_congr 3 r h.work.settings h.work.clock h.armed el
  rw [hy z, hk, hr, h.zones 3, h.zones z]
  by_cases hz : z = 3
  · subst hz
    cases hl : l.any s.foundTornAt <;> cases ht : s.foundTornAt k <;>
      simp [hl, ht, (s.zoneRaised_twice 3 (s.zone 3) hn).1]
  · simp [hz]

theorem SensorsRead.next {l : List Ix} {k : Ix} {s x y : State} (h : SensorsRead l s x) (hk : k ∉ l) (g : SensorRead k x y)
    (hp : s.startUp.phase ≠ .ready) (hn : (s.zone 3).inputActive = false → (s.zone 3).state ≠ .ackedActive) :
    SensorsRead (l ++ [k]) s y := by
  have hget : x.position.cassettes.get k = s.position.cassettes.get k := by rw [h.position]; simp [hk]
  obtain ⟨f1, f2, f3, f4, f5⟩ := found_congr h.work.pins hget
  have hxn : (x.zone 3).inputActive = false → (x.zone 3).state ≠ .ackedActive := by
    rw [h.zones 3]
    split
    · exact (s.zoneRaised_twice 3 (s.zone 3) hn).2
    · exact hn
  obtain ⟨⟨b, gb, hpos, hesc⟩, ht, ha, hm, hz⟩ :=
    g.spec h.turned.derived (by rw [h.work.startUp]; exact hp) hxn
  have hclock : x.clock = s.clock := h.work.clock
  have hfault : y.position.integrityFault =
      if s.foundFailed k then some (x.position.integrityFault.getD ⟨.cassette k, s.clock.count⟩) else x.position.integrityFault := by
    rw [hpos, gb.position, f4, hclock]
  have hany : (l ++ [k]).any s.foundFailed = (l.any s.foundFailed || s.foundFailed k) := by simp
  refine ⟨h.work.trans ht.work, ?_, ?_, ?_, ?_, ?_, ?_, h.turned.trans ht, ha.trans h.armed, hm.trans h.monitor,
    zone3_raised h f3 hn hz⟩
  · refine h.escrow.trans ?_
    rw [hesc, gb.escrow]
    split
    · exact x.escrow.lostAt_marked k
    · exact .inl rfl
  · have hx := h.position
    generalize x.position.integrityFault = i at hx hfault
    generalize x.position.lastApplied = a at hx
    have hb := gb.position
    rw [← hpos, f1, f2, f3, f4, f5, hclock, hget, hx] at hb
    refine hb.trans ?_
    rw [hfault, s.notesIn_snoc, s.notesIn_snoc]
    simp only [Position.mk.injEq, Flows.mk.injEq, Causes.mk.injEq, true_and, and_true]
    refine ⟨Quad.ext_get fun j => ?_, Quad.ext_get fun j => ?_, Quad.ext_get fun j => ?_, ?_, ?_, ?_⟩
    · by_cases hj : j = k
      · subst hj; simp
      · rw [Quad.get_set_other _ _ _ _ hj]; simp [hj]
    · split
      · simp [add_assoc]
      · rfl
    · split
      · simp [add_assoc]
      · rfl
    · cases hg : s.foundGone k <;> simp [List.filter_append, BitVec.ofNat_add, add_assoc, hg]
    · simp [Bool.or_assoc]
    · simp [Bool.or_assoc]
  · intro f hf
    rw [hfault, h.faultKept f hf]
    split <;> rfl
  · intro hnone hl
    rw [hany, Bool.or_eq_false_iff] at hl
    rw [hfault, hl.2, h.faultNone hnone hl.1]
    rfl
  · intro hnone hl
    rw [hfault]
    cases hk : s.foundFailed k
    · rw [hany, hk, Bool.or_false] at hl
      exact h.faultNew hnone hl
    · cases hl' : l.any s.foundFailed
      · rw [h.faultNone hnone hl']
        exact ⟨_, rfl⟩
      · obtain ⟨w, hw⟩ := h.faultNew hnone hl'
        rw [hw]
        exact ⟨w, rfl⟩
  · intro hl
    rw [hpos, gb.applied (by rw [f1]; exact hl k (by simp))]
    exact h.applied fun j hj => hl j (by simp [hj])

/-- The four sensors read (R26, R198). -/
theorem readSensors_read (s : State) (hd : AlarmDerived s) (hp : s.startUp.phase ≠ .ready)
    (hn : (s.zone 3).inputActive = false → (s.zone 3).state ≠ .ackedActive) : SensorsRead Ix.all s (readSensors s) := by
  have h0 := sensorsRead_nil hd
  have h1 := h0.next (k := .i1) (by simp) (readSensor_read .i1 s) hp hn
  have h2 := h1.next (k := .i2) (by simp) (readSensor_read .i2 _) hp hn
  have h3 := h2.next (k := .i3) (by simp) (readSensor_read .i3 _) hp hn
  exact h3.next (k := .i4) (by simp) (readSensor_read .i4 _) hp hn

end Sys2Proof.Machine
end

section
/-! The gap check (R175). -/
namespace Sys2Proof.Machine

/-- The number after one, where the sequence space holds it (R160). -/
def numberAfter (n : Nat) : Option Nat := if n < Config.lastSequence then some (n + 1) else none

/-- What the gap check leaves. -/
structure GapChecked (x g : State) : Prop where
  only : CustodyOnly x g
  tells : Tells [.restriction, .journalHigh] x g
  position : g.position =
    { x.position with
      causes := { x.position.causes with gap := x.position.causes.gap || decide (x.journal.durable < x.position.lastApplied) } }
  reservations : g.journal.reservations = x.journal.reservations
  retained : g.journal.retained = x.journal.retained
  durable : g.journal.durable = x.journal.durable
  trimPoint : g.journal.trimPoint = x.journal.trimPoint
  waitingDone : g.journal.waitingDone = x.journal.waitingDone
  calm : x.position.lastApplied ≤ x.journal.durable → g.journal.staging = [] ∧ g.journal.next = numberAfter x.journal.durable
  gap : x.journal.durable < x.position.lastApplied → x.position.lastApplied < 4294967295 →
    ∃ r : Record, g.journal.staging = [r] ∧ r.sequence = x.position.lastApplied + 1 ∧ r.kind = .gap ∧ r.port = none ∧
      r.counts = ⟨(x.position.lastApplied : Int) - x.journal.durable, 0, 0, 0⟩ ∧ r.extra = x.position.lastApplied ∧ r.amount = 0

/-- The draft of a GAP record (R175). -/
def gapDraft (last durable : Nat) : Draft := { kind := .gap, counts := ⟨(last - durable : Nat), 0, 0, 0⟩, extra := last }

theorem gapCheck_some (x : State) (h : x.journal.durable < x.position.lastApplied) :
    gapCheck x = addCause .gap
      (stage (gapDraft x.position.lastApplied x.journal.durable)
        (x.onJournal fun j => { j with next := numberAfter x.position.lastApplied })).2 := by
  unfold gapCheck
  exact if_neg (Nat.not_le.mpr h)

theorem gapCheck_none (x : State) (h : x.position.lastApplied ≤ x.journal.durable) :
    gapCheck x = x.onJournal fun j => { j with next := numberAfter x.journal.durable } := by
  unfold gapCheck
  exact if_pos h

theorem gapCheck_checked (x : State) (hs : x.journal.staging = []) : GapChecked x (gapCheck x) := by
  by_cases h : x.position.lastApplied ≤ x.journal.durable
  · rw [gapCheck_none x h]
    refine ⟨⟨rfl, rfl⟩, tells_of_ports _ rfl, ?_, rfl, rfl, rfl, rfl, rfl, fun _ => ⟨hs, rfl⟩, fun h' => absurd h (Nat.not_le.mpr h')⟩
    simp [Nat.not_lt.mpr h]
  · have hlt := Nat.lt_of_not_le h
    rw [gapCheck_some x hlt]
    let b := x.onJournal fun j => { j with next := numberAfter x.position.lastApplied }
    let d := gapDraft x.position.lastApplied x.journal.durable
    have hb : CustodyOnly x b := ⟨rfl, rfl⟩
    have g := stage_grown d b
    have hj : (addCause .gap (stage d b).2).journal = (stage d b).2.journal := by simp
    refine ⟨(hb.trans (stage_only d b)).trans (addCause_only _ _), ?_, ?_, ?_, ?_, ?_, ?_, ?_, fun h' => absurd h' h, fun _ hmax => ?_⟩
    · exact (tells_of_ports (t := b) _ rfl).trans (((tells_stage d b).mono (by simp)).trans ((tells_addCause _ _).mono (by simp)))
    · have hp : (stage d b).2.position = x.position := (stage_keeps d b).2.2.2.1
      rw [addCause_position, hp]
      simp [hlt, Causes.add]
    · rw [hj, g.reservations]; rfl
    · rw [hj, g.retained]; rfl
    · rw [hj, g.durable]; rfl
    · rw [hj, g.trimPoint]; rfl
    · rw [hj, g.waitingDone]; rfl
    · have hn : b.journal.next = some (x.position.lastApplied + 1) := if_pos hmax
      obtain ⟨-, ⟨-, -, -, hst, -⟩, -⟩ := stage_some d b _ hn
      refine ⟨d.record (x.position.lastApplied + 1) b.clock, ?_, rfl, rfl, rfl, ?_, rfl, rfl⟩
      · rw [hj, hst]
        exact congrArg (· ++ [_]) hs
      · show (⟨((x.position.lastApplied - x.journal.durable : Nat) : Int), 0, 0, 0⟩ : Quad Int) = _
        rw [Nat.cast_sub hlt.le]

end Sys2Proof.Machine
end

section
/-! Phase CHECK from the gap check to the sensors (R158, R198). -/
namespace Sys2Proof.Machine

/-! ## The slot through the alarm unit's start-up steps (R118) -/

/-- A slot that is not open, judged with a permit and then without one. -/
theorem Depository.judged_back (d : Depository) (permit : Bool) (hs : d.slot ≠ .open_) (he : d.entry = .empty)
    (hk : d.keypadTimer = false) : (d.judged permit).judged false = d := by
  obtain ⟨slot, _, _, _, _, _, _, entry, _, _, _, _, _, _, _, _, _, keypad, _, _⟩ := d
  cases he
  cases hk
  cases slot with
  | open_ => exact absurd rfl hs
  | closed => cases permit <;> rfl
  | intake | imprint | drop | jammed => rfl

/-- SLOT_CLOSE may leave the set in the restores and enter it again with zone 3: the slot, closed all the while, is then as it was. -/
theorem slot_started {x a r : State} (h1 : AlarmTurned (!x.restricted .slotClose) x a) (h2 : AlarmTurned true a r)
    (ho : x.depository.slot = .open_ → x.restricted .slotClose = false) (he : x.depository.entry = .empty)
    (hk : x.depository.keypadTimer = false) : r.depository = x.slotJudged r.alarm.restriction := by
  cases hx : x.restricted .slotClose
  · rw [hx] at h1
    exact (h1.trans h2).slot
  rw [hx] at h1
  by_cases hr : r.restricted .slotClose = a.restricted .slotClose
  · have hd : r.depository = a.depository := by rw [h2.slot]; exact slotJudged_same hr
    rw [hd, h1.slot]
    exact slotJudged_congr rfl rfl rfl hr.symm
  -- it left the set and came back
  have hrt : r.restricted .slotClose = true := h2.turn.resolve_left hr
  have haf : a.restricted .slotClose = false := by
    rw [hrt] at hr
    simpa using Ne.symm hr
  have hxr : x.slotJudged r.alarm.restriction = x.depository := slotJudged_same (by rw [hx]; exact hrt)
  have hslot : x.depository.slot ≠ .open_ := fun h => absurd (ho h) (by rw [hx]; decide)
  rw [hxr, h2.slot]
  have hrt' : Effects.has r.alarm.restriction .slotClose = true := hrt
  have haf' : Effects.has a.alarm.restriction .slotClose = false := haf
  unfold State.slotJudged
  rw [if_pos (by rw [hrt', haf]; decide), hrt', h1.slot]
  unfold State.slotJudged
  rw [if_pos (by rw [haf', hx]; decide)]
  generalize (decide (x.depository.bin.count < x.settings.binCapacity) && !Effects.has a.alarm.restriction .slotClose &&
    x.depository.supervisorOpen) = p
  rw [Bool.not_true, Bool.and_false, Bool.false_and]
  exact x.depository.judged_back p hslot he hk

/-! ## What CHECK leaves -/

/-- The envelope controller once the sequence number has been set, at a cold start (R128). -/
def State.numbered (x : State) : Depository :=
  if x.startUp.kind = .cold then { x.depository with sequence := x.journal.envelopeSequence } else x.depository

/-- CHECK begins its steps: the staging queue is settled, the dispenses are idle, the slot takes no entry, and of zones and position s
tells what was found. -/
structure CheckFrom (s x : State) : Prop where
  starts : StartsFrom s x
  staging : x.journal.staging = []
  idle : x.dispenses = ⟨Dispense.idle, Dispense.idle⟩
  cassettes : s.position.cassettes = x.position.cassettes
  entry : x.depository.entry = .empty
  keypad : x.depository.keypadTimer = false

/-- CHECK's steps have been made, up to the entry to PURGE. -/
structure Checked (s x r : State) : Prop where
  rest : r = { x with
    position := r.position, escrow := r.escrow, depository := r.depository, alarm := r.alarm, journal := r.journal, ports := r.ports }
  lines : r.ports.lines = x.ports.lines
  tells : Tells [.restriction, .journalHigh, .cassetteLow] x r
  escrow : x.escrow.Marked r.escrow
  position : r.position =
    { x.position with
      cassettes := Quad.of x.sensedCassette
      discrepancy := Quad.zip (fun (a : Int) (n : Nat) => a + n) x.position.discrepancy (x.notesIn Ix.all x.foundTornAt)
      flows := { x.position.flows with unloaded := Quad.add x.position.flows.unloaded (x.notesIn Ix.all x.foundFreed) }
      generation := x.position.generation + BitVec.ofNat 32 (Ix.all.filter x.foundGone).length
      causes :=
        { x.position.causes with
          gap := x.position.causes.gap || decide (x.journal.durable < x.position.lastApplied)
          unauthorisedRemoval := x.position.causes.unauthorisedRemoval || Ix.all.any x.foundTornAt
          integrity := x.position.causes.integrity || Ix.all.any x.foundFailed }
      integrityFault := r.position.integrityFault
      lastApplied := r.position.lastApplied }
  faultKept : ∀ f, x.position.integrityFault = some f → r.position.integrityFault = some f
  faultNone : x.position.integrityFault = none → Ix.all.any x.foundFailed = false → r.position.integrityFault = none
  faultNew : x.position.integrityFault = none → Ix.all.any x.foundFailed = true →
    ∃ w, r.position.integrityFault = some ⟨w, x.clock.count⟩
  applied : (∀ k, x.foundGone k = false) → r.position.lastApplied = x.position.lastApplied
  armed : r.alarm.armed = x.alarm.armed
  monitor : r.alarm.monitorTimer = some 60
  zones : ∀ z, r.zone z = s.zoneStarted z
  derived : AlarmDerived r
  depository : (x.depository.slot = .open_ → x.restricted .slotClose = false) →
    r.depository = ({ x with depository := x.numbered } : State).slotJudged r.alarm.restriction
  reservations : r.journal.reservations = x.journal.reservations
  retained : r.journal.retained = x.journal.retained
  durable : r.journal.durable = x.journal.durable
  trimPoint : r.journal.trimPoint = x.journal.trimPoint
  waitingDone : r.journal.waitingDone = x.journal.waitingDone
  first : x.position.lastApplied ≤ x.journal.durable → ∀ q, r.journal.staging.head? = some q → q.sequence = x.journal.durable + 1
  gap : x.journal.durable < x.position.lastApplied → x.position.lastApplied < 4294967295 →
    ∃ q : Record, r.journal.staging.head? = some q ∧ q.sequence = x.position.lastApplied + 1 ∧ q.kind = .gap ∧ q.port = none ∧
      q.counts = ⟨(x.position.lastApplied : Int) - x.journal.durable, 0, 0, 0⟩ ∧ q.extra = x.position.lastApplied ∧ q.amount = 0

/-- CHECK from the gap check to the sensors. -/
def checkSteps (x : State) : State :=
  let g := gapCheck x
  readSensors (alarmStart
    (if g.startUp.kind = .cold then g.onDepository (fun d => { d with sequence := g.journal.envelopeSequence }) else g))

theorem continueCheck_eq (drum path : Bool) (x : State) : continueCheck drum path x = enterPurge drum path (checkSteps x) := rfl

/-- A zone acknowledged and kept is restored where its input is NORMAL. -/
theorem State.zoneRestored_not_acked (s : State) (z : Fin 16) (hi : (s.zoneRestored z).inputActive = false) :
    (s.zoneRestored z).state ≠ .ackedActive := by
  have acked (r : Zone) (armed : Bool) (delay : Nat) (now : Word32) (h : (r.activated armed delay now none).state = .ackedActive) :
      r.state = .ackedActive := by
    unfold Zone.activated at h
    cases hr : r.state with
    | quiet => rw [hr] at h; dsimp only at h; split at h <;> simp at h
    | pendingRestored => rw [hr] at h; simp at h
    | entryTiming | pendingActive => rw [hr] at h; simp [hr] at h
    | ackedActive => rfl
  have judged (h : (s.zoneJudged z).state = .ackedActive) : (s.zone z).atReset.state = .ackedActive := by
    have ht := (s.zoneTimed_kept z).2.2.2.2
    unfold State.zoneJudged State.zoneRead at h
    rw [show (s.zone z).atReset.state = (s.zone z).state from rfl, ← ht]
    dsimp only at h
    split at h
    · split at h
      · exact h
      · split at h
        · unfold State.zoneActivated at h
          split at h
          · exact acked { s.zoneTimed z with reading := _, inputActive := true } _ _ _ h
          · exact h
        · exact h
    · exact h
  unfold State.zoneRestored at hi ⊢
  by_cases c : ((s.zone z).atReset.state = .pendingActive ∨ (s.zone z).atReset.state = .ackedActive) ∧ (s.zoneJudged z).inputActive = false
  · rw [if_pos c]
    unfold Zone.restored
    cases h : (s.zoneJudged z).state <;> simp [h]
  · rw [if_neg c] at hi ⊢
    exact fun h => c ⟨.inr (judged h), hi⟩

/-- CHECK from the gap check to the sensors. -/
theorem checkSteps_checked {s x : State} (h : CheckFrom s x) : Checked s x (checkSteps x) := by
  have hg := gapCheck_checked x h.staging
  unfold checkSteps
  dsimp only
  generalize gapCheck x = g at hg
  -- the envelope sequence number
  have hkind : g.startUp = x.startUp := by rw [hg.only.rest]
  have hseq : g.journal.envelopeSequence = x.journal.envelopeSequence := by
    unfold Journal.envelopeSequence; rw [hg.retained]
  have hn : (if g.startUp.kind = .cold then g.onDepository (fun d => { d with sequence := g.journal.envelopeSequence }) else g) =
      { g with depository := x.numbered } := by
    have hd : g.depository = x.depository := by rw [hg.only.rest]
    by_cases c : x.startUp.kind = .cold
    · rw [if_pos (by rw [hkind]; exact c), State.onDepository, State.numbered, if_pos c, hd, hseq]
    · rw [if_neg (by rw [hkind]; exact c), State.numbered, if_neg c, ← hd]
  rw [hn]
  generalize hb : ({ g with depository := x.numbered } : State) = b
  have hbx : b = { x with position := g.position, journal := g.journal, ports := g.ports, depository := x.numbered } := by
    rw [← hb]
    exact congrArg (fun y : State => { y with depository := x.numbered }) hg.only.rest
  have sb : StartsFrom s b := by
    have k := h.starts
    subst hbx
    exact ⟨k.settings, k.clock, k.pins, k.armed, k.zones, k.derived, k.phase⟩
  -- the alarm unit
  have ha := alarmStart_started sb
  generalize alarmStart b = a at ha
  have hapos : a.position = g.position := ha.only.1.trans (by rw [← hb])
  -- the sensors
  have hn3 : (a.zone 3).inputActive = false → (a.zone 3).state ≠ .ackedActive := by
    rw [ha.zones 3]; exact s.zoneRestored_not_acked 3
  have hr := readSensors_read a ha.turned.derived (by rw [ha.turned.work.startUp]; exact sb.phase) hn3
  generalize readSensors a = r at hr
  have found (k : Ix) : a.foundGone k = x.foundGone k ∧ a.foundFreed k = x.foundFreed k ∧ a.foundTornAt k = x.foundTornAt k ∧
      a.foundFailed k = x.foundFailed k ∧ a.sensedCassette k = x.sensedCassette k := by
    refine found_congr ?_ ?_
    · rw [ha.turned.work.pins, hbx]
    · rw [hapos, hg.position]
  have gone : a.foundGone = x.foundGone := funext fun k => (found k).1
  have freed : a.foundFreed = x.foundFreed := funext fun k => (found k).2.1
  have torn : a.foundTornAt = x.foundTornAt := funext fun k => (found k).2.2.1
  have failed : a.foundFailed = x.foundFailed := funext fun k => (found k).2.2.2.1
  have sensed : a.sensedCassette = x.sensedCassette := funext fun k => (found k).2.2.2.2
  have hgone (k : Ix) : a.foundGone k = x.foundGone k := congrFun gone k
  have notes (test : Ix → Bool) : a.notesIn Ix.all test = x.notesIn Ix.all test := by
    unfold State.notesIn; rw [hapos, hg.position]
  have hclock : a.clock = x.clock := by rw [ha.turned.work.clock, hbx]
  have hfault : a.position.integrityFault = x.position.integrityFault := by rw [hapos, hg.position]
  have work : StartWork b r := ha.turned.work.trans hr.work
  have hidle : r.dispenses = x.dispenses := by
    rw [h.idle]
    exact work.idle (by rw [hbx]; exact h.idle)
  have hslot (ho : x.depository.slot = .open_ → x.restricted .slotClose = false) := slot_started ha.turned hr.turned
    (by
      rw [hbx]
      unfold State.numbered
      split <;> exact ho)
    (by
      rw [hbx]
      unfold State.numbered
      split <;> exact h.entry)
    (by
      rw [hbx]
      unfold State.numbered
      split <;> exact h.keypad)
  obtain ⟨more, hst, hnext, hhead⟩ := work.grown.staged
  have hbj : b.journal = g.journal := by rw [← hb]
  refine ⟨?_, ?_, ?_, ?_, ?_, ?_, ?_, ?_, ?_, ?_, ?_, ?_, hr.turned.derived, ?_, ?_, ?_, ?_, ?_, ?_, ?_, ?_⟩
  · refine work.rest.trans ?_
    rw [hidle, hbx]
  · rw [work.lines, hbx]
    exact hg.only.lines
  · exact ((hg.tells.mono (by simp)).trans (tells_of_ports (t := b) _ (by rw [← hb]))).trans work.tells
  · have e : x.escrow = a.escrow := by rw [ha.only.2, hbx]
    rw [e]
    exact hr.escrow
  · have hrp := hr.position
    have hcs : Quad.of (fun k => if k ∈ Ix.all then x.sensedCassette k else x.position.cassettes.get k) = Quad.of x.sensedCassette :=
      Quad.ext_get fun k => by cases k <;> rfl
    rw [gone, freed, torn, failed, sensed, notes, notes, hapos, hg.position] at hrp
    refine hrp.trans ?_
    rw [hcs]
  · rw [← hfault]; exact hr.faultKept
  · rw [← hfault, ← failed]; exact hr.faultNone
  · rw [← hfault, ← failed, ← hclock]; exact hr.faultNew
  · intro hx
    rw [hr.applied (fun k _ => by rw [hgone]; exact hx k), hapos, hg.position]
  · rw [hr.armed, ha.armed, hbx]
  · rw [hr.monitor, ha.monitor]; rfl
  · intro z
    have kept := s.zoneRestored_kept 3
    have hel : a.alarm.eligible 3 = s.alarm.eligible 3 :=
      eligible_of (ha.armed.trans sb.armed) (by rw [ha.zones 3]; exact kept.1) (by rw [ha.zones 3]; exact kept.2)
    have hraised (q : Zone) : a.zoneRaised 3 q = s.zoneRaised 3 q :=
      zoneRaised_congr 3 q (ha.turned.work.settings.trans sb.settings) (ha.turned.work.clock.trans sb.clock)
        (ha.armed.trans sb.armed) hel
    have htorn : s.foundTorn = Ix.all.any a.foundTornAt := by
      have e : s.foundTornAt = a.foundTornAt := funext fun k => by
        rw [torn]
        exact (found_congr h.starts.pins.symm (by rw [h.cassettes])).2.2.1
      rw [← e]
      rfl
    rw [hr.zones z, hraised, ha.zones 3, ha.zones z, zoneStarted_eq, htorn]
    by_cases hz : z = 3
    · subst hz
      unfold State.zoneRaised
      cases ht : Ix.all.any a.foundTornAt <;> cases hi : (s.zoneRestored 3).inputActive <;> simp
    · simp [hz]
  · intro ho
    rw [hslot ho, hbx]
    rfl
  · rw [work.grown.reservations, hbj, hg.reservations]
  · rw [work.grown.retained, hbj, hg.retained]
  · rw [work.grown.durable, hbj, hg.durable]
  · rw [work.grown.trimPoint, hbj, hg.trimPoint]
  · rw [work.grown.waitingDone, hbj, hg.waitingDone]
  · intro hle q hq
    obtain ⟨c1, c2⟩ := hg.calm hle
    rw [hst, hbj, c1, List.nil_append] at hq
    have e := hhead q hq
    rw [hbj, c2] at e
    unfold numberAfter at e
    split at e
    · exact (Option.some.inj e).symm
    · exact absurd e (by simp)
  · intro hlt hmax
    obtain ⟨q, c1, c2⟩ := hg.gap hlt hmax
    refine ⟨q, ?_, c2⟩
    rw [hst, hbj, c1]
    rfl

end Sys2Proof.Machine
end

section
/-! The entry to phase PURGE (R116, R134, R199). -/
namespace Sys2Proof.Machine

/-! ## The escrow operation cut (R8, R116) -/

/-- A commit that had delivered notes. -/
def Escrow.commitBegun (e : Escrow) : Bool :=
  match e.op with
  | some (.commit _) => decide (0 < e.tally.perCassette.total)
  | _ => false

/-- A step of the generation counted (R8). -/
theorem stepGeneration_counted (c : Bool) (s : State) :
    stepGeneration c s = { s with position := { s.position with generation := s.position.generation + BitVec.ofNat 32 c.toNat } } := by
  cases c
  · simp [stepGeneration]
  · rfl

theorem Escrow.cut_none (e : Escrow) (h : e.op = none) : e.cut = e.atReset := by
  obtain ⟨_, _, _, _, _, _, op, _⟩ := e
  cases h
  rfl

theorem Escrow.commitBegun_none (e : Escrow) (h : e.op = none) : e.commitBegun = false := by
  unfold Escrow.commitBegun
  rw [h]

theorem cutEscrow_none (y : State) (h : y.escrow.op = none) : cutEscrow y = y := by
  unfold cutEscrow
  rw [h]

theorem generation_uncounted (y : State) (f : Escrow) :
    ({ y with position := { y.position with generation := y.position.generation + BitVec.ofNat 32 false.toNat }, escrow := f } : State) =
      { y with escrow := f } := by simp

/-- A feed or a return cut. -/
theorem cutEscrow_move (e : Escrow) (y : State) (h : y.escrow = e.atReset)
    (ho : (∃ o, e.op = some (.insert o)) ∨ ∃ o, e.op = some (.give o)) :
    e.commitBegun = false ∧ cutEscrow y = { y with escrow := e.cut } := by
  obtain ⟨opn, own, pur, decl, ver, stack, op, tally⟩ := e
  rcases ho with ⟨o, ho⟩ | ⟨o, ho⟩ <;> cases ho
  · refine ⟨rfl, ?_⟩
    unfold cutEscrow
    rw [h]
    cases stack with
    | nil => simp [Escrow.atReset, stepGeneration, State.onEscrow, h, Escrow.cut]
    | cons b beneath => simp [Escrow.atReset, stepGeneration, State.onEscrow, h, Escrow.cut]
  · refine ⟨rfl, ?_⟩
    unfold cutEscrow
    rw [h]
    cases stack with
    | nil => simp [Escrow.atReset, stepGeneration, State.onEscrow, h, Escrow.cut]
    | cons b beneath => simp [Escrow.atReset, stepGeneration, State.onEscrow, h, Escrow.cut]

/-- A commit cut, whatever its mark. -/
theorem cutEscrow_commit (e : Escrow) (o o' : CommitOp) (y : State) (ho : e.op = some (.commit o))
    (h : y.escrow = { e.atReset with op := some (.commit o') }) :
    cutEscrow y =
      { y with
        position := { y.position with generation := y.position.generation + BitVec.ofNat 32 e.commitBegun.toNat }
        escrow := e.cut } := by
  obtain ⟨opn, own, pur, decl, ver, stack, op, tally⟩ := e
  cases ho
  unfold cutEscrow
  rw [h]
  dsimp only [Escrow.atReset]
  rw [stepGeneration_counted]
  cases stack <;> simp [Escrow.atReset, State.onEscrow, h, Escrow.cut, Escrow.commitBegun] <;> rfl

theorem cutEscrow_eq (e : Escrow) (y : State) (h : e.atReset.Marked y.escrow) :
    cutEscrow y =
      { y with
        position := { y.position with generation := y.position.generation + BitVec.ofNat 32 e.commitBegun.toNat }
        escrow := e.cut } := by
  rcases h with h | ⟨o, o', ho, h⟩
  · cases ho : e.op with
    | none =>
      rw [cutEscrow_none y (by rw [h]; exact ho), e.commitBegun_none ho, generation_uncounted, e.cut_none ho, ← h]
    | some op =>
      cases op with
      | insert o =>
        obtain ⟨hc, hy⟩ := cutEscrow_move e y h (.inl ⟨o, ho⟩)
        rw [hy, hc, generation_uncounted]
      | give o =>
        obtain ⟨hc, hy⟩ := cutEscrow_move e y h (.inr ⟨o, ho⟩)
        rw [hy, hc, generation_uncounted]
      | commit o => exact cutEscrow_commit e o o y ho (by rw [h, ← ho]; rfl)
  · exact cutEscrow_commit e o o' y ho h

/-! ## The purge and the slot's run -/

/-- The note path as the start-up purge begins (R65, R199). -/
def NotePath.startUpPurge (transit : Quad Nat) (drum : Bool) : NotePath :=
  { state := .purging, pick := none, draw := some ⟨.transit, .purge, transit, Quad.zero⟩
    purge :=
      some
        { startUp := true, rest := [.pocket .a, .pocket .b] ++ (if drum then [.drum] else []), booked := Quad.zero
          short := false, ended := none }
    timers := [⟨.purge, .transit, false⟩] }

/-- A start-up purge before its first draw (R65). -/
def startUpPurge (drum : Bool) : Purge :=
  { startUp := true, rest := purgeSources ++ (if drum then [.drum] else []), booked := Quad.zero, short := false, ended := none }

theorem startPurge_transit (drum : Bool) (y : State) (h : y.path = NotePath.clear .purging)
    (hr : y.position.retract.total < Config.retractNotes) :
    startPurge true (purgeSources ++ (if drum then [.drum] else [])) y =
      { y with path := .startUpPurge y.position.transit drum } := by
  let z : State := { y with path := { y.path with state := .purging, pick := none, draw := none, purge := some (startUpPurge drum) } }
  have hz : startPurge true (purgeSources ++ (if drum then [.drum] else [])) y = purgeNext z := rfl
  have k := purgeNext_draws z (startUpPurge drum) [] ([.pocket .a, .pocket .b] ++ (if drum then [.drum] else [])) .transit rfl rfl (by simp)
    (by simp [PassedOver]) (.inl hr)
  rw [hz, k]
  simp only [z, h]
  rfl

/-- The slot's record as phase PURGE begins (R134). -/
def Depository.begun (envelopeInPath : Bool) (d : Depository) : Depository :=
  match d.slot with
  | .intake | .imprint | .drop => d.clearRun
  | .jammed => d
  | .open_ | .closed => if envelopeInPath then d.clearRun else d

theorem startSlot_eq (envelopeInPath : Bool) (y : State) :
    startSlot envelopeInPath y = { y with depository := y.depository.begun envelopeInPath } := by
  unfold startSlot Depository.begun
  cases y.depository.slot with
  | intake | imprint | drop | jammed => rfl
  | open_ | closed => cases envelopeInPath <;> rfl

theorem enterPurge_eq (drum path : Bool) (e : Escrow) (y : State) (he : e.atReset.Marked y.escrow) (h : y.path = NotePath.clear .purging)
    (hr : y.position.retract.total < Config.retractNotes) :
    enterPurge drum path y =
      { y with
        startUp := { y.startUp with phase := .purge }
        position := { y.position with generation := y.position.generation + BitVec.ofNat 32 e.commitBegun.toNat }
        escrow := e.cut
        path := .startUpPurge y.position.transit drum
        depository := y.depository.begun path } := by
  have hcut := cutEscrow_eq e { y with startUp := { y.startUp with phase := .purge } } he
  unfold enterPurge
  dsimp only
  rw [hcut, startPurge_transit drum _ (by exact h) (by exact hr), startSlot_eq]

end Sys2Proof.Machine
end

section
/-! Start-up in phase PURGE, at the end of the step (R186, R198, R199). -/
namespace Sys2Proof.Machine

/-! ## The transmitters before READY (R186) -/

/-- With no dispense nothing waits for the end of the step. -/
theorem quiet_of_no_dispense (y : State) (h : y.dispenses = ⟨Dispense.idle, Dispense.idle⟩) : Quiet y :=
  quiet_of_atRest y fun u => by
    unfold State.dispense
    rw [h]
    cases u <;> simp [Pair.get, Dispense.idle]

/-- No port has a reply to send. -/
def PortsSilent (s : State) : Prop := ∀ p : Port, (s.ports.get p).held = none ∧ (s.ports.get p).transmitter = .idle

theorem PortsSilent.of_lines {s t : State} (h : PortsSilent s) (hl : t.ports.lines = s.ports.lines) : PortsSilent t := by
  intro p
  have e := congrFun hl p
  simp only [Ports.lines, Prod.mk.injEq] at e
  exact ⟨e.2.1.trans (h p).1, e.2.2.trans (h p).2⟩

theorem pump_silent (p : Port) (s : State) (h : PortsSilent s) (hp : s.startUp.phase ≠ .ready) : pump p s = s := by
  obtain ⟨h1, h2⟩ := h p
  have hf : s.noticesFlow p = false := by simp [State.noticesFlow, hp]
  unfold pump
  simp only [h1, h2, hf, Bool.false_eq_true, if_false]

theorem flushAlarm_lines (s : State) : (flushAlarm s).ports.lines = s.ports.lines := by
  unfold flushAlarm
  split
  · exact raise_lines _ _ _
  · rfl

/-- Before READY the end of a step leaves the lines as they are, where no reply waits. -/
theorem settle_silent (s : State) (hq : Quiet s) (hp : s.powered = true) (hs : PortsSilent s) (hr : s.startUp.phase ≠ .ready) :
    (settle s).ports.lines = s.ports.lines := by
  rw [settle_quiet s hq hp]
  have hx : (rewriteDisplay (watchIdle s)).ports = s.ports := by simp
  have hl : (flushAlarm (rewriteDisplay (watchIdle s))).ports.lines = s.ports.lines := by
    rw [flushAlarm_lines, hx]
  have hph : (flushAlarm (rewriteDisplay (watchIdle s))).startUp.phase ≠ .ready := by simpa using hr
  have hsil := hs.of_lines hl
  generalize flushAlarm (rewriteDisplay (watchIdle s)) = y at hl hph hsil
  unfold pumpAll
  rw [pump_silent .a y hsil hph, pump_silent .b y hsil hph, pump_silent .s y hsil hph, pump_silent .m y hsil hph]
  exact hl

/-! ## CHECK gone on to PURGE -/

/-- CHECK goes on in the state x, with the escrow record, the claim, the path and the ports as a reset sets them. -/
structure ResetFrom (s x : State) : Prop where
  from_ : CheckFrom s x
  phase : x.startUp.phase = .check
  escrow : x.escrow = s.escrow.atReset
  owner : x.claim.owner = if s.escrow.stack = [] then .none else .hold
  waiting : x.claim.waiting = []
  path : x.path = NotePath.clear .purging
  silent : PortsSilent x
  marks : ∀ p : Port, (x.ports.get p).approval = none ∧ (x.ports.get p).frameFlag = false ∧ (x.ports.get p).overrunFlag = false ∧
    (x.ports.get p).duressPending = false
  room : x.position.retract.total < Config.retractNotes

/-- What start-up has made of the battery-backed state it found, when it comes to PURGE. -/
structure PurgeBegun (drum path : Bool) (s x t : State) : Prop where
  begun : StartUpBegun x.startUp.kind drum x.journal x.position s.escrow.stack t
  settings : t.settings = x.settings
  clock : t.clock = x.clock
  pins : t.pins = x.pins
  escrow : t.escrow = s.escrow.cut
  position : t.position =
    { x.position with
      cassettes := Quad.of x.sensedCassette
      discrepancy := Quad.zip (fun (a : Int) (n : Nat) => a + n) x.position.discrepancy (x.notesIn Ix.all x.foundTornAt)
      flows := { x.position.flows with unloaded := Quad.add x.position.flows.unloaded (x.notesIn Ix.all x.foundFreed) }
      generation :=
        x.position.generation + BitVec.ofNat 32 (Ix.all.filter x.foundGone).length + BitVec.ofNat 32 s.escrow.commitBegun.toNat
      causes :=
        { x.position.causes with
          gap := x.position.causes.gap || decide (x.journal.durable < x.position.lastApplied)
          unauthorisedRemoval := x.position.causes.unauthorisedRemoval || Ix.all.any x.foundTornAt
          integrity := x.position.causes.integrity || Ix.all.any x.foundFailed }
      integrityFault := t.position.integrityFault
      lastApplied := t.position.lastApplied }
  faultKept : ∀ f, x.position.integrityFault = some f → t.position.integrityFault = some f
  faultNone : x.position.integrityFault = none → Ix.all.any x.foundFailed = false → t.position.integrityFault = none
  faultNew : x.position.integrityFault = none → Ix.all.any x.foundFailed = true →
    ∃ w, t.position.integrityFault = some ⟨w, x.clock.count⟩
  applied : (∀ k, x.foundGone k = false) → t.position.lastApplied = x.position.lastApplied
  armed : t.alarm.armed = x.alarm.armed
  zones : ∀ z, t.zone z = s.zoneStarted z
  derived : AlarmDerived t
  depository : (x.depository.slot = .open_ → x.restricted .slotClose = false) →
    DepositoryIs ((({ x with depository := x.numbered } : State).slotJudged t.alarm.restriction).begun path) t
  tells : Tells [.restriction, .journalHigh, .cassetteLow, .alarmChange] x t

theorem alarm_of_kept {y t : State} (hk : Kept .alarm y t) : ∃ b : Bool, t.alarm = { y.alarm with changed := b } := by
  have e : { t.alarm with changed := y.alarm.changed } = y.alarm := hk
  exact ⟨t.alarm.changed, by rw [← e]⟩

theorem continueCheck_begun (drum path : Bool) {s x : State} (h : ResetFrom s x) :
    PurgeBegun drum path s x (settle (continueCheck drum path x)) := by
  have hr := checkSteps_checked h.from_
  rw [continueCheck_eq]
  generalize checkSteps x = r at hr
  have hpath : r.path = NotePath.clear .purging := by rw [hr.rest]; exact h.path
  have hpr : r.position.retract = x.position.retract := by rw [hr.position]
  have hpt : r.position.transit = x.position.transit := by rw [hr.position]
  have he := enterPurge_eq drum path s.escrow r (by rw [← h.escrow]; exact hr.escrow) hpath (by rw [hpr]; exact h.room)
  rw [hpt] at he
  rw [he]
  generalize hy : ({ r with
    startUp := { r.startUp with phase := .purge }
    position := { r.position with generation := r.position.generation + BitVec.ofNat 32 s.escrow.commitBegun.toNat }
    escrow := s.escrow.cut
    path := .startUpPurge x.position.transit drum
    depository := r.depository.begun path } : State) = y
  have hrs : r.startUp = x.startUp := by rw [hr.rest]
  have hyd : y.dispenses = ⟨Dispense.idle, Dispense.idle⟩ := by
    rw [← hy]
    show r.dispenses = _
    rw [hr.rest]
    exact h.from_.idle
  have hq : Quiet y := quiet_of_no_dispense y hyd
  have hpow : y.powered = true := by rw [← hy]; rfl
  have hphase : y.startUp.phase ≠ .ready := by rw [← hy]; simp
  have hyl : y.ports.lines = x.ports.lines := by rw [← hy]; exact hr.lines
  have hk := settle_keeps_quiet y hq hpow
  have hsil := settle_silent y hq hpow (h.silent.of_lines hyl) hphase
  have htold (p : Port) (n : Notice) (hn : Told p n y) (hne : n.kind ≠ .alarmChange) : Told p n (settle y) :=
    settle_told p n y hq hpow hn hne
  generalize settle y = t at hk hsil htold
  have kj : t.journal = r.journal := by rw [show t.journal = y.journal from hk .journal (by simp), ← hy]
  have kp : t.position = y.position := hk .position (by simp)
  obtain ⟨changed, ka⟩ := alarm_of_kept (hk .alarm (by simp))
  rw [show y.alarm = r.alarm by rw [← hy]] at ka
  have kar : t.alarm.restriction = r.alarm.restriction := by rw [ka]
  have ktl : t.ports.lines = x.ports.lines := hsil.trans hyl
  have kc : t.claim.owner = x.claim.owner ∧ t.claim.waiting = x.claim.waiting := by
    have e : t.claim.owner = y.claim.owner ∧ t.claim.waiting = y.claim.waiting := hk .claim (by simp)
    have ey : y.claim = x.claim := by rw [← hy]; show r.claim = x.claim; rw [hr.rest]
    rw [← ey]; exact e
  have hyp : y.position = { r.position with generation := r.position.generation + BitVec.ofNat 32 s.escrow.commitBegun.toNat } := by
    rw [← hy]
  refine ⟨⟨?_, ?_, ⟨?_, ?_⟩, ?_, fun p => ?_, ?_, ?_, ?_, ?_, ?_, ?_, ?_, ?_, ?_⟩, ?_, ?_, ?_, ?_, ?_, ?_, ?_, ?_, ?_, ?_, ?_, ?_, ?_, ?_⟩
  · rw [show t.startUp = y.startUp from hk .startUp (by simp), ← hy, hrs]
  · rw [show t.dispenses = y.dispenses from hk .dispenses (by simp), hyd]
  · rw [kc.1, h.owner]
  · rw [kc.2, h.waiting]
  · rw [show t.escrow = y.escrow from hk .escrow (by simp), ← hy]; rfl
  · obtain ⟨s1, s2⟩ := (h.silent.of_lines ktl) p
    obtain ⟨m1, m2, m3, m4⟩ := h.marks p
    have e := congrFun ktl p
    simp only [Ports.lines, PortState.marks, Prod.mk.injEq] at e
    obtain ⟨⟨e1, e2, e3, e4, -⟩, -⟩ := e
    exact ⟨s1, s2, e3.trans m1, e1.trans m2, e2.trans m3, e4.trans m4⟩
  · rw [show t.path = y.path from hk .path (by simp), ← hy]; rfl
  · rw [kj, hr.reservations]
  · rw [kj, hr.retained]
  · rw [kj, hr.durable]
  · rw [kj, hr.trimPoint]
  · rw [kj, hr.waitingDone]
  · rw [ka]; exact hr.monitor
  · rw [kj]; exact hr.first
  · intro hlt hmax
    refine ⟨?_, by rw [kj]; exact hr.gap hlt hmax⟩
    rw [kp, hyp, hr.position]
    simp [hlt]
  · rw [show t.settings = y.settings from hk .settings (by simp), ← hy]; show r.settings = _; rw [hr.rest]
  · rw [show t.clock = y.clock from hk .clock (by simp), ← hy]; show r.clock = _; rw [hr.rest]
  · rw [show t.pins = y.pins from hk .pins (by simp), ← hy]; show r.pins = _; rw [hr.rest]
  · rw [show t.escrow = y.escrow from hk .escrow (by simp), ← hy]
  · have hrp := hr.position
    rw [kp, hyp]
    generalize r.position.integrityFault = i at hrp ⊢
    generalize r.position.lastApplied = a at hrp ⊢
    rw [hrp]
  · rw [kp, hyp]; exact hr.faultKept
  · rw [kp, hyp]; exact hr.faultNone
  · rw [kp, hyp]; exact hr.faultNew
  · rw [kp, hyp]; exact hr.applied
  · rw [ka]; exact hr.armed
  · intro z
    rw [← hr.zones z]
    unfold State.zone
    rw [ka]
    rfl
  · unfold AlarmDerived
    rw [ka]
    exact hr.derived
  · intro ho
    have hd := hk .depository (by simp)
    have e : y.depository = (({ x with depository := x.numbered } : State).slotJudged t.alarm.restriction).begun path := by
      rw [← hy, kar, ← hr.depository ho]
    rw [← e]
    exact hd
  · intro p n hn hne
    refine htold p n (told_of_ports p n r y (hr.tells p n hn fun hm => hne ?_) (by rw [← hy])) fun hm => hne (by simp [hm])
    simp only [List.mem_cons, List.not_mem_nil, or_false] at hm ⊢
    tauto

end Sys2Proof.Machine
end

section
/-! A reset that finds battery-backed state good (R8, R26, R116, R134, R158). -/
namespace Sys2Proof.Machine

/-- What the battery keeps is in the state that CHECK goes on in. -/
structure KeptFrom (s x : State) : Prop where
  reset : ResetFrom s x
  kind : x.startUp.kind ≠ .cold
  position : x.position =
    { s.position with
      generation := s.position.generation + BitVec.ofNat 32 ((s.dispense .a).changed.toNat + (s.dispense .b).changed.toNat) }
  depository : x.depository = s.depository.atReset

/-- The set at a reset is what the zones kept give. -/
theorem StartsFrom.restricted {s x : State} (h : StartsFrom s x) (e : Effect) :
    x.restricted e = Effects.has s.alarm.latchedEffects e := by
  have k : x.alarm.latchedEffects = s.alarm.latchedEffects :=
    (AlarmUnit.derived_congr x.alarm s.alarm fun z => by
      rw [show x.alarm.zone z = (s.zone z).atReset from h.zones z]
      exact ⟨rfl, rfl, rfl⟩).2
  rw [h.derived.restricted, k]

/-- A slot that no envelope is on its way in (R118). -/
def Depository.settledSlot (d : Depository) : Prop := d.slot = .open_ ∨ d.slot = .closed

theorem Depository.judged_settled (d : Depository) (permit : Bool) (h : d.settledSlot) : (d.judged permit).settledSlot := by
  unfold Depository.judged
  rcases h with h | h <;> rw [h] <;> cases permit
  · exact .inr rfl
  · exact .inl h
  · exact .inr rfl
  · exact .inl rfl

theorem Depository.judged_moving (d : Depository) (permit : Bool) (h : ¬d.settledSlot) : d.judged permit = d := by
  unfold Depository.judged
  cases hs : d.slot with
  | closed => exact absurd (.inr hs) h
  | open_ => exact absurd (.inl hs) h
  | intake | imprint | drop | jammed => rfl

theorem Depository.begun_settled (d : Depository) (h : d.settledSlot) : d.begun false = d := by
  unfold Depository.begun
  rcases h with h | h <;> rw [h] <;> rfl

/-- The slot at PURGE, settled where it is judged or left (R118, R134). -/
theorem slot_settled (d : Depository) (judged permit : Bool) (h : d.settledSlot) :
    (if judged then d.judged permit else d).begun false = if judged then d.judged permit else d := by
  cases judged
  · exact d.begun_settled h
  · exact (d.judged permit).begun_settled (d.judged_settled permit h)

/-- The slot at PURGE, with an envelope on its way or jammed (R134). -/
theorem slot_moving (d : Depository) (judged permit : Bool) (h : ¬d.settledSlot) :
    (if judged then d.judged permit else d).begun false = d.begun false := by
  rw [d.judged_moving permit h, ite_self]

theorem PurgeBegun.kept {s x t : State} (h : PurgeBegun false false s x t) (k : KeptFrom s x) :
    BatteryKept x.journal.durable s t := by
  have hs := k.reset.from_.starts
  have found (j : Ix) := found_congr (s := s) (x := x) (k := j) hs.pins (by rw [k.position])
  have gone : x.foundGone = s.foundGone := funext fun j => (found j).1
  have freed : x.foundFreed = s.foundFreed := funext fun j => (found j).2.1
  have torn : x.foundTornAt = s.foundTornAt := funext fun j => (found j).2.2.1
  have failed : x.foundFailed = s.foundFailed := funext fun j => (found j).2.2.2.1
  have sensed : x.sensedCassette = s.sensedCassette := funext fun j => (found j).2.2.2.2
  have notes (test : Ix → Bool) : x.notesIn Ix.all test = s.notesOf test := by
    unfold State.notesIn State.notesOf; rw [k.position]
  refine ⟨h.settings.trans hs.settings, h.clock.trans hs.clock, h.pins.trans hs.pins, ⟨?_, ?_, ?_, ?_, ?_⟩, h.escrow,
    h.armed.trans hs.armed, h.zones, h.derived, fun ho => ?_⟩
  · have hp := h.position
    rw [gone, freed, torn, failed, sensed, notes, notes, k.position] at hp
    refine hp.trans ?_
    simp only [Position.mk.injEq, true_and, and_true]
    refine ⟨rfl, Quad.ext_get fun j => ?_, ?_⟩
    · simp only [Quad.get_zip, Quad.get_toInt]
      rfl
    · refine ⟨rfl, ?_, rfl⟩
      rw [add_assoc, add_assoc, ← BitVec.ofNat_add, ← BitVec.ofNat_add, Nat.add_assoc _ _ (List.length _),
        Nat.add_comm (Bool.toNat _) (List.length _)]
      rfl
  · have e := h.faultKept
    rw [k.position] at e
    exact e
  · have e := h.faultNone
    rw [k.position, failed] at e
    exact e
  · have e := h.faultNew
    rw [k.position, failed, hs.clock] at e
    exact e
  · intro hg
    rw [h.applied (fun j => by rw [gone]; exact hg j), k.position]
  · have hd := h.depository (fun hx => by
      rw [hs.restricted]
      exact ho (by rw [← k.depository]; exact hx))
    have hn : x.numbered = s.depository.atReset := by
      unfold State.numbered
      rw [if_neg k.kind, k.depository]
    have hj : ({ x with depository := x.numbered } : State).slotJudged t.alarm.restriction =
        if decide (Effects.has t.alarm.restriction .slotClose ≠ Effects.has s.alarm.latchedEffects .slotClose) then
          s.depository.atReset.judged
            (decide (s.depository.atReset.bin.count < s.settings.binCapacity) && !Effects.has t.alarm.restriction .slotClose &&
              s.depository.atReset.supervisorOpen)
        else s.depository.atReset := by
      unfold State.slotJudged
      rw [show ({ x with depository := x.numbered } : State).restricted .slotClose = x.restricted .slotClose from rfl,
        hs.restricted, hs.settings, hn]
      simp only [decide_eq_true_eq]
    rw [hj] at hd
    generalize s.depository.atReset = d at hd
    cases hslot : d.slot with
    | intake | imprint | drop | jammed =>
      rw [slot_moving d _ _ (by simp [Depository.settledSlot, hslot]), Depository.begun, hslot] at hd
      exact hd
    | open_ | closed =>
      rw [slot_settled d _ _ (by simp [Depository.settledSlot, hslot])] at hd
      simp only [decide_eq_true_eq, ne_eq, ite_not] at hd
      exact hd

end Sys2Proof.Machine
end

section
/-! What a reset does not keep (R197). -/
namespace Sys2Proof.Machine

/-! ## The zones -/

theorem mapZones_fold (f : Zone → Zone) (l : List (Fin 16)) (u : AlarmUnit) (hn : l.Nodup) :
    (l.foldl (fun u z => u.setZone z (f (u.zone z))) u) =
        { u with zones := (l.foldl (fun u z => u.setZone z (f (u.zone z))) u).zones } ∧
      ∀ y, (l.foldl (fun u z => u.setZone z (f (u.zone z))) u).zone y = if y ∈ l then f (u.zone y) else u.zone y := by
  induction l generalizing u with
  | nil => exact ⟨rfl, fun y => by simp⟩
  | cons z l ih =>
    obtain ⟨hz, hn⟩ := List.nodup_cons.mp hn
    obtain ⟨h1, h2⟩ := ih (u.setZone z (f (u.zone z))) hn
    rw [List.foldl_cons]
    refine ⟨h1, fun y => ?_⟩
    rw [h2 y]
    by_cases hy : y = z
    · subst hy
      rw [if_neg hz, if_pos (by simp), AlarmUnit.zone_setZone_self]
    · rw [AlarmUnit.zone_setZone_other _ _ _ _ hy]
      simp [hy]

/-- Two units' zones are the same where each record is. -/
theorem zones_ext {a b : Vector Zone 16} (h : ∀ z : Fin 16, a.get z = b.get z) : a = b := by
  apply Vector.ext
  intro i hi
  exact h ⟨i, hi⟩

theorem AlarmUnit.withZones_zone (u : AlarmUnit) (f : Fin 16 → Zone) (z : Fin 16) : (u.withZones f).zone z = f z := by
  simp [AlarmUnit.withZones, AlarmUnit.zone, Vector.get_eq_getElem]

theorem AlarmUnit.mapZones_eq (u : AlarmUnit) (f : Zone → Zone) : u.mapZones f = u.withZones (fun z => f (u.zone z)) := by
  have all (z : Fin 16) : z ∈ allZones := by decide +revert
  obtain ⟨h1, h2⟩ := mapZones_fold f allZones u (by decide)
  have hz : (u.mapZones f).zones = (u.withZones (fun z => f (u.zone z))).zones := by
    refine zones_ext fun z => ?_
    have k := h2 z
    rw [if_pos (all z)] at k
    exact k.trans (AlarmUnit.withZones_zone u (fun z => f (u.zone z)) z).symm
  unfold AlarmUnit.mapZones at hz ⊢
  rw [h1, hz]
  rfl

/-- The alarm unit as a reset leaves it (R158). -/
def AlarmUnit.atReset (u : AlarmUnit) : AlarmUnit :=
  { u.withZones (fun z => (u.zone z).atReset) with
    level := u.activeLevel, restriction := u.latchedEffects, silentLine := Effects.has u.latchedEffects .silentLine
    sounder := false, sounderTimer := none, monitorTimer := none, changed := false }

theorem AlarmUnit.restarted_eq (u : AlarmUnit) : u.restarted = u.atReset := by
  have hf : Zone.restarted = Zone.atReset := rfl
  obtain ⟨d1, d2⟩ := AlarmUnit.derived_congr (u.withZones (fun z => (u.zone z).atReset)) u fun z => by
    rw [AlarmUnit.withZones_zone]
    exact ⟨rfl, rfl, rfl⟩
  unfold AlarmUnit.restarted
  rw [u.mapZones_eq, hf]
  dsimp only
  rw [d1, d2]
  rfl

/-! ## The volatile state -/

/-- The owner that the claim has after a reset (R56). -/
def Escrow.holder (e : Escrow) : Owner := if e.stack = [] then .none else .hold

/-- With the owner set so, an OPEN record closes exactly where its stack is empty (R53). -/
theorem Escrow.atReset_eq (e : Escrow) :
    (if e.isOpen = true ∧ e.stack = [] ∧ e.holder ≠ ownerOf e.owner.port then { e with isOpen := false } else e) = e.atReset := by
  have howner (w : Teller) : Owner.none ≠ ownerOf w.port := by cases w <;> decide
  obtain ⟨opn, own, pur, decl, ver, stack, op, tally⟩ := e
  cases stack with
  | nil => cases opn <;> simp [Escrow.atReset, Escrow.holder, howner]
  | cons b beneath => simp [Escrow.atReset]

theorem settleOwner_eq (s : State) :
    settleOwner s = { s with claim := ⟨s.escrow.holder, s.claim.waiting, none⟩, escrow := s.escrow.atReset } := by
  have hs : settleOwner s = setOwner s.escrow.holder s := rfl
  rw [hs, ← Escrow.atReset_eq]
  unfold setOwner
  dsimp only
  split <;> rfl

theorem resetDispenses_eq (s : State) :
    resetDispenses s =
      { s with
        position :=
          { s.position with
            generation :=
              s.position.generation + BitVec.ofNat 32 ((s.dispense .a).changed.toNat + (s.dispense .b).changed.toNat) }
        dispenses := ⟨Dispense.idle, Dispense.idle⟩ } := by
  unfold resetDispenses
  dsimp only
  rw [stepGeneration_counted, stepGeneration_counted]
  simp only [BitVec.ofNat_add, add_assoc]
  rfl

/-- Every block as a reset leaves it, the journal's staging queue apart (R197). -/
def State.atReset (kind : ResetKind) (s : State) : State :=
  { s with
    startUp := ⟨.check, kind⟩
    position :=
      { s.position with
        generation := s.position.generation + BitVec.ofNat 32 ((s.dispense .a).changed.toNat + (s.dispense .b).changed.toNat) }
    dispenses := ⟨Dispense.idle, Dispense.idle⟩
    ports := ⟨PortState.reset, PortState.reset, PortState.reset, PortState.reset⟩
    claim := ⟨s.escrow.holder, [], none⟩
    path := NotePath.clear .purging
    escrow := s.escrow.atReset
    depository := s.depository.atReset
    alarm := s.alarm.atReset
    journal := s.journal.restarted }

theorem beginStartUp_eq (kind : ResetKind) (s : State) : beginStartUp kind s = s.atReset kind := by
  unfold beginStartUp resetVolatile
  dsimp only
  rw [resetDispenses_eq, settleOwner_eq]
  dsimp only
  rw [AlarmUnit.restarted_eq]
  rfl

theorem State.atReset_zone (kind : ResetKind) (s : State) (z : Fin 16) : (s.atReset kind).zone z = (s.zone z).atReset :=
  AlarmUnit.withZones_zone s.alarm (fun z => (s.zone z).atReset) z

theorem State.atReset_derived (kind : ResetKind) (s : State) : AlarmDerived (s.atReset kind) := by
  obtain ⟨d1, d2⟩ := AlarmUnit.derived_congr (s.atReset kind).alarm s.alarm fun z => by
    rw [show (s.atReset kind).alarm.zone z = (s.zone z).atReset from s.atReset_zone kind z]
    exact ⟨rfl, rfl, rfl⟩
  exact ⟨d1.symm, d2.symm, by rw [d2]; rfl⟩

/-- After a warm or supply reset CHECK goes on, once the staging queue is settled. -/
theorem keptFrom_atReset (kind : ResetKind) (s : State) (hk : kind ≠ .cold) (hr : s.position.retract.total < Config.retractNotes) :
    KeptFrom s (loseStaging (s.atReset kind)) := by
  refine ⟨⟨⟨⟨rfl, rfl, rfl, rfl, s.atReset_zone kind, s.atReset_derived kind, by simp [loseStaging, State.onJournal, State.atReset]⟩,
    rfl, rfl, rfl, rfl, rfl⟩, rfl, rfl, rfl, rfl, rfl, ?_, ?_, hr⟩, hk, rfl, rfl⟩
  · intro p
    cases p <;> exact ⟨rfl, rfl⟩
  · intro p
    cases p <;> exact ⟨rfl, rfl, rfl, rfl⟩

theorem StartUpBegun.of_kept {kind : ResetKind} {drum : Bool} {i j : Journal} {p q : Position} {stack : List Bundle} {t : State}
    (h : StartUpBegun kind drum i p stack t) (hr : j.reservations = i.reservations) (he : j.retained = i.retained)
    (hd : j.durable = i.durable) (ht : j.trimPoint = i.trimPoint) (hw : j.waitingDone = i.waitingDone)
    (hq : q.transit = p.transit) (hl : q.lastApplied = p.lastApplied) : StartUpBegun kind drum j q stack t := by
  unfold StartUpBegun at h ⊢
  rw [hr, he, hd, ht, hw, hq, hl]
  exact h

/-- A reset that finds battery-backed state good and no staged record (R197 to R199). -/
theorem reset_begins (kind : ResetKind) (s : State) (hk : kind ≠ .cold) (hr : s.position.retract.total < Config.retractNotes) :
    ∃ t, settle (continueCheck false false (loseStaging (beginStartUp kind s))) = t ∧
      StartUpBegun kind false { s.journal with waitingDone := [] } s.position s.escrow.stack t ∧
      BatteryKept s.journal.durable s t := by
  have k := keptFrom_atReset kind s hk hr
  have h := continueCheck_begun false false k.reset
  rw [beginStartUp_eq]
  exact ⟨_, rfl, h.begun.of_kept rfl rfl rfl rfl rfl rfl rfl, h.kept k⟩

end Sys2Proof.Machine
end

section
/-! A warm reset with records staged: they are written out first, and CHECK goes on with the last (R166, R174, R198). -/
namespace Sys2Proof.Machine

/-! ## Until the staged records are durable -/

/-- A warm reset that finds records staged, before the step ends. -/
def State.warmStaged (w : WarmSource) (s : State) : State :=
  (s.atReset (.warm w)).onJournal (fun j => { j with write := .writing, writing := true })

theorem warmReset_staged (w : WarmSource) (s : State) (h : s.journal.staging ≠ []) : warmReset w s = s.warmStaged w := by
  unfold warmReset
  rw [beginStartUp_eq]
  exact if_neg h

theorem warmReset_clear (w : WarmSource) (s : State) (h : s.journal.staging = []) :
    warmReset w s = continueCheck false false (loseStaging (beginStartUp (.warm w) s)) := by
  unfold warmReset
  refine if_pos ?_
  rw [beginStartUp_eq]
  exact h

theorem settle_still (s : State) (hq : Quiet s) (hp : s.powered = true) (hs : PortsSilent s) (hr : s.startUp.phase ≠ .ready)
    (hc : s.alarm.changed = false) : (settle s).ports = s.ports := by
  rw [settle_quiet s hq hp]
  have hx : flushAlarm (rewriteDisplay (watchIdle s)) = rewriteDisplay (watchIdle s) := by
    unfold flushAlarm
    rw [if_neg (by simp [hc])]
  have hsil : PortsSilent (rewriteDisplay (watchIdle s)) := hs.of_lines (by simp)
  have hph : (rewriteDisplay (watchIdle s)).startUp.phase ≠ .ready := by simpa using hr
  have hports : (rewriteDisplay (watchIdle s)).ports = s.ports := by simp
  rw [hx]
  generalize rewriteDisplay (watchIdle s) = y at hsil hph hports
  unfold pumpAll
  rw [pump_silent .a y hsil hph, pump_silent .b y hsil hph, pump_silent .s y hsil hph, pump_silent .m y hsil hph]
  exact hports

theorem portsSilent_reset (s : State) (h : s.ports = ⟨PortState.reset, PortState.reset, PortState.reset, PortState.reset⟩) :
    PortsSilent s := by
  intro p
  rw [h]
  cases p <;> exact ⟨rfl, rfl⟩

/-- The records staged are being written out. -/
theorem warmStaged_begins (w : WarmSource) (s : State) :
    ∃ t : State,
      settle (s.warmStaged w) = t ∧ t.startUp = ⟨.check, .warm w⟩ ∧ KeptAtReset s t ∧
        t.dispenses = ⟨Dispense.idle, Dispense.idle⟩ ∧ ClaimIs (if s.escrow.stack = [] then .none else .hold) [] t ∧
        t.path = { state := .purging, pick := none, draw := none, purge := none, timers := [] } ∧
        t.ports = ⟨PortState.reset, PortState.reset, PortState.reset, PortState.reset⟩ ∧ t.journal.endHold = [] ∧
        t.journal.staging = s.journal.staging ∧
        t.journal.retained = s.journal.retained ∧ t.journal.durable = s.journal.durable ∧
        t.journal.reservations = s.journal.reservations ∧ t.journal.waitingDone = s.journal.waitingDone ∧
        t.journal.write = .writing ∧ t.journal.writing = true ∧ t.journal.attempts = 0 := by
  have hq := quiet_of_no_dispense (s.warmStaged w) rfl
  have hk := settle_keeps_quiet (s.warmStaged w) hq rfl
  have hports := settle_still (s.warmStaged w) hq rfl (portsSilent_reset _ rfl) (by simp [State.warmStaged, State.atReset,
      State.onJournal]) rfl
  generalize settle (s.warmStaged w) = t at hk hports
  have kj : t.journal = (s.warmStaged w).journal := hk .journal (by simp)
  have kc : t.claim.owner = (s.warmStaged w).claim.owner ∧ t.claim.waiting = (s.warmStaged w).claim.waiting := hk .claim (by simp)
  refine ⟨t, rfl, hk .startUp (by simp), ⟨hk .settings (by simp), hk .clock (by simp), hk .pins (by simp), hk .position (by simp),
    hk .escrow (by simp), ?_, ?_⟩, hk .dispenses (by simp), ⟨kc.1, kc.2⟩, hk .path (by simp), hports, ?_, ?_, ?_, ?_, ?_, ?_, ?_, ?_, ?_⟩
  · exact hk .depository (by simp)
  · have ka : { t.alarm with changed := (s.warmStaged w).alarm.changed } = (s.warmStaged w).alarm := hk .alarm (by simp)
    exact congrArg (fun u : AlarmUnit => { u with changed := s.alarm.changed }) ka
  all_goals rw [kj]; rfl

end Sys2Proof.Machine
end

section
/-! The last staged record of a warm reset is durable (R92, R166, R198). -/
namespace Sys2Proof.Machine

/-! ## OP_DONEs raised (R92) -/

/-- OP_DONE raised for each of the operations listed. -/
def raiseDue (due : List WaitingDone) (s : State) : State := due.foldl (fun s w => raise w.port (.opDone w.done) s) s

theorem raiseDue_rest (due : List WaitingDone) (s : State) :
    raiseDue due s = { s with ports := (raiseDue due s).ports } ∧ (raiseDue due s).ports.lines = s.ports.lines := by
  induction due generalizing s with
  | nil => exact ⟨rfl, rfl⟩
  | cons w due ih =>
    obtain ⟨h1, h2⟩ := ih (raise w.port (.opDone w.done) s)
    have hr : raise w.port (.opDone w.done) s = { s with ports := (raise w.port (.opDone w.done) s).ports } := rfl
    refine ⟨?_, h2.trans (raise_lines _ _ _)⟩
    exact h1.trans (congrArg (fun x : State => { x with ports := (raiseDue (w :: due) s).ports }) hr)

/-- An operation's OP_DONE is told where its port has no other among those raised. -/
theorem raiseDue_told (due : List WaitingDone) (s : State) (x : WaitingDone)
    (hu : ∀ y ∈ due, y.port = x.port → y = x) (hx : x ∈ due ∨ Told x.port (.opDone x.done) s) :
    Told x.port (.opDone x.done) (raiseDue due s) := by
  induction due generalizing s with
  | nil => exact hx.resolve_left (by simp)
  | cons w due ih =>
    refine ih (raise w.port (.opDone w.done) s) (fun y hy => hu y (by simp [hy])) ?_
    by_cases hw : w.port = x.port
    · rw [hu w (by simp) hw]
      exact .inr (raise_told _ _ _)
    · rcases hx with hx | hx
      · rcases List.mem_cons.mp hx with e | e
        · exact absurd (by rw [e]) hw
        · exact .inl e
      · exact .inr (raise_told_other _ _ _ _ _ hx (.inl (Ne.symm hw)))

/-! ## The record durable -/

/-- The journal with its one staged record durable, and the OP_DONEs that waited on it no longer waiting. -/
def Journal.durableWith (r : Record) (j : Journal) : Journal :=
  { j with
    staging := [], retained := j.retained ++ [r], durable := r.sequence, attempts := 0, write := .idle, writing := false
    waitingDone := j.waitingDone.filter (fun w => w.done.closing != r.sequence) }

/-- The state in which CHECK goes on, with the last staged record durable. -/
def State.recordDurable (r : Record) (s : State) : State :=
  raiseDue (s.journal.waitingDone.filter (fun w => w.done.closing == r.sequence)) { s with journal := s.journal.durableWith r }

theorem answerSync_silent (p : Port) (s : State) (h : PortsSilent s) : answerSync p s = s := by
  have e : s.awaited p = none := by
    unfold State.awaited
    rw [(h p).1]
  unfold answerSync
  rw [e]

theorem recordDurable_rest (r : Record) (s : State) :
    s.recordDurable r = { s with journal := s.journal.durableWith r, ports := (s.recordDurable r).ports } ∧
      (s.recordDurable r).ports.lines = s.ports.lines :=
  raiseDue_rest _ _

theorem writeCompleted_check (r : Record) (s : State) (hp : s.startUp.phase = .check) (hw : s.journal.writing = true)
    (hs : s.journal.staging = [r]) (he : s.journal.endHold = []) (hq : PortsSilent s) :
    writeCompleted s = continueCheck false false (s.recordDurable r) := by
  obtain ⟨hrest, hl⟩ := recordDurable_rest r s
  have hsil : PortsSilent (s.recordDurable r) := hq.of_lines hl
  have hraise : raiseDone r.sequence (retainHead r [] s) = s.recordDurable r := rfl
  have hans : answerSyncs (s.recordDurable r) = s.recordDurable r := by
    unfold answerSyncs
    rw [answerSync_silent .a _ hsil, answerSync_silent .b _ hsil, answerSync_silent .s _ hsil, answerSync_silent .m _ hsil]
  have hend : (s.recordDurable r).journal.endHold = [] := by rw [hrest]; exact he
  have hstag : (s.recordDurable r).journal.staging = [] := by rw [hrest]; rfl
  have hphase : (s.recordDurable r).startUp.phase = .check := by rw [hrest]; exact hp
  unfold writeCompleted
  rw [if_pos hw, hs]
  dsimp only
  rw [hraise, hans, hend]
  have hdrain : drainEndHold ([] : List HeldEnd).length (s.recordDurable r) = s.recordDurable r := rfl
  rw [hdrain]
  unfold checkGoesOn
  rw [if_pos ⟨hphase, hstag⟩]

/-- CHECK goes on in a state that the battery kept. -/
theorem keptFrom_durable (r : Record) (w : WarmSource) (s : State) (hu : s.startUp = ⟨.check, .warm w⟩)
    (hd : s.dispenses = ⟨Dispense.idle, Dispense.idle⟩) (hcw : s.claim.waiting = [])
    (hco : s.claim.owner = if s.escrow.stack = [] then .none else .hold)
    (hp : s.ports = ⟨PortState.reset, PortState.reset, PortState.reset, PortState.reset⟩)
    (hroom : s.position.retract.total < Config.retractNotes) (hk : KeptAtReset s s)
    (hpath : s.path = { state := .purging, pick := none, draw := none, purge := none, timers := [] }) :
    KeptFrom s (s.recordDurable r) := by
  obtain ⟨hrest, hl⟩ := recordDurable_rest r s
  obtain ⟨-, -, -, -, hesc, hdep, halarm⟩ := hk
  have hdep : s.depository = s.depository.atReset := hdep
  have halarm : s.alarm =
      { s.alarm.withZones (fun z => (s.zone z).atReset) with
        level := s.alarm.activeLevel, restriction := s.alarm.latchedEffects
        silentLine := Effects.has s.alarm.latchedEffects .silentLine
        sounder := false, sounderTimer := none, monitorTimer := none } := halarm
  have hzones : s.alarm.zones = (s.alarm.withZones (fun z => (s.zone z).atReset)).zones := (congrArg AlarmUnit.zones halarm :)
  have hlevel : s.alarm.level = s.alarm.activeLevel := (congrArg AlarmUnit.level halarm :)
  have hset : s.alarm.restriction = s.alarm.latchedEffects := (congrArg AlarmUnit.restriction halarm :)
  have hsilent : s.alarm.silentLine = Effects.has s.alarm.latchedEffects .silentLine :=
    (congrArg AlarmUnit.silentLine halarm :)
  have hz (z : Fin 16) : s.zone z = (s.zone z).atReset :=
    (AlarmUnit.zone_of_zones hzones z).trans (AlarmUnit.withZones_zone s.alarm (fun z => (s.zone z).atReset) z)
  have hsil := (portsSilent_reset s hp).of_lines hl
  have hmarks (p : Port) : ((s.recordDurable r).ports.get p).approval = none ∧ ((s.recordDurable r).ports.get p).frameFlag = false ∧
      ((s.recordDurable r).ports.get p).overrunFlag = false ∧ ((s.recordDurable r).ports.get p).duressPending = false := by
    have e := congrFun hl p
    simp only [Ports.lines, PortState.marks, Prod.mk.injEq] at e
    obtain ⟨⟨e1, e2, e3, e4, -⟩, -⟩ := e
    rw [e1, e2, e3, e4, hp]
    cases p <;> exact ⟨rfl, rfl, rfl, rfl⟩
  generalize s.recordDurable r = x at hrest hl hsil hmarks
  have hxz (z : Fin 16) : x.zone z = s.zone z := by rw [hrest]; rfl
  have hkind : x.startUp.kind ≠ .cold := by rw [hrest]; show s.startUp.kind ≠ _; rw [hu]; simp
  have hphase : x.startUp.phase = .check := by rw [hrest]; show s.startUp.phase = _; rw [hu]
  have hidle (v : Teller) : (s.dispense v).changed = false := by
    unfold State.dispense
    rw [hd]
    cases v <;> rfl
  refine ⟨⟨⟨⟨?_, ?_, ?_, ?_, fun z => (hxz z).trans (hz z), ?_, by rw [hphase]; decide⟩, ?_, ?_, ?_, ?_, ?_⟩, hphase, ?_, ?_, ?_, ?_, hsil,
    hmarks, ?_⟩, hkind, ?_, ?_⟩
  · rw [hrest]
  · rw [hrest]
  · rw [hrest]
  · rw [hrest]
  · rw [hrest]; exact ⟨hlevel, hset, hsilent⟩
  · rw [hrest]; rfl
  · rw [hrest]; exact hd
  · rw [hrest]
  · rw [hrest]; show s.depository.entry = _; rw [hdep]; rfl
  · rw [hrest]; show s.depository.keypadTimer = _; rw [hdep]; rfl
  · rw [hrest]; exact hesc
  · rw [hrest]; exact hco
  · rw [hrest]; exact hcw
  · rw [hrest]; exact hpath
  · rw [hrest]; exact hroom
  · rw [hrest, hidle, hidle]; simp
  · rw [hrest]; exact hdep

/-- CHECK goes on when the last staged record of a warm reset is durable. -/
theorem writeComplete_begins (r : Record) (w : WarmSource) (s : State) (hu : s.startUp = ⟨.check, .warm w⟩)
    (hw : s.journal.writing = true) (hs : s.journal.staging = [r]) (he : s.journal.endHold = [])
    (hd : s.dispenses = ⟨Dispense.idle, Dispense.idle⟩) (hcw : s.claim.waiting = [])
    (hco : s.claim.owner = if s.escrow.stack = [] then .none else .hold)
    (hp : s.ports = ⟨PortState.reset, PortState.reset, PortState.reset, PortState.reset⟩)
    (hroom : s.position.retract.total < Config.retractNotes) (hk : KeptAtReset s s)
    (hpath : s.path = { state := .purging, pick := none, draw := none, purge := none, timers := [] }) :
    ∃ t : State,
      exec .writeComplete s = .next t ∧ BatteryKept r.sequence s t ∧
        StartUpBegun (.warm w) false
            { s.journal with
              retained := s.journal.retained ++ [r], durable := r.sequence
              waitingDone := s.journal.waitingDone.filter (fun x => x.done.closing ≠ r.sequence) }
            s.position s.escrow.stack t ∧
          ∀ x ∈ s.journal.waitingDone, x.done.closing = r.sequence →
            (∀ y ∈ s.journal.waitingDone, y.done.closing = r.sequence → y.port = x.port → y = x) →
            Told x.port (.opDone x.done) t := by
  have k := keptFrom_durable r w s hu hd hcw hco hp hroom hk hpath
  have h := continueCheck_begun false false k.reset
  obtain ⟨hrest, -⟩ := recordDurable_rest r s
  have hphase : s.startUp.phase = .check := by rw [hu]
  have hpow : s.powered = true := by simp [State.powered, hphase]
  have hexec : exec .writeComplete s = .next (settle (continueCheck false false (s.recordDurable r))) := by
    have e : exec .writeComplete s = done (if s.powered then writeCompleted s else s) := rfl
    rw [e, if_pos hpow, writeCompleted_check r s hphase hw hs he (portsSilent_reset s hp)]
    rfl
  have hj : (s.recordDurable r).journal = s.journal.durableWith r := by rw [hrest]
  have hkind : (s.recordDurable r).startUp.kind = .warm w := by rw [hrest]; show s.startUp.kind = _; rw [hu]
  have hpos : (s.recordDurable r).position = s.position := by rw [hrest]
  refine ⟨_, hexec, ?_, ?_, fun x hx hc hone => ?_⟩
  · have e := h.kept k
    rwa [hj] at e
  · have e := h.begun
    rw [hkind, hj, hpos] at e
    exact e.of_kept rfl rfl rfl rfl (List.filter_congr fun y _ => Bool.eq_iff_iff.mpr (by simp)) rfl rfl
  · refine h.tells _ _ (raiseDue_told _ _ x (fun y hy hport => ?_) (.inl ?_)) (by simp [Notice.kind])
    · obtain ⟨hm, hcl⟩ := List.mem_filter.mp hy
      exact hone y hm (by simpa using hcl) hport
    · exact List.mem_filter.mpr ⟨hx, by simpa using hc⟩

end Sys2Proof.Machine
end

section
/-! A reset that finds battery-backed state lost (R26, R128, R134, R136, R158, R193, R198). -/
namespace Sys2Proof.Machine

/-! ## The envelope sequence number (R128) -/

theorem Record.numbersEnvelope_iff (r : Record) : r.numbersEnvelope = true ↔ r.kind = .envelope ∧ r.outcome ≠ 4 := by
  simp [Record.numbersEnvelope]

theorem envelopeSequence_none (j : Journal) (h : ∀ r ∈ j.retained, ¬(r.kind = .envelope ∧ r.outcome ≠ 4)) : j.envelopeSequence = 1 := by
  have e : j.retained.reverse.find? Record.numbersEnvelope = none := by
    rw [List.find?_eq_none]
    intro r hr
    rw [r.numbersEnvelope_iff]
    exact h r (List.mem_reverse.mp hr)
  unfold Journal.envelopeSequence
  rw [e]

theorem envelopeSequence_last (j : Journal) (before after : List Record) (r : Record) (hj : j.retained = before ++ r :: after)
    (hr : r.kind = .envelope ∧ r.outcome ≠ 4) (ha : ∀ x ∈ after, ¬(x.kind = .envelope ∧ x.outcome ≠ 4)) :
    j.envelopeSequence = if 9999999 ≤ r.extra then 1 else r.extra + 1 := by
  have e : j.retained.reverse.find? Record.numbersEnvelope = some r := by
    have hnone : after.reverse.find? Record.numbersEnvelope = none := by
      rw [List.find?_eq_none]
      intro x hx
      rw [x.numbersEnvelope_iff]
      exact ha x (List.mem_reverse.mp hx)
    rw [hj, List.reverse_append, List.reverse_cons, List.append_assoc, List.find?_append, hnone]
    simp [r.numbersEnvelope_iff.mpr hr]
  unfold Journal.envelopeSequence
  rw [e]
  rfl

/-! ## The cold-start state -/

/-- The state whose zones, settings and position a failed memory check leaves start-up with. -/
def State.coldFound (s : State) : State :=
  { s with
    settings := Settings.defaults, clock := ⟨0, true⟩
    position := Position.cold s.pins.cassettePresent s.journal.durable
    alarm := { s.alarm with zones := coldZones, armed := false }
    escrow := Escrow.closed }

/-- The state in which CHECK goes on at a cold start, RESTRICTION not yet raised. -/
def State.coldReset (s : State) : State :=
  { loseStaging (s.atReset .cold) with
    clock := ⟨0, true⟩
    position := Position.cold s.pins.cassettePresent s.journal.durable
    settings := Settings.defaults
    escrow := Escrow.closed
    depository := Depository.cold 1
    alarm := AlarmUnit.cold
    claim := ⟨.none, [], none⟩ }

theorem coldStart_rest (s : State) :
    coldStart (loseStaging (beginStartUp .cold s)) = { s.coldReset with ports := (raiseRestriction s.coldReset).ports } := by
  rw [beginStartUp_eq]
  exact raiseRestriction_rest s.coldReset

theorem coldZones_atReset (z : Fin 16) : (coldZones.get z).atReset = coldZones.get z := by decide +revert

theorem alarmUnit_cold_derived :
    AlarmUnit.cold.level = AlarmUnit.cold.activeLevel ∧ AlarmUnit.cold.restriction = AlarmUnit.cold.latchedEffects ∧
      AlarmUnit.cold.silentLine = Effects.has AlarmUnit.cold.latchedEffects .silentLine := by decide

theorem resetFrom_cold (s : State) : ResetFrom s.coldFound (coldStart (loseStaging (beginStartUp .cold s))) := by
  have hrest := coldStart_rest s
  have hl := raiseRestriction_lines s.coldReset
  rw [hrest]
  have hsil : PortsSilent ({ s.coldReset with ports := (raiseRestriction s.coldReset).ports } : State) :=
    (portsSilent_reset s.coldReset rfl).of_lines hl
  generalize (raiseRestriction s.coldReset).ports = P at hl hsil
  refine ⟨⟨⟨rfl, rfl, rfl, rfl, fun z => (coldZones_atReset z).symm, alarmUnit_cold_derived, ?_⟩, rfl, rfl, rfl, rfl, rfl⟩, rfl,
      rfl, rfl, rfl,
    rfl, hsil, fun p => ?_, ?_⟩
  · show Phase.check ≠ Phase.ready
    decide
  · have e := congrFun hl p
    simp only [Ports.lines, PortState.marks, Prod.mk.injEq] at e
    obtain ⟨⟨e1, e2, e3, e4, -⟩, -⟩ := e
    refine ⟨e3.trans ?_, e1.trans ?_, e2.trans ?_, e4.trans ?_⟩ <;> cases p <;> rfl
  · show Quad.zero.total < Config.retractNotes
    decide

/-! ## Start-up from it -/

/-- At a cold start the cassette records say what the sensors show: nothing is found changed. -/
theorem cold_found (s x : State) (hp : x.pins = s.pins) (hx : x.position = Position.cold s.pins.cassettePresent s.journal.durable)
    (k : Ix) : x.foundGone k = false ∧ x.foundFreed k = false ∧ x.foundTornAt k = false ∧ x.foundFailed k = false ∧
      x.sensedCassette k = x.position.cassettes.get k := by
  have hs : (x.position.cassettes.get k).state = if s.pins.cassettePresent.get k then .uncounted else .absent := by
    rw [hx]; cases k <;> rfl
  have hi : (x.position.cassettes.get k).intact = true := by rw [hx]; cases k <;> rfl
  have hg : x.foundGone k = false := by
    unfold State.foundGone
    rw [hs, hp]
    cases s.pins.cassettePresent.get k <;> rfl
  refine ⟨hg, by simp [State.foundFreed, hg], by simp [State.foundTornAt, hg], by simp [State.foundFailed, hi], ?_⟩
  have hn : ¬(x.pins.cassettePresent.get k = true ∧ (x.position.cassettes.get k).state = .absent) := by
    rw [hs, hp]
    cases s.pins.cassettePresent.get k <;> simp
  unfold State.sensedCassette
  simp only [hg, hn, Bool.false_eq_true, if_false]

theorem cold_slot (x : State) (sequence : Nat) (set : Effects) (hd : x.depository = { Depository.cold 1 with sequence := sequence }) :
    x.slotJudged set = { Depository.cold 1 with sequence := sequence } := by
  unfold State.slotJudged
  rw [hd]
  split
  · simp [Depository.judged, Depository.cold]
  · rfl

theorem notesIn_none (x : State) (l : List Ix) (test : Ix → Bool) (h : ∀ k, test k = false) : x.notesIn l test = Quad.zero := by
  unfold State.notesIn
  induction l with
  | nil => rfl
  | cons k l ih => rw [List.foldl_cons, if_neg (by simp [h k]), ih]

theorem PurgeBegun.cold_position {drum path : Bool} {s x t : State} (h : PurgeBegun drum path s.coldFound x t) (hp : x.pins = s.pins)
    (hx : x.position = Position.cold s.pins.cassettePresent s.journal.durable) (hj : x.journal.durable = s.journal.durable) :
    t.position = Position.cold s.pins.cassettePresent s.journal.durable := by
  have found := cold_found s x hp hx
  have hlast : x.position.lastApplied = s.journal.durable := by rw [hx]; rfl
  have hfault : x.position.integrityFault = none := by rw [hx]; rfl
  have hfailed : Ix.all.any x.foundFailed = false := by simp [List.any_eq_false, (found _).2.2.2.1]
  have htorn : Ix.all.any x.foundTornAt = false := by simp [List.any_eq_false, (found _).2.2.1]
  have hgone : Ix.all.filter x.foundGone = [] := by simp [List.filter_eq_nil_iff, (found _).1]
  have hcs : Quad.of x.sensedCassette = x.position.cassettes := Quad.ext_get fun k => by rw [Quad.get_of, (found k).2.2.2.2]
  have hdisc : Quad.zip (fun (a : Int) (n : Nat) => a + n) x.position.discrepancy Quad.zero = x.position.discrepancy :=
    Quad.ext_get fun k => by simp
  have hunl : Quad.add x.position.flows.unloaded Quad.zero = x.position.flows.unloaded := Quad.ext_get fun k => by simp
  have hcommit : s.coldFound.escrow.commitBegun = false := rfl
  have k := h.position
  rw [h.faultNone hfault hfailed, h.applied fun j => (found j).1, hfailed, htorn, hgone, hcs,
    notesIn_none x _ _ fun j => (found j).2.2.1, notesIn_none x _ _ fun j => (found j).2.1, hdisc, hunl, hcommit, hlast, hj] at k
  rw [k, hx]
  simp [Position.cold]

theorem DepositoryIs.shown {d : Depository} {t : State} (h : DepositoryIs d t) :
    ∃ line : List Char, t.depository = { d with display := line } := by
  have e : { t.depository with display := d.display } = d := h
  exact ⟨t.depository.display, by rw [← e]⟩

theorem PurgeBegun.cold_started {drum path : Bool} {s x t : State} (h : PurgeBegun drum path s.coldFound x t)
    (hc : StartsFrom s.coldFound x)
    (hk : x.startUp.kind = .cold) (hx : x.position = Position.cold s.pins.cassettePresent s.journal.durable)
    (hd : x.depository = Depository.cold 1) (hj : x.journal.retained = s.journal.retained)
    (hjd : x.journal.durable = s.journal.durable) : ColdStarted path s t := by
  refine ⟨h.settings.trans hc.settings, h.clock.trans hc.clock, h.pins.trans hc.pins, ?_, h.escrow, h.armed.trans hc.armed, h.zones,
    h.derived, x.journal.envelopeSequence, ?_, ?_, ?_⟩
  · rw [h.cold_position hc.pins hx hjd]
    have hcs : (Position.cold s.pins.cassettePresent s.journal.durable).cassettes = Quad.of (fun k =>
        ({ mode := if k = .i4 then .deposit else .recycle, index := if k = .i4 then none else some k
           counts := Quad.zero, capacity := 2500, low := 50
           state := if s.pins.cassettePresent.get k then .uncounted else .absent, pickFailed := false, intact := true } : Cassette)) :=
      Quad.ext_get fun k => by cases k <;> rfl
    rw [← hcs]
    rfl
  · intro hr
    exact envelopeSequence_none _ (by rw [hj]; exact hr)
  · intro before after r hb hr ha
    exact envelopeSequence_last _ before after r (hj.trans hb) hr ha
  · have hn : x.numbered = { Depository.cold 1 with sequence := x.journal.envelopeSequence } := by
      unfold State.numbered
      rw [if_pos hk, hd]
    have hdep := h.depository (fun ho => by rw [hd] at ho; exact absurd ho (by decide))
    rw [cold_slot _ x.journal.envelopeSequence _ hn] at hdep
    obtain ⟨line, hl⟩ := hdep.shown
    unfold DepositoryIs
    rw [hl]
    cases path <;> rfl

/-- A supply reset with the memory check failed (R197 to R199). -/
theorem cold_begins (drum path : Bool) (s : State) :
    ∃ t : State,
      settle (continueCheck drum path (coldStart (loseStaging (beginStartUp .cold s)))) = t ∧
        StartUpBegun .cold drum { s.journal with waitingDone := [] }
          (Position.cold s.pins.cassettePresent s.journal.durable) [] t ∧
        ColdStarted path s t := by
  have r := resetFrom_cold s
  have h := continueCheck_begun drum path r
  have hrest := coldStart_rest s
  generalize coldStart (loseStaging (beginStartUp .cold s)) = x at r h hrest
  have hk : x.startUp.kind = .cold := by rw [hrest]; rfl
  have hx : x.position = Position.cold s.pins.cassettePresent s.journal.durable := by rw [hrest]; rfl
  have hj : x.journal = (loseStaging (s.atReset .cold)).journal := by rw [hrest]; rfl
  refine ⟨_, rfl, ?_, h.cold_started r.from_.starts hk hx (by rw [hrest]; rfl) (by rw [hj]; rfl) (by rw [hj]; rfl)⟩
  have e := h.begun
  rw [hk, hx, hj] at e
  exact e.of_kept rfl rfl rfl rfl rfl rfl rfl

end Sys2Proof.Machine
end

section
/-! The reset causes (R197, R198). -/
namespace Sys2Proof.Machine

theorem settle_unpowered (s : State) (h : s.powered = false) : settle s = s := by
  unfold settle
  rw [if_neg (by simp [h])]

/-- A cause that finds nothing to do, or nothing that it may reset. -/
theorem does_nothing (c : Instr) (s : State) (hp : s.powered = true) (hq : Quiet s) (he : exec c s = done s) :
    Does c [] s (fun _ => True) :=
  does_done c [] s s _ he hq hp (fun b _ => by cases b <;> simp [Kept]) fun _ _ _ => trivial

theorem exec_supplyApplied (memoryGood drum path : Bool) (s : State) (h : s.powered = false) :
    exec (.supplyApplied memoryGood drum path) s =
      .next (settle
        (if memoryGood then continueCheck false false (loseStaging (beginStartUp .powerUp s))
        else continueCheck drum path (coldStart (loseStaging (beginStartUp .cold s))))) := by
  have e : exec (.supplyApplied memoryGood drum path) s = done (supplyApplied memoryGood drum path s) := rfl
  rw [e]
  unfold supplyApplied
  rw [if_neg (by simp [h])]
  rfl

/-- The three causes of a warm reset (R197; notes/assumptions/30.md). -/
theorem exec_warm (c : Instr) (w : WarmSource) (s : State) (hp : s.powered = true)
    (h : (c = .resetLine ∧ w = .resetLine) ∨ ((c = .frameSent .s ∨ c = .restartReset) ∧ w = .restart ∧ s.restartSending = true)) :
    exec c s = .next (settle (warmReset w s)) := by
  rcases h with ⟨rfl, rfl⟩ | ⟨rfl | rfl, rfl, hr⟩
  · exact congrArg done (if_pos hp)
  · exact congrArg done ((if_pos hp).trans (if_pos ⟨rfl, hr⟩))
  · exact congrArg done (if_pos ⟨hp, hr⟩)

/-- RESTART is answered OK, with nothing changed until the reply has been sent (R197). -/
theorem restart_replies (f : Frame) (s : State) (h : Taken .restart f s) :
    Replies (.restart f) .restart f .ok .none [] s (fun _ => True) :=
  replies_with (.restart f) .restart f (fun _ => restartOwner) .ok .none [] s (reached .restart f s) _ rfl h rfl
    (reached_quiet .restart f s h) (reached_ready .restart f s h) rfl (reached_kept .restart f s h rfl) fun _ _ _ => trivial

/-- A warm reset: at once where no record is staged, otherwise once the staged records are written out. -/
theorem warm_resets (c : Instr) (w : WarmSource) (s : State) (hx : exec c s = .next (settle (warmReset w s))) :
    (s.journal.staging = [] → s.position.retract.total < Config.retractNotes →
      ∃ t : State, exec c s = .next t ∧
        StartUpBegun (.warm w) false { s.journal with waitingDone := [] } s.position s.escrow.stack t ∧
        BatteryKept s.journal.durable s t) ∧
    (s.journal.staging ≠ [] →
      ∃ t : State,
        exec c s = .next t ∧ t.startUp = ⟨.check, .warm w⟩ ∧ KeptAtReset s t ∧
          t.dispenses = ⟨Dispense.idle, Dispense.idle⟩ ∧ ClaimIs (if s.escrow.stack = [] then .none else .hold) [] t ∧
          t.path = { state := .purging, pick := none, draw := none, purge := none, timers := [] } ∧
          t.ports = ⟨PortState.reset, PortState.reset, PortState.reset, PortState.reset⟩ ∧ t.journal.endHold = [] ∧
          t.journal.staging = s.journal.staging ∧
          t.journal.retained = s.journal.retained ∧ t.journal.durable = s.journal.durable ∧
          t.journal.reservations = s.journal.reservations ∧ t.journal.waitingDone = s.journal.waitingDone ∧
          t.journal.write = .writing ∧ t.journal.writing = true ∧ t.journal.attempts = 0) := by
  refine ⟨fun hs hroom => ?_, fun hs => ?_⟩
  · rw [warmReset_clear w s hs] at hx
    obtain ⟨t, ht, hb, hk⟩ := reset_begins (.warm w) s (by simp) hroom
    rw [ht] at hx
    exact ⟨t, hx, hb, hk⟩
  · rw [warmReset_staged w s hs] at hx
    obtain ⟨t, ht, hrest⟩ := warmStaged_begins w s
    rw [ht] at hx
    exact ⟨t, hx, hrest⟩

/-- Settles O58: the causes of a reset, and what each leaves when start-up has come to phase PURGE. -/
theorem resetsBeginStartUp : Obligations.ResetsBeginStartUp := by
  unfold Obligations.ResetsBeginStartUp
  refine ⟨fun s => ?_, fun s good drum path hp hq => ?_, fun s drum path hp => ⟨fun hroom => ?_, ?_⟩, fun f s h => restart_replies f s h,
    fun s hp => ?_, fun s hp hr hq => ?_, fun c w s hp hc => warm_resets c w s (exec_warm c w s hp hc),
    fun r w s hu hw hs he hd hcw hco hports hroom hk hpath =>
      writeComplete_begins r w s hu hw hs he hd hcw hco hports hroom hk hpath⟩
  · exact congrArg Host.Outcome.next (settle_unpowered _ rfl)
  · refine does_nothing _ s hp hq (congrArg done ?_)
    unfold supplyApplied
    exact if_pos hp
  · obtain ⟨t, ht, hb, hk⟩ := reset_begins .powerUp s (by simp) hroom
    refine ⟨t, ?_, hb, hk⟩
    rw [exec_supplyApplied true drum path s hp, ← ht]
    rfl
  · obtain ⟨t, ht, hb⟩ := cold_begins drum path s
    refine ⟨t, ?_, hb⟩
    rw [exec_supplyApplied false drum path s hp, ← ht]
    rfl
  · refine Eq.trans (congrArg done (if_neg (by simp [hp]))) ?_
    exact congrArg Host.Outcome.next (settle_unpowered s hp)
  · exact does_nothing _ s hp hq (congrArg done (if_neg (by simp [hr])))

end Sys2Proof.Machine
end

section
/-! Decimal digits of a number, most significant first, and the packed amounts they make (R27, R28). -/
namespace Sys2Proof.Machine

/-! ## Decimal digits -/

/-- The lowest n decimal digits of a number, most significant first. -/
def lastDigits : Nat → Nat → List Nat
  | 0, _ => []
  | n + 1, v => v / 10 ^ n % 10 :: lastDigits n v

theorem lastDigits_le (n v : Nat) : ∀ d ∈ lastDigits n v, d ≤ 9 := by
  induction n with
  | zero => simp [lastDigits]
  | succ n ih =>
    have := Nat.mod_lt (v / 10 ^ n) (show 0 < 10 by decide)
    simp only [lastDigits, List.forall_mem_cons]
    exact ⟨by omega, ih⟩

theorem foldl_lastDigits (n v acc : Nat) :
    (lastDigits n v).foldl (fun n d => n * 10 + d) acc = acc * 10 ^ n + v % 10 ^ n := by
  induction n generalizing acc with
  | zero => simp [lastDigits, Nat.mod_one]
  | succ n ih =>
    rw [lastDigits, List.foldl_cons, ih, Nat.mod_pow_succ]
    ring

/-- The lowest digits spell the number, as far as they go. -/
theorem decimal_lastDigits (n v : Nat) : decimal (lastDigits n v) = v % 10 ^ n := by
  rw [decimal, foldl_lastDigits, Nat.zero_mul, Nat.zero_add]

theorem badDigitAt_none (n : Nat) (l : List Nat) (h : ∀ d ∈ l, d ≤ 9) : badDigitAt n l = none := by
  induction l generalizing n with
  | nil => rfl
  | cons d l ih =>
    obtain ⟨hd, hl⟩ := List.forall_mem_cons.mp h
    rw [badDigitAt, if_neg (by omega), ih _ hl]

/-! ## Packed bytes (R27) -/

/-- The halves of a packed byte are what was packed. -/
theorem digitsOf_packByte (hi lo : Nat) (h : hi < 16) (l : lo < 16) : digitsOf [packByte hi lo] = [hi, lo] := by
  have hb : (packByte hi lo).toNat = hi * 16 + lo := by
    rw [packByte, BitVec.toNat_ofNat]
    omega
  simp only [digitsOf, List.flatMap_cons, List.flatMap_nil, List.append_nil, hb, List.cons.injEq, and_true]
  omega

theorem digitsOf_append (a b : List Byte) : digitsOf (a ++ b) = digitsOf a ++ digitsOf b := List.flatMap_append

/-- n packed bytes hold the lowest 2n digits. -/
theorem digitsOf_packDigits (n v : Nat) : digitsOf (packDigits n v) = lastDigits (2 * n) v := by
  induction n with
  | zero => rfl
  | succ n ih =>
    have hd (x : Nat) : x % 10 < 16 := (Nat.mod_lt x (by decide)).trans (by decide)
    calc digitsOf (packDigits (n + 1) v)
        = digitsOf [packByte (v / 10 ^ (2 * n + 1) % 10) (v / 10 ^ (2 * n) % 10)] ++ digitsOf (packDigits n v) := rfl
      _ = lastDigits (2 * (n + 1)) v := by rw [digitsOf_packByte _ _ (hd _) (hd _), ih]; rfl

/-- An unsigned amount is read back as it was written (R27). -/
theorem readU4_writeU4 (v : Nat) (h : v ≤ Config.unsignedMax) : readU4 (writeU4 v) = .ok v := by
  have hv : v < 10 ^ 8 := lt_of_le_of_lt h (by decide)
  unfold readU4 writeU4
  rw [digitsOf_packDigits, badDigitAt_none _ _ (lastDigits_le _ v), decimal_lastDigits]
  simp only [Nat.mod_eq_of_lt hv]

/-- A signed amount's nine digits spell its size (R28). -/
theorem decimal_signed (m : Nat) (h : m ≤ 999999999) : decimal (lastDigits 8 (m / 10) ++ [m % 10]) = m := by
  rw [decimal, List.foldl_append, ← decimal, decimal_lastDigits, Nat.mod_eq_of_lt (by omega)]
  simp only [List.foldl_cons, List.foldl_nil]
  omega

/-- A signed amount is read back as it was written (R28). -/
theorem readS5_writeS5 (v : Int) (h : balanceInRange v = true) : readS5 (writeS5 v) = .ok v := by
  have hmax : v.natAbs ≤ 999999999 := by
    unfold balanceInRange Config.balanceMax at h
    rw [Bool.and_eq_true, decide_eq_true_eq, decide_eq_true_eq] at h
    omega
  have hm : v.natAbs % 10 ≤ 9 := by omega
  have hsign : (if v < 0 then 13 else 12) < 16 := by split <;> decide
  have hbad : badDigitAt 1 (lastDigits 8 (v.natAbs / 10) ++ [v.natAbs % 10]) = none :=
    badDigitAt_none _ _ fun d hd => (List.mem_append.mp hd).elim (lastDigits_le _ _ d) fun hd => by simp_all
  have hdigits : digitsOf (writeS5 v) = (lastDigits 8 (v.natAbs / 10) ++ [v.natAbs % 10]) ++ [if v < 0 then 13 else 12] := by
    simp only [writeS5, digitsOf_append, digitsOf_packDigits, digitsOf_packByte _ _ (show v.natAbs % 10 < 16 by omega) hsign,
      List.append_assoc, List.cons_append, List.nil_append]
  unfold readS5
  simp only [hdigits, List.getLast?_concat, List.dropLast_concat, hbad, Option.getD_some,
    decimal_signed v.natAbs hmax]
  by_cases hv : v < 0
  · simp only [hv, if_true]
    rw [if_neg (by decide)]
    exact congrArg Except.ok (by omega)
  · simp only [hv, if_false]
    rw [if_neg (by decide), if_neg (by decide)]
    exact congrArg Except.ok (by omega)

/-- Settles O10: the digits written are the digits read, in both formats. -/
theorem amountsReadBack : Obligations.AmountsReadBack := by
  unfold Obligations.AmountsReadBack
  exact ⟨fun v hv => ⟨packDigits_length 4 v, readU4_writeU4 v hv⟩,
    fun v hv => ⟨by simp [writeS5], readS5_writeS5 v hv⟩⟩

end Sys2Proof.Machine
end

section
/-! The preference order (R40). -/
namespace Sys2Proof.Machine

/-- One entry of the preference operand taken into the order: a valid number, unless it already appears (R40). -/
def takeNamed (order : List Ix) (entry : Option Ix) : List Ix := entry.elim order (appendNew order)

/-- The valid numbers of the preference operand, each at its first appearance (R40). -/
def firstNamed (named : List (Option Ix)) : List Ix := named.foldl takeNamed []

theorem preferenceOrder_eq (named : List (Option Ix)) :
    preferenceOrder named = Ix.all.foldl appendNew (firstNamed named) := by
  have h : takeNamed = fun o k => match k with | some k => appendNew o k | none => o := by
    funext o k
    cases k <;> rfl
  unfold firstNamed
  rw [h]
  rfl

/-! ## The numbers named -/

/-- One more entry: it adds its number where that has not appeared. -/
theorem firstNamed_concat (named : List (Option Ix)) (entry : Option Ix) :
    firstNamed (named ++ [entry]) = takeNamed (firstNamed named) entry := by
  simp [firstNamed, List.foldl_append]

theorem mem_firstNamed (named : List (Option Ix)) (k : Ix) : k ∈ firstNamed named ↔ some k ∈ named := by
  induction named using List.reverseRecOn with
  | nil => simp [firstNamed]
  | append_singleton named entry ih =>
    rw [firstNamed_concat, List.mem_append, List.mem_singleton, ← ih]
    cases entry with
    | none => simp [takeNamed]
    | some l =>
      by_cases hl : l ∈ firstNamed named
      · simp only [takeNamed, Option.elim_some, appendNew, if_pos hl, Option.some.injEq]
        exact ⟨.inl, fun h => h.elim id fun e => e ▸ hl⟩
      · simp [takeNamed, appendNew, if_neg hl]

/-- The numbers named stand in the order of their first appearance. -/
theorem firstNamed_pairwise (named : List (Option Ix)) :
    (firstNamed named).Pairwise (fun k l => named.idxOf (some k) < named.idxOf (some l)) := by
  induction named using List.reverseRecOn with
  | nil => exact .nil
  | append_singleton named entry ih =>
    have hold (k : Ix) (hk : k ∈ firstNamed named) : (named ++ [entry]).idxOf (some k) = named.idxOf (some k) :=
      List.idxOf_append_of_mem ((mem_firstNamed named k).mp hk)
    have hkept : (firstNamed named).Pairwise
        (fun k l => (named ++ [entry]).idxOf (some k) < (named ++ [entry]).idxOf (some l)) :=
      ih.imp_of_mem fun hk hl h => by rwa [hold _ hk, hold _ hl]
    rw [firstNamed_concat]
    cases entry with
    | none => exact hkept
    | some l =>
      by_cases hl : l ∈ firstNamed named
      · simpa only [takeNamed, Option.elim_some, appendNew, if_pos hl] using hkept
      · have hnew : (named ++ [some l]).idxOf (some l) = named.length := by
          simp [List.idxOf_append_of_notMem (mt (mem_firstNamed named l).mpr hl)]
        simp only [takeNamed, Option.elim_some, appendNew, if_neg hl]
        refine List.pairwise_append.mpr ⟨hkept, List.pairwise_singleton _ _, fun k hk m hm => ?_⟩
        rw [List.mem_singleton.mp hm, hold k hk, hnew]
        exact List.idxOf_lt_length_iff.mpr ((mem_firstNamed named k).mp hk)

theorem firstNamed_nodup (named : List (Option Ix)) : (firstNamed named).Nodup :=
  (firstNamed_pairwise named).imp fun h e => absurd (e ▸ h) (lt_irrefl _)

/-! ## The numbers not named -/

/-- Cassettes appended one after the other: those that did not appear. -/
theorem foldl_appendNew (ks order : List Ix) (h : ks.Nodup) :
    ks.foldl appendNew order = order ++ ks.filter (fun k => decide (k ∉ order)) := by
  induction ks generalizing order with
  | nil => simp
  | cons k ks ih =>
    obtain ⟨hk, hks⟩ := List.nodup_cons.mp h
    rw [List.foldl_cons, ih _ hks]
    by_cases hm : k ∈ order
    · simp [appendNew, hm]
    · have hrest : ks.filter (fun l => decide (l ∉ order ++ [k])) = ks.filter (fun l => decide (l ∉ order)) :=
        List.filter_congr fun l hl => by
          have : l ≠ k := fun e => hk (e ▸ hl)
          simp [this]
      rw [appendNew, if_neg hm, hrest, List.filter_cons_of_pos (by simpa using hm), List.append_assoc, List.singleton_append]

theorem Ix.all_nodup : Ix.all.Nodup := by decide

theorem preferenceOrder_split (named : List (Option Ix)) :
    preferenceOrder named = firstNamed named ++ Ix.all.filter (fun k => decide (k ∉ firstNamed named)) := by
  rw [preferenceOrder_eq, foldl_appendNew _ _ Ix.all_nodup]

/-- Every cassette stands in the order once. -/
theorem preferenceOrder_perm (named : List (Option Ix)) : (preferenceOrder named).Perm Ix.all := by
  have hnodup : (preferenceOrder named).Nodup := by
    rw [preferenceOrder_split]
    refine List.Nodup.append (firstNamed_nodup named) (Ix.all_nodup.filter _) fun k hk hn => ?_
    simp only [List.mem_filter, decide_eq_true_eq] at hn
    exact hn.2 hk
  refine (List.perm_ext_iff_of_nodup hnodup Ix.all_nodup).mpr fun k => ⟨fun _ => Ix.mem_all k, fun _ => ?_⟩
  rw [preferenceOrder_split, List.mem_append, List.mem_filter, decide_eq_true_eq]
  exact (em (k ∈ firstNamed named)).imp id fun h => ⟨Ix.mem_all k, h⟩

/-- Settles O11: the numbers named by first appearance, then the others in ascending number. -/
theorem preferenceOrderHoldsEachOnce : Obligations.PreferenceOrderHoldsEachOnce := by
  unfold Obligations.PreferenceOrderHoldsEachOnce
  intro named
  refine ⟨preferenceOrder_perm named, firstNamed named, firstNamed_nodup named, mem_firstNamed named,
    fun i j k l hi hj hij => ?_, preferenceOrder_split named⟩
  obtain ⟨hi', rfl⟩ := List.getElem?_eq_some_iff.mp hi
  obtain ⟨hj', rfl⟩ := List.getElem?_eq_some_iff.mp hj
  exact List.pairwise_iff_getElem.mp (firstNamed_pairwise named) i j hi' hj' hij

end Sys2Proof.Machine
end

section
/-! The mix (R39 to R41): of all candidates one of least remainder, and of those the greatest in preference order. -/
namespace Sys2Proof.Machine

/-! ## The best of a descent -/

/-- Of f n, …, f 0 the descent keeps one of least remainder, the greatest count among those. -/
theorem descend_spec (f : Nat → Quad Nat × Nat) (n : Nat) :
    ∃ i ≤ n, descend f n = f i ∧ ∀ j ≤ n, (f i).2 ≤ (f j).2 ∧ ((f j).2 = (f i).2 → j ≤ i) := by
  induction n with
  | zero => exact ⟨0, le_rfl, rfl, fun j hj => by obtain rfl := Nat.le_zero.mp hj; simp⟩
  | succ n ih =>
    obtain ⟨i, hi, he, hmin⟩ := ih
    rw [descend, he]
    split
    · next hlt =>
      refine ⟨i, by omega, rfl, fun j hj => ?_⟩
      rcases Nat.lt_or_eq_of_le hj with h | rfl
      · exact hmin j (by omega)
      · exact ⟨hlt.le, fun e => by omega⟩
    · next hge =>
      refine ⟨n + 1, le_rfl, rfl, fun j hj => ?_⟩
      rcases Nat.lt_or_eq_of_le hj with h | rfl
      · exact ⟨by have := (hmin j (by omega)).1; omega, fun _ => hj⟩
      · simp

/-! ## Notes and value over a list of cassettes -/

/-- The notes of a vector from the cassettes of a list. -/
def notesIn (q : Quad Nat) (ks : List Ix) : Nat := (ks.map q.get).sum

/-- Their value. -/
def valueIn (values q : Quad Nat) (ks : List Ix) : Nat := (ks.map fun k => q.get k * values.get k).sum

theorem notesIn_cons (q : Quad Nat) (k : Ix) (ks : List Ix) : notesIn q (k :: ks) = q.get k + notesIn q ks := List.sum_cons

theorem valueIn_cons (values q : Quad Nat) (k : Ix) (ks : List Ix) :
    valueIn values q (k :: ks) = q.get k * values.get k + valueIn values q ks := List.sum_cons

/-- Over all four cassettes: the vector's total. -/
theorem notesIn_all (q : Quad Nat) (order : List Ix) (h : order.Perm Ix.all) : notesIn q order = q.total := by
  rw [notesIn, (h.map _).sum_eq]
  simp only [Ix.all, List.map_cons, List.map_nil, List.sum_cons, List.sum_nil, Quad.get, Quad.total]
  omega

/-- Over all four cassettes: the vector's value. -/
theorem valueIn_all (values q : Quad Nat) (order : List Ix) (h : order.Perm Ix.all) :
    valueIn values q order = valueOf values q := by
  rw [valueIn, (h.map _).sum_eq]
  simp only [Ix.all, List.map_cons, List.map_nil, List.sum_cons, List.sum_nil, Quad.get, valueOf]
  omega

/-- A cassette outside the list does not count. -/
theorem set_outside (values q u : Quad Nat) (k : Ix) (n : Nat) (ks : List Ix) (h : k ∉ ks) :
    notesIn (q.set k n) ks = notesIn q ks ∧ valueIn values (q.set k n) ks = valueIn values q ks ∧
      (greaterIn q u ks → greaterIn (q.set k n) u ks) := by
  induction ks with
  | nil => exact ⟨rfl, rfl, id⟩
  | cons j ks ih =>
    rw [List.mem_cons, not_or] at h
    obtain ⟨hj, hks⟩ := h
    have hget : (q.set k n).get j = q.get j := Quad.get_set_other _ _ _ _ (Ne.symm hj)
    obtain ⟨h1, h2, h3⟩ := ih hks
    simp only [notesIn_cons, valueIn_cons, greaterIn, hget, h1, h2, true_and]
    exact Or.imp_right (And.imp_right h3)

/-! ## Candidates over a list of cassettes -/

/-- A vector is a candidate as far as the cassettes of a list go (R41). -/
structure CandidateIn (values avail : Quad Nat) (cap target : Nat) (ks : List Ix) (u : Quad Nat) : Prop where
  avail : ∀ k ∈ ks, u.get k ≤ avail.get k
  notes : notesIn u ks ≤ cap
  value : valueIn values u ks ≤ target

/-- Over all four cassettes these are R41's candidates. -/
theorem candidateIn_all (values avail : Quad Nat) (cap target : Nat) (order : List Ix) (u : Quad Nat) (h : order.Perm Ix.all) :
    CandidateIn values avail cap target order u ↔ Candidate values avail cap target u := by
  have hmem (k : Ix) : k ∈ order := h.mem_iff.mpr (Ix.mem_all k)
  constructor
  · rintro ⟨h1, h2, h3⟩
    exact ⟨fun k => h1 k (hmem k), notesIn_all u order h ▸ h2, valueIn_all values u order h ▸ h3⟩
  · rintro ⟨h1, h2, h3⟩
    exact ⟨fun k _ => h1 k, (notesIn_all u order h).symm ▸ h2, (valueIn_all values u order h).symm ▸ h3⟩

/-- A count of the first cassette is within its greatest count exactly where it is available, within the cap and worth at most the target. -/
theorem le_greatestCount_iff (value avail cap target n : Nat) :
    n ≤ greatestCount value avail cap target ↔ n ≤ avail ∧ n ≤ cap ∧ n * value ≤ target := by
  unfold greatestCount
  by_cases h : value = 0
  · simp only [h, if_true, Nat.mul_zero, le_min_iff]
    omega
  · simp only [h, if_false, le_min_iff, Nat.le_div_iff_mul_le (Nat.pos_of_ne_zero h)]

/-- What a candidate takes beyond its first cassette is a candidate of what that leaves. -/
theorem CandidateIn.tail {values avail : Quad Nat} {cap target : Nat} {k : Ix} {ks : List Ix} {u : Quad Nat}
    (h : CandidateIn values avail cap target (k :: ks) u) :
    u.get k ≤ greatestCount (values.get k) (avail.get k) cap target ∧
      CandidateIn values avail (cap - u.get k) (target - u.get k * values.get k) ks u := by
  obtain ⟨h1, h2, h3⟩ := h
  rw [notesIn_cons] at h2
  rw [valueIn_cons] at h3
  exact ⟨(le_greatestCount_iff _ _ _ _ _).mpr ⟨h1 k List.mem_cons_self, by omega, by omega⟩,
    ⟨fun j hj => h1 j (List.mem_cons_of_mem _ hj), by omega, by omega⟩⟩

/-! ## The search -/

/-- A vector with its remainder is the best of the candidates over a list of cassettes (R41). -/
structure BestIn (values avail : Quad Nat) (cap target : Nat) (ks : List Ix) (b : Quad Nat × Nat) : Prop where
  notes : notesIn b.1 ks ≤ cap
  value : valueIn values b.1 ks + b.2 = target
  best : ∀ u, CandidateIn values avail cap target ks u →
    valueIn values u ks ≤ valueIn values b.1 ks ∧
      (valueIn values u ks = valueIn values b.1 ks → (∀ k ∈ ks, u.get k = b.1.get k) ∨ greaterIn b.1 u ks)

/-- The best vectors over the rest, one for each count of the first cassette: the descent finds the best over all of them. -/
theorem bestIn_cons (values avail : Quad Nat) (cap target : Nat) (k : Ix) (ks : List Ix) (hk : k ∉ ks) (rest : Nat → Quad Nat × Nat)
    (h : ∀ t, BestIn values avail (cap - t) (target - t * values.get k) ks (rest t)) :
    BestIn values avail cap target (k :: ks)
      (descend (fun t => ((rest t).1.set k t, (rest t).2)) (greatestCount (values.get k) (avail.get k) cap target)) := by
  obtain ⟨i, hi, he, hmin⟩ := descend_spec (fun t => ((rest t).1.set k t, (rest t).2))
    (greatestCount (values.get k) (avail.get k) cap target)
  obtain ⟨-, hcap, htarget⟩ := (le_greatestCount_iff _ _ _ _ _).mp hi
  obtain ⟨hnotes, hvalue, hbest⟩ := h i
  have hout (u : Quad Nat) := set_outside values (rest i).1 u k i ks hk
  rw [he]
  refine ⟨?_, ?_, fun u hu => ?_⟩
  · simp only [notesIn_cons, Quad.get_set_self, (hout Quad.zero).1]
    omega
  · simp only [valueIn_cons, Quad.get_set_self, (hout Quad.zero).2.1]
    omega
  · obtain ⟨ht, htail⟩ := hu.tail
    obtain ⟨-, -, htt⟩ := (le_greatestCount_iff _ _ _ _ _).mp ht
    obtain ⟨hle, hlast⟩ := hmin (u.get k) ht
    obtain ⟨-, hvt, hbt⟩ := h (u.get k)
    obtain ⟨hval, heq⟩ := hbt u htail
    simp only [] at hle hlast
    simp only [valueIn_cons, Quad.get_set_self, (hout u).2.1]
    refine ⟨by omega, fun e => ?_⟩
    rcases Nat.lt_or_eq_of_le (hlast (by omega)) with hlt | htie
    · exact .inr (.inl (by simpa using hlt))
    · subst htie
      refine (heq (by omega)).imp (fun hsame j hj => ?_) fun hg => .inr ⟨by simp, (hout u).2.2 hg⟩
      by_cases hjk : j = k
      · subst hjk; simp
      · rw [Quad.get_set_other _ _ _ _ hjk]
        exact hsame j ((List.mem_cons.mp hj).resolve_left hjk)

/-- The search finds the best candidate (R41). -/
theorem bestMix_best (values avail : Quad Nat) (ks : List Ix) (cap target : Nat) (h : ks.Nodup) :
    BestIn values avail cap target ks (bestMix values avail ks cap target) := by
  induction ks generalizing cap target with
  | nil => exact ⟨Nat.zero_le _, by simp [bestMix, valueIn], fun u _ => ⟨le_rfl, fun _ => .inl (by simp)⟩⟩
  | cons k ks ih =>
    obtain ⟨hk, hks⟩ := List.nodup_cons.mp h
    exact bestIn_cons values avail cap target k ks hk _ fun t => ih _ _ hks

/-! ## The mix of the cassettes as they stand (R41) -/

/-- The best mix over all four cassettes is a candidate, and the best of them. -/
theorem bestMix_candidate (values avail : Quad Nat) (order : List Ix) (cap target : Nat) (h : order.Perm Ix.all) :
    let b := bestMix values avail order cap target
    Candidate values avail cap target b.1 ∧ valueOf values b.1 + b.2 = target ∧
      ∀ u : Quad Nat, Candidate values avail cap target u →
        valueOf values u ≤ valueOf values b.1 ∧ (valueOf values u = valueOf values b.1 → u = b.1 ∨ greaterIn b.1 u order) := by
  intro b
  obtain ⟨hnotes, hvalue, hbest⟩ := bestMix_best values avail order cap target (h.nodup_iff.mpr Ix.all_nodup)
  simp only [valueIn_all values _ order h] at hvalue hbest
  refine ⟨(candidateIn_all values avail cap target order b.1 h).mp
    ⟨fun k _ => (bestMix_within values avail order cap target k).1, hnotes, ?_⟩, hvalue, fun u hu => ?_⟩
  · rw [valueIn_all values _ order h]
    exact Nat.le.intro hvalue
  · obtain ⟨hle, heq⟩ := hbest u ((candidateIn_all values avail cap target order u h).mpr hu)
    exact ⟨hle, fun e => (heq e).imp_left fun hs => Quad.ext_get fun k => hs k (h.mem_iff.mpr (Ix.mem_all k))⟩

/-- A cassette's notes are worth a denomination's value each, or nothing (R38). -/
theorem cassetteValues_le (s : State) (n : Nat) (h : ∀ d, s.settings.denominations.get d ≤ n) (k : Ix) :
    s.cassetteValues.get k ≤ n := by
  have hk : s.cassetteValues.get k = (s.position.cassettes.get k).value s.settings.denominations := by cases k <;> rfl
  rw [hk]
  unfold Cassette.value
  split
  · exact h _
  · exact Nat.zero_le _

/-- So many notes of at most a value each. -/
theorem valueOf_le (values q : Quad Nat) (n : Nat) (h : ∀ k, values.get k ≤ n) : valueOf values q ≤ q.total * n := by
  have h1 := Nat.mul_le_mul_left q.c1 (h .i1)
  have h2 := Nat.mul_le_mul_left q.c2 (h .i2)
  have h3 := Nat.mul_le_mul_left q.c3 (h .i3)
  have h4 := Nat.mul_le_mul_left q.c4 (h .i4)
  simp only [Quad.get] at h1 h2 h3 h4
  simp only [valueOf, Quad.total, Nat.add_mul]
  omega

/-- Settles O12: the search keeps the best candidate, and the figures are the candidate's. -/
theorem mixIsBestCandidate : Obligations.MixIsBestCandidate := by
  unfold Obligations.MixIsBestCandidate
  intro s order delivered cap target unpaid hperm m
  obtain ⟨⟨havail, htotal, htarget⟩, -, hbest⟩ := bestMix_candidate s.cassetteValues (s.availability delivered) order cap target hperm
  refine ⟨⟨havail, htotal, htarget⟩, hbest, rfl, rfl, ?_, rfl, rfl, fun hcap hd => ?_⟩
  · exact Nat.add_sub_cancel' htarget
  · calc m.value ≤ m.mix.total * 999999 := valueOf_le _ _ _ (cassetteValues_le s _ hd)
      _ ≤ 100 * 999999 := Nat.mul_le_mul_right _ (htotal.trans hcap)
      _ ≤ Config.unsignedMax := by decide

end Sys2Proof.Machine
end

section
/-! Figures as text: ZERO_FILL and MONEY (R45 to R47), the imprint line and the display's echo (R121, R126). -/
namespace Sys2Proof.Machine

/-! ## Digits as characters -/

/-- A decimal digit's character. -/
def IsDigit (c : Char) : Prop := 48 ≤ c.toNat ∧ c.toNat ≤ 57

/-- The digit a character stands for. -/
def digitOf (c : Char) : Nat := c.toNat - 48

theorem digitChar_toNat (d : Nat) : (digitChar d).toNat = 48 + d % 10 := by
  have small : ∀ n < 10, (Char.ofNat (48 + n)).toNat = 48 + n := by decide
  exact small _ (Nat.mod_lt d (by decide))

theorem digitChar_isDigit (d : Nat) : IsDigit (digitChar d) := by
  have := Nat.mod_lt d (show 0 < 10 by decide)
  rw [IsDigit, digitChar_toNat]
  omega

theorem digitOf_digitChar (d : Nat) : digitOf (digitChar d) = d % 10 := by
  rw [digitOf, digitChar_toNat, Nat.add_sub_cancel_left]

/-- Neither a comma nor a point. -/
def isFigure (c : Char) : Bool := c != ',' && c != '.'

theorem IsDigit.figure {c : Char} (h : IsDigit c) : isFigure c = true := by
  have hcomma : c ≠ ',' := by rintro rfl; exact absurd h.1 (by decide)
  have hpoint : c ≠ '.' := by rintro rfl; exact absurd h.1 (by decide)
  simp [isFigure, hcomma, hpoint]

/-! ## ZERO_FILL (R45) -/

@[simp] theorem zeroFilled_length (n v : Nat) : (zeroFilled n v).length = n := by
  induction n with
  | zero => rfl
  | succ n ih => rw [zeroFilled, List.length_cons, ih]

theorem zeroFilled_isDigit (n v : Nat) : ∀ c ∈ zeroFilled n v, IsDigit c := by
  induction n with
  | zero => simp [zeroFilled]
  | succ n ih => exact List.forall_mem_cons.mpr ⟨digitChar_isDigit _, ih⟩

theorem zeroFilled_digits (n v : Nat) : (zeroFilled n v).map digitOf = lastDigits n v := by
  induction n with
  | zero => rfl
  | succ n ih => rw [zeroFilled, List.map_cons, digitOf_digitChar, ih, lastDigits]

@[simp] theorem renderZeroFill_length (w v : Nat) : (renderZeroFill w v).length = w := by
  unfold renderZeroFill asterisks
  split <;> simp

/-- A value that fits is written in full. -/
theorem renderZeroFill_reads (w v : Nat) (h : v < 10 ^ w) :
    decimal ((renderZeroFill w v).map digitOf) = v ∧ ∀ c ∈ renderZeroFill w v, IsDigit c := by
  rw [renderZeroFill, if_pos h, zeroFilled_digits, decimal_lastDigits, Nat.mod_eq_of_lt h]
  exact ⟨rfl, zeroFilled_isDigit w v⟩

/-! ## The integer part (R46) -/

theorem digitsBack_isDigit (n v : Nat) : ∀ c ∈ digitsBack n v, IsDigit c := by
  induction n generalizing v with
  | zero => simp [digitsBack]
  | succ n ih =>
    rw [digitsBack]
    split
    · simpa using digitChar_isDigit v
    · exact List.forall_mem_cons.mpr ⟨digitChar_isDigit v, ih _⟩

/-- The digits spell the number, read from the last one on. -/
theorem decimal_digitsBack (n v : Nat) (h : v < 10 ^ n) : decimal ((digitsBack n v).reverse.map digitOf) = v := by
  induction n generalizing v with
  | zero =>
    obtain rfl : v = 0 := by simpa using h
    rfl
  | succ n ih =>
    rw [digitsBack]
    split
    · next hv => simp [decimal, digitOf_digitChar, Nat.mod_eq_of_lt hv]
    · rw [List.reverse_cons, List.map_append, decimal, List.foldl_append, ← decimal,
        ih _ (by rw [Nat.pow_succ] at h; omega)]
      simp only [List.map_cons, List.map_nil, List.foldl_cons, List.foldl_nil, digitOf_digitChar]
      omega

/-- A number of m + 1 digits, the first of them no zero where it has more than one. -/
theorem digitsBack_length (n m v : Nat) (hm : m < n) (hlow : m = 0 ∨ 10 ^ m ≤ v) (hhigh : v < 10 ^ (m + 1)) :
    (digitsBack n v).length = m + 1 := by
  induction m generalizing n v with
  | zero =>
    obtain ⟨n, rfl⟩ := Nat.exists_eq_succ_of_ne_zero (Nat.ne_zero_of_lt hm)
    rw [digitsBack, if_pos (by simpa using hhigh), List.length_singleton]
  | succ m ih =>
    obtain ⟨n, rfl⟩ := Nat.exists_eq_succ_of_ne_zero (Nat.ne_zero_of_lt hm)
    have hpos := Nat.one_le_pow m 10 (by decide)
    have hlow := hlow.resolve_left (by simp)
    simp only [Nat.pow_succ] at hlow hhigh ih
    rw [digitsBack, if_neg (by omega), List.length_cons, ih n _ (by omega) (.inr (by omega)) (by omega)]

/-! ## Groups of three (R46) -/

/-- Where there is no fourth character nothing is grouped. -/
theorem length_le_three (ds : List Char) (h : ∀ (a b c d : Char) (rest : List Char), ds = a :: b :: c :: d :: rest → False) :
    ds.length ≤ 3 := by
  rcases ds with _ | ⟨a, _ | ⟨b, _ | ⟨c, _ | ⟨d, rest⟩⟩⟩⟩
  case cons.cons.cons.cons => exact absurd rfl (h a b c d rest)
  all_goals simp

theorem groupThrees_length (ds : List Char) : (groupThrees ds).length = ds.length + (ds.length - 1) / 3 := by
  induction ds using groupThrees.induct with
  | case1 a b c d rest ih =>
    simp only [groupThrees, List.length_cons] at ih ⊢
    omega
  | case2 ds h =>
    have := length_le_three ds h
    rw [groupThrees.eq_2 ds h]
    omega

/-- Without the commas the digits are as they were. -/
theorem groupThrees_filter (ds : List Char) (h : ∀ c ∈ ds, IsDigit c) :
    (groupThrees ds).filter isFigure = ds := by
  induction ds using groupThrees.induct with
  | case1 a b c d rest ih =>
    simp only [List.forall_mem_cons] at h
    obtain ⟨ha, hb, hc, hd⟩ := h
    rw [groupThrees, List.filter_cons_of_pos ha.figure, List.filter_cons_of_pos hb.figure, List.filter_cons_of_pos hc.figure,
      List.filter_cons_of_neg (by decide), ih (List.forall_mem_cons.mpr hd)]
  | case2 ds hs =>
    rw [groupThrees.eq_2 ds hs]
    exact List.filter_eq_self.mpr fun c hc => (h c hc).figure

/-- Every fourth character is a comma, the others are the digits. -/
theorem groupThrees_place (ds : List Char) (i : Nat) (x : Char) (h : (groupThrees ds)[i]? = some x) :
    if i % 4 = 3 then x = ',' else x ∈ ds := by
  induction ds using groupThrees.induct generalizing i with
  | case1 a b c d rest ih =>
    rw [groupThrees] at h
    match i, h with
    | 0, h => simp_all
    | 1, h => simp_all
    | 2, h => simp_all
    | 3, h => simpa [eq_comm] using h
    | i + 4, h =>
      have := ih i (by simpa using h)
      rw [Nat.add_mod_right]
      split
      · next hi => rwa [if_pos hi] at this
      · next hi =>
        rw [if_neg hi] at this
        simp [List.mem_cons.mp this]
  | case2 ds hs =>
    rw [groupThrees.eq_2 ds hs] at h
    obtain ⟨hi, rfl⟩ := List.getElem?_eq_some_iff.mp h
    have := length_le_three ds hs
    rw [if_neg (by omega)]
    exact List.getElem_mem hi

/-! ## MONEY (R46, R47) -/

/-- From the right: two cents digits, the point, the integer part in groups. -/
theorem moneyText_reverse (cents : Nat) :
    (moneyText cents).reverse =
      digitChar (cents % 100 / 10 ^ 0) :: digitChar (cents % 100 / 10 ^ 1) :: '.' :: groupThrees (digitsBack 20 (cents / 100)) := by
  simp [moneyText, zeroFilled]

/-- The characters, counted from the right. -/
theorem moneyText_place (cents i : Nat) (c : Char) (h : (moneyText cents).reverse[i]? = some c) :
    if i = 2 then c = '.' else if i % 4 = 2 then c = ',' else IsDigit c := by
  rw [moneyText_reverse] at h
  match i, h with
  | 0, h => obtain rfl := Option.some.inj h; exact digitChar_isDigit _
  | 1, h => obtain rfl := Option.some.inj h; exact digitChar_isDigit _
  | 2, h => exact (Option.some.inj h).symm
  | i + 3, h =>
    have hp := groupThrees_place _ i c (by simpa using h)
    rw [if_neg (by omega)]
    by_cases hi : i % 4 = 3
    · rw [if_pos hi] at hp
      rwa [if_pos (by omega)]
    · rw [if_neg hi] at hp
      rw [if_neg (by omega)]
      exact digitsBack_isDigit _ _ c hp

/-- Commas and point apart, the text spells the amount in cents. -/
theorem moneyText_reads (cents : Nat) (h : cents < 10 ^ 22) :
    decimal (((moneyText cents).filter isFigure).map digitOf) = cents := by
  have hcents : (zeroFilled 2 (cents % 100)).filter isFigure = zeroFilled 2 (cents % 100) :=
    List.filter_eq_self.mpr fun c hc => (zeroFilled_isDigit _ _ c hc).figure
  rw [moneyText, List.filter_append, List.filter_reverse, groupThrees_filter _ (digitsBack_isDigit _ _),
    List.filter_cons_of_neg (by decide), hcents, List.map_append, zeroFilled_digits, decimal, List.foldl_append, ← decimal,
    decimal_digitsBack 20 _ (by omega), foldl_lastDigits]
  omega

theorem moneyText_length (cents m : Nat) (hm : m < 20) (hlow : m = 0 ∨ 10 ^ m ≤ cents / 100)
    (hhigh : cents / 100 < 10 ^ (m + 1)) : (moneyText cents).length = m + 1 + m / 3 + 3 := by
  rw [← List.length_reverse, moneyText_reverse]
  simp only [List.length_cons, groupThrees_length, digitsBack_length 20 m _ hm hlow hhigh]
  omega

/-- The lengths of the amounts that the part takes. -/
theorem moneyText_lengths (cents : Nat) (h : cents ≤ Config.unsignedMax) :
    (moneyText cents).length =
      if cents ≤ 999 then 4 else if cents ≤ 9999 then 5 else if cents ≤ 99999 then 6 else if cents ≤ 999999 then 8
        else if cents ≤ 9999999 then 9 else 10 := by
  unfold Config.unsignedMax at h
  (repeat' split)
  · exact moneyText_length cents 0 (by decide) (.inl rfl) (by omega)
  · exact moneyText_length cents 1 (by decide) (.inr (by omega)) (by omega)
  · exact moneyText_length cents 2 (by decide) (.inr (by omega)) (by omega)
  · exact moneyText_length cents 3 (by decide) (.inr (by omega)) (by omega)
  · exact moneyText_length cents 4 (by decide) (.inr (by omega)) (by omega)
  · exact moneyText_length cents 5 (by decide) (.inr (by omega)) (by omega)

@[simp] theorem renderMoney_length (w cents : Nat) : (renderMoney w cents).length = w := by
  unfold renderMoney rightAligned asterisks
  split
  · next h =>
    rw [List.length_append, List.length_replicate]
    omega
  · exact List.length_replicate

/-! ## Where the texts stand (R121, R126) -/

/-- The imprint line's fields before the amount take 28 characters. -/
theorem imprintLine_eq (c : Clock) (sequence cents : Nat) :
    ∃ fields : List Char, fields.length = 28 ∧ imprintLine c sequence (some cents) = fields ++ renderMoney 10 cents := by
  let date := if c.invalid then hyphens 10 else dateText c.count.toNat
  let time := if c.invalid then hyphens 2 ++ (':' :: hyphens 2) ++ (':' :: hyphens 2) else timeText c.count.toNat
  have hdate : date.length = 10 := by
    simp only [date]
    split <;> simp [hyphens, dateText]
  have htime : time.length = 8 := by
    simp only [time]
    split <;> simp [hyphens, timeText]
  refine ⟨renderZeroFill 7 sequence ++ (' ' :: date) ++ (' ' :: time) ++ [' '], by simp [hdate, htime], ?_⟩
  rw [List.append_assoc _ [' '], List.singleton_append]
  rfl

/-- Settles O13: both modes digit by digit, and the two places where an amount is rendered. -/
theorem editingRendersFigures : Obligations.EditingRendersFigures := by
  unfold Obligations.EditingRendersFigures
  refine ⟨renderZeroFill_length, renderZeroFill_reads, fun w v h => if_neg (by omega), fun v h => lt_of_le_of_lt h (by decide),
    fun cents h => ⟨moneyText cents, fun w => rfl, moneyText_lengths cents h, moneyText_reads cents ?_, moneyText_place cents⟩,
    fun d cents hslot hentry => ?_, fun c sequence cents => ?_⟩
  · exact lt_of_le_of_lt h (by decide)
  · simp [Depository.line, Depository.echo, hslot, hentry, KeyEntry.cents]
  · obtain ⟨fields, hlen, he⟩ := imprintLine_eq c sequence cents
    rw [he]
    exact ⟨List.drop_left' hlen, fun _ => by simp [hlen]⟩

end Sys2Proof.Machine
end

section
/-! What the end of a step takes up for the windows' dispenses, whatever waits: it leaves nothing waiting, and touches the dispenses, the
note path, the position and the journal alone (R77, R86). -/
namespace Sys2Proof.Machine

/-! ## What a dispense's work touches -/

/-- The blocks that a window's dispense works on. -/
abbrev dispensing : List Block := [.position, .dispenses, .path, .journal]

/-- An operation of a window's dispense leaves every other block as it was. -/
theorem WithinWindow.kept {w : Teller} {s t : State} (h : WithinWindow w s t)
    (hk : t.startUp = s.startUp ∧ t.clock = s.clock ∧ t.pins = s.pins ∧ t.settings = s.settings ∧ t.claim = s.claim ∧
      t.depository = s.depository ∧ t.alarm = s.alarm ∧ t.freeCount = s.freeCount ∧ t.pending = s.pending) :
    KeptBut dispensing s t := by
  obtain ⟨h1, h2, h3, h4, h5, h6, h7, -, h9⟩ := hk
  intro b hb
  cases b
  case position | dispenses | path | journal => simp at hb
  case escrow => exact h.escrow
  case ports => exact kept_ports_of_lines _ _ h.lines
  all_goals simp [Kept, h1, h2, h3, h4, h5, h6, h7, h9]

theorem startDraw_within (w : Teller) (x : DrawSource) (cause : DrawCause) (q : Quad Nat) (s : State)
    (hc : cause.owner = .dispense w) : WithinWindow w s (startDraw x cause q s) := by
  unfold startDraw
  simp only []
  split
  · unfold stopDraw jam
    simp only [hc]
    refine WithinWindow.trans ?_ ((jamDispense_within w _).trans (within_of_same rfl rfl rfl))
    exact within_of_same (by simp) (by simp) (by simp)
  · exact within_of_same rfl rfl rfl

theorem pickReported_within (w : Teller) (s : State) : WithinWindow w s (pickReported w s) := by
  unfold pickReported
  simp only []
  split
  · exact beginStop_within w _ s
  · split
    · exact present_within w s
    · split
      · exact stopShort_within w _ s
      · exact advance_within _ w s

theorem proceedRetract_within (w : Teller) (s : State) : WithinWindow w s (proceedRetract w s) := by
  unfold proceedRetract
  split
  · split
    · exact startDraw_within w _ _ _ s rfl
    · exact jamDispense_within w s
    · exact within_of_same rfl rfl rfl
  · exact within_of_same rfl rfl rfl

theorem proceedDeferred_within (w : Teller) (s : State) : WithinWindow w s (proceedDeferred w s) := by
  unfold proceedDeferred
  simp only []
  split
  · exact (grantChecks_within w s).1
  · exact within_of_same rfl rfl rfl

/-! ## What the end of a step takes up (R77, R86) -/

/-- The state once waiting retracts and deferred grants have been taken up. -/
def takenUp (s : State) : State := proceedDeferred .b (proceedDeferred .a (proceedRetract .b (proceedRetract .a s)))

theorem takenUp_kept (s : State) : KeptBut dispensing s (takenUp s) := by
  have hr (w : Teller) (x : State) : KeptBut dispensing x (proceedRetract w x) :=
    (proceedRetract_within w x).kept (proceedRetract_keeps w x)
  have hd (w : Teller) (x : State) : KeptBut dispensing x (proceedDeferred w x) := by
    refine (proceedDeferred_within w x).kept ?_
    unfold proceedDeferred
    simp only []
    split
    · exact grantChecks_keeps w x
    · exact ⟨rfl, rfl, rfl, rfl, rfl, rfl, rfl, rfl, rfl⟩
  exact (((hr .a s).trans (hr .b _)).trans (hd .a _)).trans (hd .b _)

/-- A window's operation is in flight where its dispense is or the escrow works for its port (R48). -/
theorem opInFlight_teller (w : Teller) (s : State) :
    s.opInFlight w.port = false ↔
      (s.dispense w).state.inFlight = false ∧ ∀ o, s.escrow.op = some o → (o.port == w.port) = false := by
  unfold State.opInFlight State.dispenseInFlight State.dispense
  cases w <;> cases s.escrow.op <;> simp [Teller.port, Port.teller?]

/-- A window's retract has been taken up, or waits for a purge (R86). -/
def RetractSettled (w : Teller) (s : State) : Prop := s.retractWaits w = true → s.path.state = .purging

theorem retractSettled_of_state {w : Teller} {s : State} (h : (s.dispense w).state ≠ .retracting) : RetractSettled w s := by
  intro hr
  simp only [State.retractWaits, Bool.and_eq_true, beq_iff_eq] at hr
  exact absurd hr.1.1 h

/-- A window's deferred grant is due (R77). -/
def GrantDue (w : Teller) (s : State) : Prop :=
  (s.dispense w).state = .queued ∧ (s.dispense w).deferred = true ∧ s.opInFlight w.other.port = false

/-- The draw of a window's notes begins, or a full bin ends the dispense: its retract has been taken up, and that of the other window
where it had been. -/
theorem startDraw_settles (w : Teller) (x : DrawSource) (cause : DrawCause) (q : Quad Nat) (s : State)
    (hc : cause.owner = .dispense w) (hdraw : s.path.draw = none) (hready : s.path.state = .ready) (u : Teller)
    (hu : u = w ∨ RetractSettled u s) : RetractSettled u (startDraw x cause q s) := by
  have hother := (startDraw_within w x cause q s hc).other
  unfold startDraw at hother ⊢
  simp only [] at hother ⊢
  split
  · next hfull =>
    rw [if_pos hfull] at hother
    rcases eq_or_ne u w with rfl | hne
    · refine retractSettled_of_state ?_
      unfold stopDraw jam
      simp only [hc, jamDispense_eq, State.onPath, State.dispense, Pair.get_set_self]
      decide
    · have hset := hu.resolve_left hne
      rw [← Teller.eq_other hne] at hother
      intro hr
      simp only [State.retractWaits, hother, Bool.and_eq_true] at hr
      have := hset (by simp only [State.retractWaits, hdraw, hr.1.1, hr.1.2, Option.isNone_none, Bool.and_self])
      rw [hready] at this
      cases this
  · intro hr
    simp [State.retractWaits, State.onPath] at hr

theorem proceedRetract_settles (w : Teller) (s : State) (u : Teller) (hu : u = w ∨ RetractSettled u s) :
    RetractSettled u (proceedRetract w s) := by
  unfold proceedRetract
  split
  · next hw =>
    have hdraw : s.path.draw = none := by
      simp only [State.retractWaits, Bool.and_eq_true, Option.isNone_iff_eq_none] at hw
      exact hw.2
    split
    · next hs => exact startDraw_settles w _ _ _ s rfl hdraw hs u hu
    · rw [jamDispense_eq]
      rcases eq_or_ne u w with rfl | hne
      · refine retractSettled_of_state ?_
        simp only [State.dispense, Pair.get_set_self]
        decide
      · have hset := hu.resolve_left hne
        simp only [RetractSettled, State.retractWaits, State.dispense, Pair.get_set_other _ _ _ _ hne] at hset ⊢
        exact hset
    · next hs => exact fun _ => hs
  · next hw => exact hu.elim (fun e h => absurd (e ▸ h) hw) id

/-- A deferred grant is made where it is due, and makes no other due. -/
theorem proceedDeferred_settles (w : Teller) (s : State) (h : ∀ u, RetractSettled u s) :
    (∀ u, RetractSettled u (proceedDeferred w s)) ∧ ¬GrantDue w (proceedDeferred w s) ∧
      (¬GrantDue w.other s → ¬GrantDue w.other (proceedDeferred w s)) := by
  unfold proceedDeferred
  simp only []
  split
  · next hdue =>
    obtain ⟨hqueued, -, hfree⟩ := hdue
    obtain ⟨hwithin, hcalm⟩ := grantChecks_within w s
    obtain ⟨hidle, -⟩ := (opInFlight_teller _ _).mp hfree
    have hrest : ((grantChecks w s).dispense w.other).state ≠ .retracting := by
      rw [hwithin.other]
      intro e
      rw [e] at hidle
      cases hidle
    refine ⟨fun u => retractSettled_of_state ?_, fun hg => ?_, fun hn hg => hn ?_⟩
    · rcases eq_or_ne u w with rfl | hne
      · exact hcalm.2
      · rwa [Teller.eq_other hne]
    · rw [GrantDue, hcalm.1] at hg
      cases hg.2.1
    · obtain ⟨g1, g2, g3⟩ := hg
      rw [hwithin.other] at g1 g2
      have hw : w.other.other = w := by cases w <;> rfl
      rw [hw] at g3
      refine ⟨g1, g2, ?_⟩
      rw [hw]
      refine (opInFlight_teller _ _).mpr ⟨by rw [hqueued]; rfl, ?_⟩
      rw [← hwithin.escrow]
      exact ((opInFlight_teller _ _).mp g3).2
  · next hdue => exact ⟨h, hdue, id⟩

/-- Once all has been taken up nothing waits. -/
theorem takenUp_quiet (s : State) : Quiet (takenUp s) := by
  have hr : ∀ u, RetractSettled u (proceedRetract .b (proceedRetract .a s)) := by
    intro u
    cases u with
    | a => exact proceedRetract_settles .b _ .a (.inr (proceedRetract_settles .a s .a (.inl rfl)))
    | b => exact proceedRetract_settles .b _ .b (.inl rfl)
  obtain ⟨ha, hga, -⟩ := proceedDeferred_settles .a _ hr
  obtain ⟨hb, hgb, hkeep⟩ := proceedDeferred_settles .b _ ha
  intro w
  refine ⟨?_, hb w⟩
  cases w with
  | a => exact hkeep hga
  | b => exact hgb

/-- So the end of a step is that of the state in which all has been taken up. -/
theorem settle_takenUp (s : State) (hp : s.powered = true) : settle s = settle (takenUp s) := by
  have hp' : (takenUp s).powered = true := by
    have : (takenUp s).startUp = s.startUp := takenUp_kept s .startUp (by simp)
    rw [State.powered, this]
    exact hp
  rw [settle_quiet _ (takenUp_quiet s) hp', settle, if_pos hp]
  rfl

/-! ## What stays told (R60) -/

/-- With room in the RETRACT BIN: the bin is as it was, and what was told stays told but for PRESENT and the notices of the audit state and
the journal; no fault of the module is raised. -/
def NoFaultTold (s t : State) : Prop :=
  s.position.retract.total < Config.retractNotes →
    t.position.retract = s.position.retract ∧ Tells [.present, .restriction, .journalHigh] s t

theorem NoFaultTold.trans {s t u : State} (h : NoFaultTold s t) (k : NoFaultTold t u) : NoFaultTold s u := by
  intro hroom
  obtain ⟨h1, h2⟩ := h hroom
  obtain ⟨k1, k2⟩ := k (by rw [h1]; exact hroom)
  exact ⟨k1.trans h1, h2.trans k2⟩

theorem noFaultTold_of_same {s t : State} (hp : t.position.retract = s.position.retract) (hq : t.ports = s.ports) :
    NoFaultTold s t := fun _ => ⟨hp, tells_of_ports _ hq⟩

theorem WordsRead.noFaultTold {failed : Prop} {s t : State} (h : WordsRead failed s t) : NoFaultTold s t :=
  fun _ => ⟨by rw [h.records], h.tells.mono (by simp)⟩

theorem Booked.noFaultTold {failed : Prop} {f : Position → Position} {s t : State} (h : Booked failed f s t)
    (hf : ∀ p, (f p).retract = p.retract) : NoFaultTold s t := by
  refine fun _ => ⟨?_, h.tells.mono (by simp)⟩
  by_cases hn : failed
  · rw [(h.found hn).1]; exact hf _
  · rw [h.fine hn]; exact hf _

theorem setAccount_retract (p : Position) (a : AccountId) (r : Account) : (p.setAccount a r).retract = p.retract := by
  cases a <;> rfl

theorem takeAll_retract (w : Teller) (taken : Quad Nat) (p : Position) : (p.takeAll w taken).retract = p.retract := rfl

theorem bookBalance_noFaultTold (a : AccountId) (v : Int) (s : State) : NoFaultTold s (bookBalance a v s).2 := by
  refine (bookBalance_booked a v s).2.noFaultTold fun p => ?_
  unfold Position.bookedBalance
  split
  · exact setAccount_retract _ _ _
  · rfl

theorem bookCoinDue_noFaultTold (a : AccountId) (n : Nat) (s : State) : NoFaultTold s (bookCoinDue a n s).2 := by
  refine (bookCoinDue_booked a n s).2.noFaultTold fun p => ?_
  unfold Position.bookedCoinDue
  split
  · exact setAccount_retract _ _ _
  · rfl

theorem stageApplied_noFaultTold (d : Draft) (s : State) : NoFaultTold s (stageApplied d s).2 := by
  refine fun _ => ⟨?_, (tells_stageApplied d s).mono (by simp)⟩
  show (applyTo (stage d s).1 (stage d s).2).position.retract = _
  rw [applyTo_position]
  simp

theorem finishDispense_noFaultTold (w : Teller) (outcome : Nat) (taken : Quad Nat) (due : Bool) (reason : Option Reason)
    (carried : Results) (s : State) : NoFaultTold s (finishDispense w outcome taken due reason carried s) := by
  rw [finishDispense_eq]
  generalize dispenseDraft _ _ _ _ _ _ _ = draft
  generalize dispenseDone _ _ _ _ _ _ _ _ = done
  have h0 : NoFaultTold s (s.onPosition (fun p => p.takeAll w taken)) := noFaultTold_of_same (takeAll_retract w taken _) rfl
  have h1 := h0.trans (bookBalance_noFaultTold (drawerOf w) (s.value taken) _)
  have h2 := h1.trans (bookCoinDue_noFaultTold (remainderAccount w (s.dispense w).target)
    (if due then (s.dispense w).remainder else 0) _)
  generalize (bookCoinDue _ _ _).2 = x at h2 ⊢
  have h3 := (h2.trans (noFaultTold_of_same (t := release w.port .dispense x) (by simp) (by simp))).trans
    (stageApplied_noFaultTold draft _)
  generalize stageApplied draft _ = y at h3 ⊢
  refine h3.trans (noFaultTold_of_same ?_ ?_)
  · simp [State.onDispense, stepGeneration_position]
  · simp [State.onDispense]

theorem endDispense_noFaultTold (w : Teller) (outcome : Nat) (taken : Quad Nat) (due : Bool) (reason : Option Reason)
    (carried : Results) (s : State) : NoFaultTold s (endDispense w outcome taken due reason carried s) := by
  unfold endDispense
  generalize hx : stopTimers (.dispense w) (s.onDispense w _) = x
  refine NoFaultTold.trans (noFaultTold_of_same (t := x) (by rw [← hx]; simp) (by rw [← hx]; simp)) ?_
  unfold holdOrFinish
  split
  · exact finishDispense_noFaultTold w outcome taken due reason carried _
  · exact noFaultTold_of_same rfl rfl

theorem startDraw_noFaultTold (x : DrawSource) (cause : DrawCause) (q : Quad Nat) (s : State) :
    NoFaultTold s (startDraw x cause q s) := by
  intro hroom
  unfold startDraw
  rw [if_neg (by simp only [Position.retractFull, decide_eq_true_eq]; omega)]
  exact ⟨rfl, tells_of_ports _ rfl⟩

theorem present_noFaultTold (w : Teller) (s : State) : NoFaultTold s (present w s) := by
  refine fun _ => ⟨by simp, ?_⟩
  unfold present
  exact (tells_of_ports (t := s.onDispense w _) _ rfl).trans (tells_raise _ _ _ _ (by simp [Notice.kind]))

theorem stopShort_noFaultTold (w : Teller) (why : ShortCause) (s : State) : NoFaultTold s (stopShort w why s) := by
  unfold stopShort
  generalize hx : s.onDispense w _ = x
  refine NoFaultTold.trans (noFaultTold_of_same (t := x) (by rw [← hx]; rfl) (by rw [← hx]; rfl)) ?_
  simp only []
  split
  · exact present_noFaultTold w _
  · exact endDispense_noFaultTold w _ _ _ _ _ _

theorem beginStop_noFaultTold (w : Teller) (why : StopReason) (s : State) : NoFaultTold s (beginStop w why s) :=
  NoFaultTold.trans (noFaultTold_of_same (t := s.onDispense w _) rfl rfl) (startDraw_noFaultTold _ _ _ _)

theorem advance_noFaultTold (n : Nat) (w : Teller) (s : State) : NoFaultTold s (advance n w s) := by
  induction n generalizing s with
  | zero => exact noFaultTold_of_same rfl rfl
  | succ n ih =>
    obtain ⟨failed, hr⟩ := reMix_read w s
    unfold advance
    split
    · exact present_noFaultTold w s
    · split
      · exact noFaultTold_of_same rfl rfl
      · exact beginStop_noFaultTold w _ s
      · rcases hm : reMix w s with ⟨o, x⟩
        rw [hm] at hr
        cases o with
        | payable m => exact (hr.noFaultTold.trans (noFaultTold_of_same (t := x.onDispense w _) rfl rfl)).trans (ih _)
        | failed why carried =>
          simp only []
          split
          · exact hr.noFaultTold.trans (beginStop_noFaultTold w _ x)
          · exact hr.noFaultTold.trans (stopShort_noFaultTold w _ x)

theorem pickReported_noFaultTold (w : Teller) (s : State) : NoFaultTold s (pickReported w s) := by
  unfold pickReported
  simp only []
  split
  · exact beginStop_noFaultTold w _ s
  · split
    · exact present_noFaultTold w s
    · split
      · exact stopShort_noFaultTold w _ s
      · exact advance_noFaultTold _ w s

theorem grantChecks_noFaultTold (w : Teller) (s : State) : NoFaultTold s (grantChecks w s) := by
  unfold grantChecks
  refine NoFaultTold.trans (noFaultTold_of_same (t := s.onDispense w (fun d => { d with state := .queued, deferred := false })) rfl rfl) ?_
  generalize s.onDispense w (fun d => { d with state := .queued, deferred := false }) = x
  simp only []
  split
  · exact endDispense_noFaultTold w _ _ _ _ _ _
  · exact endDispense_noFaultTold w _ _ _ _ _ _
  · split
    · exact endDispense_noFaultTold w _ _ _ _ _ _
    · split
      · exact endDispense_noFaultTold w _ _ _ _ _ _
      · have hr := (requestMix_spec w (x.dispense w).amount (x.dispense w).cap (x.dispense w).preference (x.dispense w).target x).2
        split <;> rename_i hm <;> rw [hm] at hr
        · exact hr.noFaultTold.trans (endDispense_noFaultTold w _ _ _ _ _ _)
        · split
          · exact hr.noFaultTold.trans (endDispense_noFaultTold w _ _ _ _ _ _)
          · refine hr.noFaultTold.trans (NoFaultTold.trans (noFaultTold_of_same ?_ ?_) (advance_noFaultTold _ w _))
            · simp [State.onDispense]
            · simp [State.onDispense]

theorem takenUp_noFaultTold (s : State) : NoFaultTold s (takenUp s) := by
  have hr (w : Teller) (x : State) : NoFaultTold x (proceedRetract w x) := by
    unfold proceedRetract
    split
    · split
      · exact startDraw_noFaultTold _ _ _ x
      · exact noFaultTold_of_same (by rw [jamDispense_eq]) (by simp)
      · exact noFaultTold_of_same rfl rfl
    · exact noFaultTold_of_same rfl rfl
  have hd (w : Teller) (x : State) : NoFaultTold x (proceedDeferred w x) := by
    unfold proceedDeferred
    simp only []
    split
    · exact grantChecks_noFaultTold w x
    · exact noFaultTold_of_same rfl rfl
  exact (((hr .a s).trans (hr .b _)).trans (hd .a _)).trans (hd .b _)

end Sys2Proof.Machine
end

section
/-! A dispense after a pick's report: the stop, the presented pocket, the short end, the next pick, the re-mix (R43, R58, R61, R79 to R84). -/
namespace Sys2Proof.Machine

/-! ## A re-mix (R43) -/

/-- What a re-mix during picking finds (R42, R43). -/
def State.reMixFound (s : State) (w : Teller) : MixOutcome :=
  let d := s.dispense w
  if (verifyCassettes s).1 = false then .failed .audit .none
  else
    (s.mix d.preference d.delivered (d.cap - d.delivered.total) (d.payable - valueOf s.cassetteValues d.delivered) d.unpaid).judged
      w d.target d.limit s.position

/-- A re-mix reads the check words it needs, and finds AUDIT exactly where one of them fails. -/
theorem reMix_spec (w : Teller) (s : State) :
    (reMix w s).1 = s.reMixFound w ∧ WordsRead (s.reMixFound w = .failed .audit .none) s (reMix w s).2 := by
  unfold reMix State.reMixFound
  by_cases hw : WordsMatch s
  · rw [verifyCassettes_intact s hw, if_neg (by simp)]
    exact judgeMix_spec _ _ _ _ _
  · obtain ⟨r1, r2⟩ := verifyCassettes_read s
    have hfalse : (verifyCassettes s).1 = false := Bool.eq_false_iff.mpr (mt r1.mp hw)
    rw [if_pos hfalse]
    simp only [hfalse, Bool.not_false, if_true]
    exact ⟨trivial, r2.congr (by simp [hw])⟩

/-- AUDIT carries nothing. -/
theorem reMixFound_audit (s : State) (w : Teller) (carried : Results) (h : s.reMixFound w = .failed .audit carried) :
    carried = .none := by
  unfold State.reMixFound MixResult.judged at h
  simp only [] at h
  (repeat' split at h) <;> simp at h <;> exact h.symm

/-- A state with other notices on their way. -/
def State.telling (x : State) (q : Ports) : State := { x with ports := q }

/-- The notices on their way decide nothing of a re-mix. -/
theorem reMixFound_telling (x : State) (q : Ports) (w : Teller) : (x.telling q).reMixFound w = x.reMixFound w := by
  have hw : (verifyCassettes (x.telling q)).1 = (verifyCassettes x).1 := by
    rw [Bool.eq_iff_iff, (verifyCassettes_read _).1, (verifyCassettes_read x).1]
    exact Iff.rfl
  unfold State.reMixFound
  rw [hw]
  rfl

/-- A re-mix that finds no failing word leaves the state as it was, whatever notices are on their way. -/
theorem reMix_telling (x : State) (q : Ports) (w : Teller) (o : MixOutcome) (h : (reMix w x).1 = o) (ho : o ≠ .failed .audit .none) :
    reMix w (x.telling q) = (o, x.telling q) := by
  have hx : x.reMixFound w = o := (reMix_spec w x).1.symm.trans h
  obtain ⟨h1, h2⟩ := reMix_spec w (x.telling q)
  rw [reMixFound_telling, hx] at h1 h2
  exact Prod.ext h1 (h2.fine ho)

/-! ## What the end of the step shows -/

/-- A state shows all that a step has left, and every notice that it has raised. -/
structure Shows (y t : State) : Prop where
  kept : KeptBut [] y t
  tells : Tells [.alarmChange] y t

theorem settle_shows (y : State) (hq : Quiet y) (hp : y.powered = true) : Shows y (settle y) :=
  ⟨settle_keeps_quiet y hq hp, fun p n hn hk => settle_told p n y hq hp hn (by simpa using hk)⟩

/-- A command after which a window's dispense has worked, and any other whose grant or retract then came up: it touches nothing else. -/
theorem does_dispensing (c : Instr) (s y : State) (effect : State → Prop) (he : exec c s = done y) (hrun : s.running = true)
    (hk : KeptBut dispensing s y)
    (hx : ∀ t, (Quiet y → Shows y t) → NoFaultTold y (takenUp y) → Shows (takenUp y) t → effect t) :
    Does c dispensing s effect := by
  have hpw {z : State} (h : KeptBut dispensing s z) : z.powered = true := by
    rw [State.powered, show z.startUp = s.startUp from h .startUp (by simp)]
    exact powered_of_running s hrun
  have hz := hk.trans (takenUp_kept y)
  have hshows := settle_shows (takenUp y) (takenUp_quiet y) (hpw hz)
  rw [← settle_takenUp y (hpw hk)] at hshows
  refine ⟨settle y, he, hz.trans (hshows.kept.mono (by simp)), hx _ (fun hq => ?_) (takenUp_noFaultTold y) hshows⟩
  exact settle_shows y hq (hpw hk)

/-! ## Nothing waits (R77, R86) -/

/-- A dispense record changed in what nothing waits for. -/
theorem quiet_onDispense (w : Teller) (d : Dispense) (x : State) (hq : Quiet x) (h1 : d.state = (x.dispense w).state)
    (h2 : d.deferred = (x.dispense w).deferred) (h3 : d.ending = (x.dispense w).ending) :
    Quiet (x.onDispense w fun _ => d) := by
  refine quiet_of_alike x _ hq (fun u => ?_) rfl rfl rfl
  rcases eq_or_ne u w with rfl | hne
  · rw [onDispense_self]
    exact ⟨h1, h2, h3⟩
  · rw [State.onDispense_dispense_other _ _ _ _ hne]
    exact ⟨rfl, rfl, rfl⟩

/-- A window that presents leaves what else waits as it was. -/
theorem quiet_presenting (w : Teller) (s t : State) (h : Quiet s) (hw : WithinWindow w s t) (hp : t.path = s.path)
    (hs : (t.dispense w).state = .presenting) : Quiet t := by
  intro u
  rcases eq_or_ne u w with rfl | hne
  · exact ⟨by rw [hs]; simp, retractSettled_of_state (by rw [hs]; decide)⟩
  · obtain rfl := Teller.eq_other hne
    refine ⟨fun ⟨_, _, hfree⟩ => ?_, fun hr => ?_⟩
    · have hw' : w.other.other = w := by cases w <;> rfl
      rw [hw', opInFlight_teller, hs] at hfree
      cases hfree.1
    · rw [hp]
      exact (h w.other).2 (by simpa only [State.retractWaits, hw.other, hp] using hr)

/-- A draw under way leaves no retract waiting. -/
theorem quiet_drawing (s : State) (q : NotePath) (h : Quiet s) (hd : q.draw.isSome = true) : Quiet { s with path := q } := by
  intro u
  refine ⟨(h u).1, fun hr => ?_⟩
  simp only [State.retractWaits, Bool.and_eq_true] at hr
  rw [Option.isNone_iff_eq_none] at hr
  rw [hr.2] at hd
  cases hd

/-! ## The ways to go on (R79 to R84) -/

/-- The draw back of TRANSIT begins (R83). -/
theorem beginStop_begun (w : Teller) (why : StopReason) (d : Dispense) (x t : State) (hq : Quiet (x.onDispense w fun _ => d))
    (hroom : x.position.retract.total < Config.retractNotes)
    (h : Quiet (beginStop w why (x.onDispense w fun _ => d)) → Shows (beginStop w why (x.onDispense w fun _ => d)) t) :
    StopBegun w why d x t ∧ Tells [.alarmChange] x t := by
  let z : State := { x.onDispense w (fun _ => { d with stop := some why }) with
    path :=
      { x.path with
        draw := some ⟨.transit, .stop w why, x.position.transit, Quad.zero⟩
        timers := x.path.timers ++ [⟨.dispense w, .transit, false⟩] } }
  have hz : beginStop w why (x.onDispense w fun _ => d) = z := by
    have hset : (x.onDispense w fun _ => d).onDispense w (fun d => { d with stop := some why }) =
        x.onDispense w (fun _ => { d with stop := some why }) := by
      simp only [State.onDispense, Pair.get_set_self, Pair.set_set]
    unfold beginStop startDraw
    rw [hset, if_neg]
    · rfl
    · simp only [Position.retractFull, decide_eq_true_eq]
      show ¬(Config.retractNotes ≤ x.position.retract.total ∧ _)
      omega
  rw [hz] at h
  have hquiet : Quiet (x.onDispense w fun _ => { d with stop := some why }) := by
    have := quiet_onDispense w { d with stop := some why } _ hq (by rw [onDispense_self]) (by rw [onDispense_self])
      (by rw [onDispense_self])
    simpa only [State.onDispense, Pair.set_set] using this
  obtain ⟨hk, hn⟩ := h (quiet_drawing _ _ hquiet rfl)
  exact ⟨⟨hk .position (by simp), hk .journal (by simp), hk .dispenses (by simp), hk .path (by simp)⟩,
    (tells_of_ports (t := z) _ rfl).trans hn⟩

/-- The pocket is presented (R84). -/
theorem present_presented (w : Teller) (d : Dispense) (x t : State) (hq : Quiet (x.onDispense w fun _ => d))
    (h : Quiet (present w (x.onDispense w fun _ => d)) → Shows (present w (x.onDispense w fun _ => d)) t) :
    Presented w d x t := by
  have hd := onDispense_self w (fun _ => d) x
  have hdis : (present w (x.onDispense w fun _ => d)).dispenses =
      x.dispenses.set w
        { d with
          state := .presenting
          presented := x.byDenomination d.delivered
          unpaid := if d.short.isSome then d.amount - x.value (x.byDenomination d.delivered) else d.unpaid
          shutterOpen := true
          presentTimer := some x.settings.presentTimeout } := by
    unfold present
    simp only [raise_keeps, hd]
    simp only [State.onDispense, Pair.get_set_self, Pair.set_set]
    rfl
  have htold : Told w.port (.present d.startSequence (x.byDenomination d.delivered) (x.value (x.byDenomination d.delivered))
      d.short.isSome x.settings.presentTimeout) (present w (x.onDispense w fun _ => d)) := by
    unfold present
    simp only [hd]
    exact raise_told _ _ _
  obtain ⟨hk, hn⟩ := h (quiet_presenting w _ _ hq (present_within w _) (by simp) (by
    rw [State.dispense, hdis, Pair.get_set_self]))
  exact ⟨(hk .position (by simp)).trans (by simp), (hk .journal (by simp)).trans (by simp),
    (hk .path (by simp)).trans (by simp), (hk .dispenses (by simp)).trans hdis, hn _ _ htold (by simp [Notice.kind])⟩

/-- A dispense that ends with nothing paid (R81, R91). -/
theorem endDispense_unpaid (w : Teller) (outcome n : Nat) (z t : State) (hroom : EndRoom n z)
    (h : Shows (endDispense w outcome Quad.zero false none .none z) t) : DispenseEnded w outcome Quad.zero n z.position z t := by
  obtain ⟨p, hclosed, haudit⟩ := (endDispense_ends w outcome Quad.zero false none .none n z hroom (fun k => by simp)).closed
  have hcoin : z.coinBooked w 0 = 0 := by simp [State.coinBooked]
  have hmiss : z.takenMissed w Quad.zero 0 = 0 := by simp [State.takenMissed, value_zero, balanceFits]
  have hp : p = z.position := by
    rw [haudit.1 (by simp [TakenWordFails, value_zero])]
    exact takenPosition_zero w z
  simp only [Bool.false_eq_true, if_false, hcoin, hmiss, hp] at hclosed
  exact hclosed.transfer rfl rfl rfl rfl rfl rfl (h.kept .dispenses (by simp)) (h.kept .path (by simp))
    (h.kept .position (by simp)) (h.kept .journal (by simp))

/-- Picking stops short (R81, R82). -/
theorem stopShort_stopped (w : Teller) (why : ShortCause) (d : Dispense) (x t : State) (hq : Quiet (x.onDispense w fun _ => d))
    (h : Quiet (stopShort w why (x.onDispense w fun _ => d)) → Shows (stopShort w why (x.onDispense w fun _ => d)) t) :
    StoppedShort w why d x t := by
  let short : Dispense := { d with short := some why, unpaid := d.amount }
  have hset : (x.onDispense w fun _ => d).onDispense w (fun d => { d with short := some why, unpaid := d.amount }) =
      x.onDispense w (fun _ => short) := by
    simp only [State.onDispense, Pair.get_set_self, Pair.set_set]
    rfl
  have hz : stopShort w why (x.onDispense w fun _ => d) =
      if 0 < d.delivered.total then present w (x.onDispense w fun _ => short)
      else endDispense w 3 Quad.zero false none .none (x.onDispense w fun _ => short) := by
    unfold stopShort
    simp only [hset, onDispense_self]
    rfl
  rw [hz] at h
  unfold StoppedShort
  simp only []
  by_cases hpos : 0 < d.delivered.total
  · rw [if_pos hpos] at h ⊢
    refine present_presented w short x t ?_ h
    have := quiet_onDispense w short _ hq (by rw [onDispense_self]) (by rw [onDispense_self]) (by rw [onDispense_self])
    simpa only [State.onDispense, Pair.set_set] using this
  · rw [if_neg hpos] at h ⊢
    intro n hroom hrest
    obtain ⟨p, hclosed, -⟩ := (endDispense_ends w 3 Quad.zero false none .none n (x.onDispense w fun _ => short) hroom
      (fun k => by simp)).closed
    have hidle := hclosed.1.trans (Pair.set_set _ _ _ _)
    exact endDispense_unpaid w 3 n _ t hroom (h (quiet_of_ended w x _ hrest hidle))

/-- The next pick is commanded (R79). -/
theorem pick_commanded (w : Teller) (d : Dispense) (k c : Ix) (x t : State) (hq : Quiet (x.onDispense w fun _ => d))
    (h : Quiet ((x.onDispense w fun _ => d).onPath (fun q => { q with pick := some ⟨w, k, c, .commanded⟩ })) →
      Shows ((x.onDispense w fun _ => d).onPath (fun q => { q with pick := some ⟨w, k, c, .commanded⟩ })) t) :
    PickCommanded w d k c x t := by
  obtain ⟨hk, -⟩ := h (quiet_of_alike _ _ hq (fun _ => ⟨rfl, rfl, rfl⟩) rfl rfl rfl)
  exact ⟨hk .position (by simp), hk .journal (by simp), hk .dispenses (by simp), hk .path (by simp)⟩

/-! ## Picking goes on (R43, R79 to R83) -/

/-- Picking with a record whose mix is not delivered in full: the command of the next pick decides. -/
theorem advance_next (n : Nat) (w : Teller) (s : State) (k : Ix) (hk : (s.dispense w).nextCassette = some k) :
    (∀ c, s.commandPick k = .started c → advance (n + 1) w s = s.onPath (fun q => { q with pick := some ⟨w, k, c, .commanded⟩ })) ∧
      (s.commandPick k = .locked → advance (n + 1) w s = beginStop w .locked s) ∧
      (s.commandPick k = .earlyEmpty →
        (∀ (m : MixResult) (y : State), reMix w s = (.payable m, y) →
          advance (n + 1) w s =
            advance n w (y.onDispense w (fun d => { d with mix := Quad.add d.delivered m.mix, remainder := m.remainder }))) ∧
        ∀ (why : Reason) (carried : Results) (y : State), reMix w s = (.failed why carried, y) →
          advance (n + 1) w s = if why = .audit then beginStop w .audit y else stopShort w .earlyEmpty y) := by
  refine ⟨fun c hc => ?_, fun hc => ?_, fun hc => ⟨fun m y hm => ?_, fun why carried y hm => ?_⟩⟩
  all_goals
    rw [advance]
    simp only [hk, hc]
  · simp only [hm]
  · simp only [hm]

theorem onDispense_same (w : Teller) (x : State) : (x.onDispense w fun _ => x.dispense w) = x :=
  congrArg (fun p => { x with dispenses := p }) (Pair.set_get x.dispenses w)

section
variable {w : Teller} {x : State} {q : Ports} {t : State}

/-- A re-mix that is payable: its first pick, or MODULE_LOCK's stop (R43, R58, R79). -/
theorem remixed_goesOn (k : Ix) (m : MixResult) (hq : Quiet x) (hnext : (x.dispense w).nextCassette = some k)
    (hcmd : x.commandPick k = .earlyEmpty) (hm : reMix w x = (.payable m, x))
    (h : Quiet (advance advanceBound w (x.telling q)) → Shows (advance advanceBound w (x.telling q)) t) :
    let r : Dispense := { x.dispense w with mix := Quad.add (x.dispense w).delivered m.mix, remainder := m.remainder }
    (∀ k' c : Ix, r.nextCassette = some k' → x.commandPick k' = .started c → PickCommanded w r k' c x t) ∧
      ∀ k' : Ix, r.nextCassette = some k' → x.commandPick k' = .locked → x.position.retract.total < Config.retractNotes →
        StopBegun w .locked r x t := by
  intro r
  have hr : Quiet ((x.telling q).onDispense w fun _ => r) := quiet_onDispense w r (x.telling q) hq rfl rfl rfl
  rw [show advance advanceBound w (x.telling q) = advance 4 w ((x.telling q).onDispense w fun _ => r) from
    ((advance_next 4 w (x.telling q) k hnext).2.2 hcmd).1 m _ (reMix_telling x q w _ (by rw [hm]) (by simp))] at h
  have hstep (k' : Ix) (hk' : r.nextCassette = some k') := advance_next 3 w ((x.telling q).onDispense w fun _ => r) k'
    (by rw [onDispense_self]; exact hk')
  refine ⟨fun k' c hk' hc => ?_, fun k' hk' hc hroom => ?_⟩
  · rw [(hstep k' hk').1 c hc] at h
    exact pick_commanded w r k' c (x.telling q) t hr h
  · rw [(hstep k' hk').2.1 hc] at h
    exact (beginStop_begun w .locked r (x.telling q) t hr hroom h).1

/-- A re-mix that meets a failing check word: the AUDIT stop (R9, R43, R83). -/
theorem unread_goesOn (k : Ix) (carried : Results) (y : State) (hq : Quiet x) (hnext : (x.dispense w).nextCassette = some k)
    (hcmd : x.commandPick k = .earlyEmpty) (hm : reMix w x = (.failed .audit carried, y))
    (hroom : x.position.retract.total < Config.retractNotes)
    (h : Quiet (advance advanceBound w (x.telling q)) → Shows (advance advanceBound w (x.telling q)) t) :
    IntegrityFound x t ∧ StopBegun w .audit (x.dispense w) { x with position := t.position } t := by
  have hfound : x.reMixFound w = .failed .audit carried := by rw [← (reMix_spec w x).1, hm]
  obtain rfl := reMixFound_audit x w carried hfound
  obtain ⟨houtcome, hread⟩ := reMix_spec w (x.telling q)
  rw [reMixFound_telling, hfound] at houtcome hread
  generalize hu : (reMix w (x.telling q)).2 = u at hread
  have hrest : u = { x with position := u.position, ports := u.ports } := hread.rest
  have hdis : u.dispense w = x.dispense w := by rw [hrest]; rfl
  have hsame : (u.onDispense w fun _ => x.dispense w) = u := by rw [← hdis]; exact onDispense_same w u
  rw [show advance advanceBound w (x.telling q) = beginStop w .audit u from
    ((advance_next 4 w (x.telling q) k hnext).2.2 hcmd).2 .audit .none u (Prod.ext houtcome hu), ← hsame] at h
  have huq : Quiet (u.onDispense w fun _ => x.dispense w) := by
    rw [hsame]
    exact quiet_of_eq x u hq (by rw [hrest]) (by rw [hrest]) (by rw [hrest])
  obtain ⟨hbegun, htells⟩ := beginStop_begun w .audit (x.dispense w) u t huq (by rw [hread.records]; exact hroom) h
  have htp : t.position = u.position := hbegun.1
  refine ⟨IntegrityFound.transfer (hread.found rfl) rfl rfl rfl htp fun p n hp hn => htells p n hp (by simpa using hn), ?_⟩
  rw [hrest, ← htp] at hbegun
  exact hbegun

/-- The dispense controller acts on the report after a pick, whatever notices that report has raised (R79 to R83). -/
theorem pickReported_goesOn (hq : Quiet x)
    (h : Quiet (pickReported w (x.telling q)) → Shows (pickReported w (x.telling q)) t) : PickingGoesOn w x t := by
  have hsame : ((x.telling q).onDispense w fun _ => x.dispense w) = x.telling q := onDispense_same w (x.telling q)
  have hquiet : Quiet ((x.telling q).onDispense w fun _ => x.dispense w) := hsame.symm ▸ hq
  have hrep : pickReported w (x.telling q) =
      match (x.dispense w).stop with
      | some why => beginStop w why (x.telling q)
      | none =>
        match (x.dispense w).nextCassette with
        | none => present w (x.telling q)
        | some _ =>
          if Config.rejectLimit ≤ (x.dispense w).diverted then stopShort w .rejectLimit (x.telling q)
          else advance advanceBound w (x.telling q) := rfl
  unfold PickingGoesOn
  simp only []
  split
  · next why hstop =>
    simp only [hstop] at hrep
    rw [hrep, ← hsame] at h
    exact fun hroom => (beginStop_begun w why (x.dispense w) (x.telling q) t hquiet hroom h).1
  · next hstop hnext =>
    simp only [hstop, hnext] at hrep
    rw [hrep, ← hsame] at h
    exact present_presented w (x.dispense w) (x.telling q) t hquiet h
  · next k hstop hnext =>
    simp only [hstop, hnext] at hrep
    split
    · next hlimit =>
      rw [hrep, if_pos (by exact hlimit), ← hsame] at h
      exact stopShort_stopped w .rejectLimit (x.dispense w) (x.telling q) t hquiet h
    · next hlimit =>
      rw [hrep, if_neg (by exact hlimit)] at h
      obtain ⟨hstarted, hlocked, hempty⟩ := advance_next 4 w (x.telling q) k hnext
      split
      · next c hcmd =>
        rw [advanceBound, hstarted c hcmd, ← hsame] at h
        exact pick_commanded w (x.dispense w) k c (x.telling q) t hquiet h
      · next hcmd =>
        rw [advanceBound, hlocked hcmd, ← hsame] at h
        exact fun hroom => (beginStop_begun w .locked (x.dispense w) (x.telling q) t hquiet hroom h).1
      · next hcmd =>
        refine ⟨fun m hm => remixed_goesOn k m hq hnext hcmd hm h, fun why carried hwhy hm => ?_,
          fun carried y hm hroom => unread_goesOn k carried y hq hnext hcmd hm hroom h⟩
        rw [advanceBound, (hempty hcmd).2 why carried _ (reMix_telling x q w _ (by rw [hm]) (by simp [hwhy])), if_neg hwhy,
          ← hsame] at h
        exact stopShort_stopped w .earlyEmpty (x.dispense w) (x.telling q) t hquiet h

end

end Sys2Proof.Machine
end

section
/-! Empty picks and note checks, and what the dispense goes on with (R43, R59 to R62, R79 to R84). -/
namespace Sys2Proof.Machine

theorem Does.mono {c : Instr} {changed : List Block} {s : State} {e e' : State → Prop} (h : Does c changed s e)
    (he : ∀ t, e t → e' t) : Does c changed s e' := by
  obtain ⟨t, h1, h2, h3⟩ := h
  exact ⟨t, h1, h2, he t h3⟩

/-- A command that reports a pick, in the state that its report leaves: the dispense goes on from it, and with room in the RETRACT BIN
what the report has told stays told. -/
theorem report_goesOn (c : Instr) (w : Teller) (s x : State) (q : Ports) (he : exec c s = done (pickReported w (x.telling q)))
    (hrun : s.running = true) (hq : Quiet x) (hk : KeptBut dispensing s (x.telling q)) :
    Does c dispensing s (fun t =>
      PickingGoesOn w x t ∧
        (x.position.retract.total < Config.retractNotes →
          Tells [.present, .restriction, .journalHigh, .alarmChange] (x.telling q) t)) := by
  have hkept := hk.trans ((pickReported_within w (x.telling q)).kept (pickReported_keeps w (x.telling q)))
  refine does_dispensing c s _ _ he hrun hkept fun t hshows htold htaken => ⟨pickReported_goesOn hq hshows, fun hroom => ?_⟩
  obtain ⟨-, htells⟩ := (pickReported_noFaultTold w (x.telling q)).trans htold hroom
  exact (htells.mono (by simp)).trans (htaken.tells.mono (by simp))

/-! ## Empty picks (R60, R61) -/

theorem cassetteLost_iff (s : State) (k : Ix) :
    s.cassetteLost k = true ↔ (s.position.cassettes.get k).state = .absent ∨ (s.position.cassettes.get k).state = .released := by
  simp [State.cassetteLost]

/-- A record written in FAULT is told to nobody as LOW or EMPTY (R5). -/
theorem writeCassetteAs_fault (k : Ix) (c : Cassette) (s : State) (h : c.state = .fault) :
    writeCassetteAs k c s = s.onPosition (fun p => p.setCassette k { c with intact := true }) := by
  unfold writeCassetteAs watchLow
  simp [State.onPosition, Position.setCassette, h]

/-- The position once a cassette's third empty pick has failed it (R60). -/
def Position.pickFailed (k d : Ix) (p : Position) : Position :=
  let c := p.cassettes.get k
  { p with
    cassettes := p.cassettes.set k { c with counts := c.counts.set d 0, state := .fault, pickFailed := true }
    discrepancy := p.discrepancy.set d (p.discrepancy.get d + c.counts.get d) }

/-- A cassette whose word matches fails: its count is a shortage, and port S is told (R60). -/
theorem failCassette_intact (w : Teller) (k d : Ix) (s : State) (hi : (s.position.cassettes.get k).intact = true) :
    failCassette w k d s =
      raise .s (.moduleFault (.pickFailure k))
        { s with
          position := s.position.pickFailed k d
          dispenses := s.dispenses.set w { s.dispense w with changed := true } } := by
  have hread : readForPick w k s = s := by
    unfold readForPick
    rw [verifyCassette_intact k s hi]
    rfl
  unfold failCassette
  simp only [hread]
  rw [writeCassetteAs_fault _ _ _ rfl]
  simp only [State.onPosition, State.onDispense, Position.setCassette, Position.pickFailed, hi]
  rfl

/-- The third empty pick in a row, counted (R60). -/
theorem countMiss_third (w : Teller) (k d : Ix) (s : State) (hn : (s.dispense w).misses.get k + 1 = 3)
    (hi : (s.position.cassettes.get k).intact = true) :
    countMiss ⟨w, k, d, .commanded⟩ s =
      raise .s (.moduleFault (.pickFailure k))
        { s with
          position := s.position.pickFailed k d
          dispenses := s.dispenses.set w
            { s.dispense w with misses := (s.dispense w).misses.set k ((s.dispense w).misses.get k + 1), changed := true } } := by
  have hfail : countMiss ⟨w, k, d, .commanded⟩ s =
      failCassette w k d (setMisses w k ((s.dispense w).misses.get k + 1) s) := if_pos hn
  rw [hfail, failCassette_intact w k d (setMisses w k _ s) hi]
  simp only [setMisses, State.dispense, State.onDispense, Pair.get_set_self, Pair.set_set]

/-- An empty pick's report: not counted where the cassette is lost, else counted, and the third fails the cassette (R60, R61). -/
theorem emptyPick_exec (w : Teller) (k d : Ix) (s : State) (hrun : s.running = true)
    (hpick : s.path.pick = some ⟨w, k, d, .commanded⟩) :
    exec (.pickEvent .m0) s =
      done
        (pickReported w
          (if s.cassetteLost k then s.onPath (fun q => { q with pick := none })
            else countMiss ⟨w, k, d, .commanded⟩ (s.onPath (fun q => { q with pick := none })))) := by
  show done (event (pickReport .m0) s) = _
  rw [event_running _ _ hrun]
  unfold pickReport
  rw [hpick]
  rfl

/-- Settles O22: the report is not counted, counted, or fails the cassette, and the dispense goes on from the state so reached. -/
theorem emptyPicksFailCassette : Obligations.EmptyPicksFailCassette := by
  unfold Obligations.EmptyPicksFailCassette
  intro w k d s hrun hq hpick n missed c lost idle changed
  have he := emptyPick_exec w k d s hrun hpick
  have hidle : Quiet idle := quiet_of_alike s idle hq (fun _ => ⟨rfl, rfl, rfl⟩) rfl rfl rfl
  have hkept (p : Position) (ds : Pair Dispense) (q : Ports) (hl : q.lines = s.ports.lines) :
      KeptBut dispensing s (({ idle with position := p, dispenses := ds } : State).telling q) := by
    intro b hb
    cases b
    case position | dispenses | path | journal => simp at hb
    case ports => exact kept_ports_of_lines _ _ hl
    all_goals simp [Kept, State.telling, idle]
  refine ⟨fun hlost => ?_, fun hlost hn => ?_, fun hlost hn hi => ?_⟩
  · rw [if_pos ((cassetteLost_iff s k).mpr hlost)] at he
    exact (report_goesOn _ w s idle s.ports he hrun hidle (hkept _ _ _ rfl)).mono fun _ h => h.1
  all_goals rw [if_neg (mt (cassetteLost_iff s k).mp hlost)] at he
  · have hcount : countMiss ⟨w, k, d, .commanded⟩ idle = { idle with dispenses := s.dispenses.set w missed } := if_neg hn
    rw [show s.onPath (fun q => { q with pick := none }) = idle from rfl, hcount] at he
    have hquiet : Quiet ({ idle with dispenses := s.dispenses.set w missed } : State) :=
      quiet_onDispense w missed idle hidle rfl rfl rfl
    exact (report_goesOn _ w s _ s.ports he hrun hquiet (hkept _ _ _ rfl)).mono fun _ h => h.1
  · let x : State := { idle with
      dispenses := s.dispenses.set w { missed with changed := true }, position := s.position.pickFailed k d }
    have hcount : countMiss ⟨w, k, d, .commanded⟩ idle = raise .s (.moduleFault (.pickFailure k)) x :=
      countMiss_third w k d idle hn hi
    have htold := raise_told .s (.moduleFault (.pickFailure k)) x
    have hlines : (raise .s (.moduleFault (.pickFailure k)) x).ports.lines = s.ports.lines := raise_lines _ _ _
    rw [show s.onPath (fun q => { q with pick := none }) = idle from rfl, hcount] at he
    have hquiet : Quiet x := quiet_of_alike _ x (quiet_onDispense w { missed with changed := true } idle hidle rfl rfl rfl)
      (fun _ => ⟨rfl, rfl, rfl⟩) rfl rfl rfl
    refine (report_goesOn _ w s x _ he hrun hquiet (hkept _ _ _ hlines)).mono fun t ⟨hgo, htells⟩ => ⟨hgo, fun hroom => ?_⟩
    exact htells hroom _ _ htold (by simp [Notice.kind])

/-! ## Note checks (R59) -/

/-- A note is there to be moved (R3). -/
theorem move_one (p : Position) (src dst : Store) (d : Ix) (h : 0 < (p.stored src).get d) :
    p.move src dst d 1 =
      (p.setStored src (Quad.minus (p.stored src) d 1)).setStored dst
        (Quad.plus ((p.setStored src (Quad.minus (p.stored src) d 1)).stored dst) d 1) := by
  unfold Position.move
  simp only [Nat.min_eq_left h]

/-- A window's record once a note has been checked (R59). -/
def Dispense.checked (d : Dispense) (k : Ix) (good : Bool) : Dispense :=
  if good then { d with delivered := Quad.plus d.delivered k 1 } else { d with diverted := d.diverted + 1 }

/-- The position once a note has been checked (R59). -/
def Position.routed (p : Position) (w : Teller) (d : Ix) (good : Bool) : Position :=
  if good then
    { p with transit := Quad.minus p.transit d 1, pockets := p.pockets.set w (Quad.plus (p.pockets.get w) d 1) }
  else { p with transit := Quad.minus p.transit d 1, reject := Quad.plus p.reject d 1 }

theorem routeNote_eq (w : Teller) (k d : Ix) (stage : PickStage) (m : Multiplicity) (r : NoteCheck) (s : State)
    (h : 0 < s.position.transit.get d) :
    routeNote ⟨w, k, d, stage⟩ m r s =
      { s with
        position := s.position.routed w d (m == .m1 && r == .good)
        dispenses := s.dispenses.set w ((s.dispense w).checked k (m == .m1 && r == .good)) } := by
  unfold routeNote
  by_cases hgood : m = .m1 ∧ r = .good
  · rw [if_pos hgood, show (m == Multiplicity.m1 && r == NoteCheck.good) = true by simp [hgood]]
    simp only [State.onPosition, move_one _ .transit (.pocket w) d h]
    rfl
  · have hbad : (m == Multiplicity.m1 && r == NoteCheck.good) = false := by
      rw [Bool.eq_false_iff]
      simpa using hgood
    rw [if_neg hgood, hbad]
    simp only [State.onPosition, move_one _ .transit .reject d h]
    rfl

theorem quiet_checked (w : Teller) (k : Ix) (good : Bool) (p : Position) (q : NotePath) (s : State) (hq : Quiet s)
    (hs : q.state = s.path.state) (hd : q.draw = s.path.draw) :
    Quiet { s with position := p, path := q, dispenses := s.dispenses.set w ((s.dispense w).checked k good) } := by
  have hchecked : Quiet (s.onDispense w fun _ => (s.dispense w).checked k good) := by
    refine quiet_onDispense w _ s hq ?_ ?_ ?_ <;> cases good <;> rfl
  exact quiet_of_alike _ _ hchecked (fun _ => ⟨rfl, rfl, rfl⟩) hs hd rfl

/-- A note's check, step by step (R59, R62). -/
theorem noteCheck_exec (w : Teller) (k d : Ix) (m : Multiplicity) (left : Nat) (r : NoteCheck) (s : State) (hrun : s.running = true)
    (hpick : s.path.pick = some ⟨w, k, d, .checking m left⟩) (h : 0 < s.position.transit.get d) :
    let x : State := { s with
      position := s.position.routed w d (m == .m1 && r == .good)
      dispenses := s.dispenses.set w ((s.dispense w).checked k (m == .m1 && r == .good))
      path :=
        { s.path with
          pick := if left ≤ 1 then none else some ⟨w, k, d, .checking m (left - 1)⟩
          timers := checkTimers w s.path.timers } }
    exec (.noteCheck r) s = done (if left ≤ 1 then pickReported w x else x) := by
  show done (event (checkNote r) s) = _
  rw [event_running _ _ hrun]
  unfold checkNote
  rw [hpick]
  simp only [routeNote_eq w k d _ m r s h]
  rfl

/-- Settles O23: the note routed and timed; after the pick's last note the dispense goes on from the state so reached. -/
theorem noteCheckRoutesNote : Obligations.NoteCheckRoutesNote := by
  unfold Obligations.NoteCheckRoutesNote
  intro w k d m left r s hrun hq hpick hpos good after position timed
  have he := noteCheck_exec w k d m left r s hrun hpick hpos
  have htimed : timed (checkTimers w s.path.timers) :=
    ⟨fun before rest n hs ho hn hb => by rw [hs]; exact checkTimers_first w before rest n hb ho hn, checkTimers_none w _⟩
  refine ⟨fun hleft => ?_, fun hleft => ?_⟩
  · have hmore : ¬left ≤ 1 := by omega
    simp only [if_neg hmore] at he
    refine does_done _ _ s _ _ he (quiet_checked w k good _ _ s hq rfl rfl) (powered_of_running s hrun) ?_ fun t hk _ => ?_
    · intro b hb
      cases b
      case position | dispenses | path => simp at hb
      all_goals simp [Kept]
    · have hpath := hk .path (by simp)
      refine ⟨hk .position (by simp), hk .dispenses (by simp), ?_, ?_⟩
      · rw [hpath]; exact htimed
      · rw [hpath]
  · simp only [if_pos hleft] at he
    have hquiet := quiet_checked w k good (s.position.routed w d good)
      { s.path with pick := none, timers := checkTimers w s.path.timers } s hq rfl rfl
    refine (report_goesOn _ w s _ s.ports he hrun hquiet ?_).mono fun t h => ⟨_, htimed, h.1⟩
    intro b hb
    cases b
    case position | dispenses | path | journal => simp at hb
    all_goals simp [Kept, State.telling]

end Sys2Proof.Machine
end

section
/-! A full RETRACT BIN stops a draw: its dispense or purge ends as at a jam (R62, R65, R66). -/
namespace Sys2Proof.Machine

theorem Does.blocks {c : Instr} {bs bs' : List Block} {s : State} {e : State → Prop} (h : Does c bs s e)
    (hb : ∀ b, b ∈ bs → b ∈ bs') : Does c bs' s e := by
  obtain ⟨t, h1, h2, h3⟩ := h
  exact ⟨t, h1, h2.mono hb, h3⟩

/-! ## What the end of a purge tells (R65) -/

/-- A purge that does not leave the module READY tells no fault. -/
theorem finishPurge_tells (p : Purge) (outcome : PurgeOutcome) (s : State) (h1 : outcome ≠ .complete) (h2 : outcome ≠ .short) :
    Tells [.restriction, .journalHigh] s (finishPurge p outcome s) := by
  have hready : (outcome == .complete || outcome == .short) = false := by simp [h1, h2]
  rw [finishPurge_eq]
  simp only [hready, Bool.false_eq_true, if_false]
  generalize (s.closedBy p).any (fun r => r.kind == .commit) = debits
  have hdebit : Tells [.restriction] s (purgeDebit debits s).2 :=
    (tells_of_ports (t := s.onEscrow _) _ rfl).trans (purgeDebit_booked debits s).2.tells
  generalize purgeDebit debits s = b at hdebit ⊢
  generalize purgeDraft p outcome (s.closedBy p) _ _ = draft
  generalize hy : b.2.onJournal _ = y
  have hstage : Tells [.journalHigh] b.2 (if s.closedBy p = [] then eventApplied draft y else stageApplied draft y).2 := by
    refine (tells_of_ports (t := y) _ (by rw [← hy]; rfl)).trans ?_
    split
    · exact tells_eventApplied _ _
    · exact tells_stageApplied _ _
  generalize (if s.closedBy p = [] then eventApplied draft y else stageApplied draft y) = x at hstage ⊢
  exact ((hdebit.mono (by simp)).trans (hstage.mono (by simp))).trans (tells_of_ports _ (by simp))

theorem endPurge_tells (outcome : PurgeOutcome) (s : State) (h1 : outcome ≠ .complete) (h2 : outcome ≠ .short) :
    Tells [.restriction, .journalHigh] s (endPurge outcome s) := by
  unfold endPurge
  generalize hx : stopTimers .purge (s.onPath _) = x
  refine (tells_of_ports (t := x) _ (by rw [← hx]; simp)).trans ?_
  simp only []
  split
  · exact tells_of_ports _ rfl
  · next p _ =>
    generalize hy : x.onPath _ = y
    have hend : Tells [.restriction, .journalHigh] y (finishEnd (.purge outcome) y) := by
      show Tells _ y (match y.path.purge with | some p => finishPurge p outcome y | none => y)
      split
      · exact finishPurge_tells _ outcome y h1 h2
      · exact tells_of_ports _ rfl
    refine (tells_of_ports (t := y) _ (by rw [← hy]; rfl)).trans ?_
    unfold holdOrFinish
    (repeat' split)
    · exact hend
    · exact tells_of_ports _ rfl
    · exact hend

/-! ## A draw stopped (R66) -/

/-- The state in which a draw's note is booked, or was found unbooked: what the booking changes of the position, the draw, the purge and the
timers. -/
def State.drawing (s : State) (p : Position) (x : Option Draw) (u : Option Purge) (l : List NoteTimer) (free : Nat) : State :=
  { s with position := p, path := { s.path with draw := x, purge := u, timers := l }, freeCount := free }

/-- A dispense whose draw a full bin stops ends JAMMED. -/
structure DrawJammed (w : Teller) (d : Draw) (p : Position) (s t : State) : Prop where
  dispense : DispenseJammed w p s t
  path : t.path = { s.path with state := .jammed, pick := none, draw := none, timers := [] }
  told : Told .s (.moduleFault (.retractBinFull (some w.port) d.source.sensor)) t

/-- A full bin stops the draw of a window's dispense (R62, R66). -/
theorem stopDraw_dispense (c : Instr) (w : Teller) (d : Draw) (s : State) (p : Position) (x : Option Draw) (l : List NoteTimer)
    (free : Nat) (he : exec c s = done (stopDraw d (s.drawing p x s.path.purge l free))) (hrun : s.running = true)
    (hw : d.cause.owner = .dispense w) (hrest : OtherAtRest w s) :
    Does c [.position, .path, .dispenses, .journal] s (DrawJammed w d p s) := by
  let fault : Notice := .moduleFault (.retractBinFull (some w.port) d.source.sensor)
  let z : State := { s with
    dispenses := s.dispenses.set w Dispense.idle
    path := { s.path with state := .jammed, pick := none, draw := none, timers := [] }
    position := { p with generation := if (s.dispense w).changed then p.generation + 1 else p.generation }
    journal := { s.journal with reservations := s.jamMarked w }
    ports := (raise .s fault s).ports
    freeCount := free }
  have hz : stopDraw d (s.drawing p x s.path.purge l free) = z := by
    unfold stopDraw jam
    simp only [hw, jamDispense_eq]
    rfl
  rw [hz] at he
  have hlines : z.ports.lines = s.ports.lines := raise_lines _ _ _
  refine does_done c _ s z _ he (quiet_of_ended w s z hrest rfl) (powered_of_running s hrun) ?_ fun t hk hn => ⟨⟨?_, ?_, ?_, ?_⟩, ?_, ?_⟩
  · intro x hx
    cases x
    case position | path | dispenses | journal => simp at hx
    case ports => exact kept_ports_of_lines _ _ hlines
    all_goals simp [Kept, z]
  · exact hk .dispenses (by simp)
  · exact hk .position (by simp)
  · rw [show t.journal = _ from hk .journal (by simp)]
  · intro before after r h1 h2 h3 h4 h5
    rw [show t.journal = _ from hk .journal (by simp)]
    exact jamMarked_first w s before after r h1 h2 h3 h4 h5
  · exact hk .path (by simp)
  · exact hn _ _ (told_of_ports _ _ (raise .s fault s) _ (raise_told _ _ _) rfl) (by simp [Notice.kind])

/-- A purge whose draw a full bin stops ends BIN_FULL. -/
structure PurgeBinFull (q : Purge) (d : Draw) (n : Nat) (p : Position) (s t : State) : Prop where
  ended : PurgeEnded q 4 .jammed n p { s with path := { s.path with pick := none, timers := [] } } t
  told : Told .s (.moduleFault (.retractBinFull (if q.startUp then none else some .s) d.source.sensor)) t

/-- A full bin stops a purge's draw (R65, R66). -/
theorem stopDraw_purge (c : Instr) (q : Purge) (n : Nat) (d : Draw) (s : State) (p : Position) (y : Option Draw)
    (l : List NoteTimer) (free : Nat) (he : exec c s = done (stopDraw d (s.drawing p y (some q) l free))) (hrun : s.running = true)
    (hc : d.cause = .purge) (hroom : PurgeRoom q n s) (ha : OtherAtRest .a s) (hb : OtherAtRest .b s) :
    Does c [.position, .path, .escrow, .journal] s (PurgeBinFull q d n p s) := by
  let fault : Notice := .moduleFault (.retractBinFull (if q.startUp then none else some .s) d.source.sensor)
  let x : State := { s with
    position := p, ports := (raise .s fault s).ports, freeCount := free
    path := { s.path with pick := none, draw := none, purge := some q, timers := [] } }
  have hx : stopDraw d (s.drawing p y (some q) l free) = endPurge .binFull x := by
    unfold stopDraw jam
    simp only [hc, DrawCause.owner]
    rfl
  have xlines : x.ports.lines = s.ports.lines := raise_lines _ _ _
  have hends := endPurge_ends q .binFull n x rfl (hroom.congr rfl rfl)
  have htells := endPurge_tells .binFull x (by decide) (by decide)
  have htold : Told .s fault x := told_of_ports _ _ (raise .s fault s) _ (raise_told _ _ _) rfl
  rw [hx] at he
  generalize endPurge .binFull x = z at he hends htells
  have hkept : KeptBut [.position, .path, .escrow, .journal] x z :=
    keptBut_without_ports hends.kept (kept_ports_of_lines _ _ hends.lines) (by simp)
  have hsx : KeptBut [.position, .path, .escrow, .journal] s x := by
    intro y hy
    cases y
    case position | path | escrow | journal => simp at hy
    case ports => exact kept_ports_of_lines _ _ xlines
    all_goals simp [Kept, x]
  have hsz := hsx.trans hkept
  have hdis : z.dispenses = s.dispenses := hsz .dispenses (by simp)
  have hquiet : Quiet z := by
    refine quiet_of_atRest z fun u => ?_
    rw [State.dispense, hdis]
    cases u with
    | a => exact hb
    | b => exact ha
  have hpowered : z.powered = true := by
    rw [State.powered, show z.startUp = s.startUp from hsz .startUp (by simp)]
    exact powered_of_running s hrun
  refine does_done c _ s z _ he hquiet hpowered hsz fun t hk hn => ⟨?_, ?_⟩
  · exact hends.ended.transfer rfl rfl rfl rfl rfl rfl rfl rfl (hk .path (by simp)) (hk .escrow (by simp)) (hk .position (by simp))
      (hk .journal (by simp)) fun p m hm hne => hn p m hm (by simpa using hne)
  · exact hn _ _ (htells _ _ htold (by simp [Notice.kind])) (by simp [Notice.kind])

end Sys2Proof.Machine
end

section
/-! A drawn note booked into the RETRACT BIN: its denomination, its booking, its timing, the bin it fills (R62, R64, R66). -/
namespace Sys2Proof.Machine

/-! ## The denomination a note is booked under (R64) -/

/-- The defined denomination of smallest value comes before every other defined one (R64). -/
theorem smallestDefined_eq_some_iff (values : Quad Nat) (d : Ix) :
    smallestDefined values = some d ↔
      values.get d ≠ 0 ∧ ∀ e : Ix, e ≠ d → values.get e ≠ 0 → DeliveredBefore values d e := by
  rw [smallestDefined, find?_eq_some_iff_of_pairwise _ DeliveredBefore.asymm _ _ (pairwise_byValue values)]
  simp [mem_byValue]

theorem attribution_held (s : State) (d : Draw) (x : Ix) (h : 0 < d.uncounted.get x)
    (hmin : ∀ y, 0 < d.uncounted.get y → y ≠ x → DeliveredBefore s.settings.denominations x y) : s.attribution d none = x := by
  unfold State.attribution
  simp only [(smallestHeld_eq_some_iff _ _ x).mpr ⟨h, fun y hne hy => hmin y hy hne⟩]

theorem attribution_defined (s : State) (d : Draw) (x : Ix) (h0 : ∀ y, d.uncounted.get y = 0)
    (h : s.settings.denominations.get x ≠ 0)
    (hmin : ∀ y, s.settings.denominations.get y ≠ 0 → y ≠ x → DeliveredBefore s.settings.denominations x y) :
    s.attribution d none = x := by
  have htotal : d.uncounted.total = 0 := by
    rw [Quad.ext_get (p := d.uncounted) (q := Quad.zero) fun y => by simp [h0 y]]
    rfl
  unfold State.attribution
  simp only [(smallestHeld_eq_none_iff _ _).mpr htotal,
    (smallestDefined_eq_some_iff _ x).mpr ⟨h, fun y hne hy => hmin y hy hne⟩]

/-! ## The timers (R62) -/

theorem stopTimer_none (test : NoteTimer → Bool) (l : List NoteTimer) (h : ∀ n ∈ l, test n = false) : stopTimer test l = l := by
  induction l with
  | nil => rfl
  | cons n l ih =>
    obtain ⟨hn, hl⟩ := List.forall_mem_cons.mp h
    simp [stopTimer, hn, ih hl]

theorem onWay_iff (d : Draw) (n : NoteTimer) :
    d.onWay n = true ↔ n.owner = d.cause.owner ∧ n.checked = false ∧ ∃ i, n.lastSeen = .way i := by
  unfold Draw.onWay
  cases n.lastSeen <;> simp

/-- The timers once a drawn note has reached the validator (R62). -/
theorem nextTimers_timed (d : Draw) (before : List NoteTimer) : DrawTimed d before (d.nextTimers before) := by
  unfold DrawTimed Draw.nextTimers
  simp only [← onWay_iff, Bool.not_eq_true]
  refine ⟨fun l r n hs hn hl => ?_, fun hnone => ?_⟩
  · rw [if_pos (List.any_eq_true.mpr ⟨n, by simp [hs], hn⟩), hs]
    exact stopTimer_first d.onWay l r n hl hn
  · rw [if_neg (by simpa using hnone)]
    refine ⟨fun l r hs hl => ?_, fun hfresh => ?_⟩
    · rw [hs]
      refine congrArg (· ++ [d.timer]) (stopTimer_first _ l r _ (fun n hn => ?_) (beq_self_eq_true _))
      exact beq_false_of_ne fun e => hl (by rwa [show n = d.timer from e] at hn)
    · refine congrArg (· ++ [d.timer]) (stopTimer_none _ before fun n hn => ?_)
      exact beq_false_of_ne fun e => hfresh (by rwa [show n = d.timer from e] at hn)

/-! ## The booking (R64) -/

/-- A position once a drawn note has been booked: from its source, or as a surplus (R64). -/
def Position.drawn (p : Position) (d : Draw) (x : Ix) : Position :=
  match d.source.place with
  | some place => if 0 < d.uncounted.get x then p.move place .retract x 1 else p.surplus .retract x 1
  | none => p.surplus .retract x 1

/-- A draw once a note has been booked (R64). -/
def Draw.booked (d : Draw) (x : Ix) : Draw :=
  if 0 < d.uncounted.get x then
    { d with uncounted := Quad.minus d.uncounted x 1, retracted := Quad.plus d.retracted x 1 }
  else d

/-- A purge once a note of a draw has been booked: the purge's own draw counts it (R65). -/
def Draw.purgeBooked (d : Draw) (x : Ix) (u : Option Purge) : Option Purge :=
  match d.cause, u with
  | .purge, some q => some { q with booked := Quad.plus q.booked x 1 }
  | _, other => other

theorem bookDrawn_eq (d : Draw) (x : Ix) (s : State) :
    bookDrawn d x s.takeFree.2 =
      s.drawing (s.position.drawn d x) (some (d.booked x)) (d.purgeBooked x s.path.purge) (d.nextTimers s.path.timers)
        (s.freeCount + 1) := by
  unfold bookDrawn Position.drawn Draw.booked
  by_cases h : 0 < d.uncounted.get x
  · simp only [h, decide_true, if_true]
    rfl
  · simp only [h, decide_false, Bool.false_eq_true, if_false]
    rfl

/-- A note that a source holds comes from it. -/
theorem drawn_counted (p : Position) (d : Draw) (x : Ix) (place : Store) (hp : d.source.place = some place)
    (hx : 0 < d.uncounted.get x) (hs : 0 < (p.stored place).get x) :
    p.drawn d x =
      (p.setStored place (Quad.minus (p.stored place) x 1)).setStored .retract
        (Quad.plus ((p.setStored place (Quad.minus (p.stored place) x 1)).stored .retract) x 1) := by
  unfold Position.drawn
  rw [hp]
  simp only [if_pos hx]
  exact move_one p place .retract x hs

/-- Any other note is a surplus. -/
theorem drawn_surplus (p : Position) (d : Draw) (x : Ix) (h : d.source = .drum ∨ ¬0 < d.uncounted.get x) :
    p.drawn d x = p.surplus .retract x 1 := by
  unfold Position.drawn
  split
  · next place hp =>
    rcases h with h | h
    · rw [h] at hp; cases hp
    · rw [if_neg h]
  · rfl

theorem Quad.total_plus (q : Quad Nat) (x : Ix) : (Quad.plus q x 1).total = q.total + 1 := by
  cases x <;> simp only [Quad.plus, Quad.set, Quad.get, Quad.total] <;> omega

/-! ## A drawn note (R64, R66) -/

theorem retractFull_iff (p : Position) : p.retractFull = true ↔ 200 ≤ p.retract.total := by
  unfold Position.retractFull
  exact decide_eq_true_iff

/-- A note drawn while the bin has room: it is booked, and where it fills the bin the draw stops. -/
theorem noteDrawn_exec (report : Option Ix) (d : Draw) (s : State) (hrun : s.running = true) (hdraw : s.path.draw = some d)
    (hroom : s.position.retract.total < 200) :
    let b := bookDrawn d (s.attribution d report) s.takeFree.2
    exec (.retractNoteCounted report) s = done (if b.position.retractFull then stopDraw d b else b) := by
  show done (event (noteDrawn report) s) = _
  rw [event_running _ _ hrun]
  unfold noteDrawn
  rw [hdraw]
  simp only []
  rw [if_neg (by rw [retractFull_iff]; omega)]

/-- A note drawn while the bin is full: it stops the draw unbooked (R66). -/
theorem noteDrawn_full (report : Option Ix) (d : Draw) (s : State) (hrun : s.running = true) (hdraw : s.path.draw = some d)
    (hfull : 200 ≤ s.position.retract.total) :
    exec (.retractNoteCounted report) s =
      done (stopDraw d (s.drawing s.position (some d) s.path.purge s.path.timers s.freeCount)) := by
  show done (event (noteDrawn report) s) = _
  rw [event_running _ _ hrun]
  unfold noteDrawn
  rw [hdraw]
  simp only []
  rw [if_pos ((retractFull_iff s.position).mpr hfull), State.drawing, ← hdraw]

section
variable {report : Option Ix} {d : Draw} {x : Ix} {s : State}

/-- The bin still has room: the draw goes on. -/
theorem drawn_goesOn (hrun : s.running = true) (hq : Quiet s) (hdraw : s.path.draw = some d) (hx : s.attribution d report = x)
    (htotal : (s.position.drawn d x).retract.total = s.position.retract.total + 1) (hroom : s.position.retract.total + 1 < 200) :
    Does (.retractNoteCounted report) [.position, .path] s (fun t =>
      t.position = s.position.drawn d x ∧
        t.path =
          { s.path with
            draw := some (d.booked x), purge := d.purgeBooked x s.path.purge, timers := d.nextTimers s.path.timers }) := by
  have he := noteDrawn_exec report d s hrun hdraw (by omega)
  rw [hx, bookDrawn_eq] at he
  simp only [] at he
  rw [if_neg (by simp only [State.drawing, retractFull_iff]; omega)] at he
  have hquiet : Quiet (s.drawing (s.position.drawn d x) (some (d.booked x)) (d.purgeBooked x s.path.purge)
      (d.nextTimers s.path.timers) (s.freeCount + 1)) := fun u =>
    ⟨(hq u).1, fun hr => by simp [State.retractWaits, State.drawing] at hr⟩
  refine does_done _ _ s _ _ he hquiet (powered_of_running s hrun) ?_ fun t hk _ => ⟨hk .position (by simp), hk .path (by simp)⟩
  intro b hb
  cases b
  case position | path => simp at hb
  all_goals simp [Kept, State.drawing]

/-- The note fills the bin: the draw stops. -/
theorem drawn_fills (hrun : s.running = true) (hdraw : s.path.draw = some d) (hx : s.attribution d report = x)
    (htotal : (s.position.drawn d x).retract.total = s.position.retract.total + 1) (hfull : s.position.retract.total + 1 = 200) :
    exec (.retractNoteCounted report) s =
      done (stopDraw d (s.drawing (s.position.drawn d x) (some (d.booked x)) (d.purgeBooked x s.path.purge)
        (d.nextTimers s.path.timers) (s.freeCount + 1))) := by
  have he := noteDrawn_exec report d s hrun hdraw (by omega)
  rw [hx, bookDrawn_eq] at he
  simp only [] at he
  rwa [if_pos (by simp only [State.drawing, retractFull_iff]; omega)] at he

end

/-- A draw of a window's dispense books nothing for a purge. -/
theorem purgeBooked_dispense (d : Draw) (x : Ix) (u : Option Purge) (w : Teller) (h : d.cause.owner = .dispense w) :
    d.purgeBooked x u = u := by
  unfold Draw.purgeBooked
  cases hc : d.cause with
  | purge => rw [hc] at h; cases h
  | retract v => rfl
  | stop v why => rfl

theorem purgeBooked_purge (d : Draw) (x : Ix) (q : Purge) (h : d.cause = .purge) :
    d.purgeBooked x (some q) = some { q with booked := Quad.plus q.booked x 1 } := by
  unfold Draw.purgeBooked
  rw [h]

/-- Settles O25: the note's denomination, its booking with its timing, and the full bin before and after it. -/
theorem drawnNoteIsBooked : Obligations.DrawnNoteIsBooked := by
  unfold Obligations.DrawnNoteIsBooked
  intro report d s hrun hq hdraw stopped purged
  have hstopped (bs : List Block) (w : Teller) (p : Position)
      (h : Does (.retractNoteCounted report) [.position, .path, .dispenses, .journal] s (DrawJammed w d p s))
      (hbs : ∀ b, b ∈ [Block.position, .path, .dispenses, .journal] → b ∈ bs) :
      Does (.retractNoteCounted report) bs s (stopped w p) :=
    (h.blocks hbs).mono fun _ h => ⟨h.dispense, h.path, h.told⟩
  have hpurged (q : Purge) (n : Nat) (p : Position)
      (h : Does (.retractNoteCounted report) [.position, .path, .escrow, .journal] s (PurgeBinFull q d n p s)) :
      Does (.retractNoteCounted report) [.position, .path, .escrow, .journal] s (purged q n p) :=
    h.mono fun _ h => ⟨h.ended, h.told⟩
  refine ⟨?_, fun w hfull hw hrest => ?_, fun q n hfull hc hp hn ha hb => ?_⟩
  · intro x hroom hwhich surplus booked
    have hx : s.attribution d report = x := by
      rcases hwhich with rfl | ⟨rfl, h, hmin⟩ | ⟨rfl, h0, h, hmin⟩
      · rfl
      · exact attribution_held s d x h hmin
      · exact attribution_defined s d x h0 h hmin
    have hbooked (p : Position) (after : Draw) (hp : s.position.drawn d x = p) (hafter : d.booked x = after)
        (hr : p.retract = Quad.plus s.position.retract x 1) : booked p after := by
      have htotal : (s.position.drawn d x).retract.total = s.position.retract.total + 1 := by rw [hp, hr, Quad.total_plus]
      refine ⟨fun hmore => ?_, fun w hfull hw hrest => ?_, fun q n hfull hc hpurge hn ha hb => ?_⟩
      · refine (drawn_goesOn hrun hq hdraw hx htotal hmore).mono fun t ⟨hpos, hpath⟩ => ⟨hpos.trans hp, ?_, ?_⟩
        · rw [hpath]; exact nextTimers_timed d _
        · rw [hpath, hafter]; rfl
      · have he := drawn_fills hrun hdraw hx htotal hfull
        rw [purgeBooked_dispense d x _ w hw, hp] at he
        exact hstopped _ w p (stopDraw_dispense _ w d s p _ _ _ he hrun hw hrest) (by simp)
      · have he := drawn_fills hrun hdraw hx htotal hfull
        rw [hpurge, purgeBooked_purge d x q hc, hp] at he
        exact hpurged _ n p (stopDraw_purge _ { q with booked := Quad.plus q.booked x 1 } n d s p _ _ _ he hrun hc
          (hn.congr rfl rfl) ha hb)
    split
    · next hpos =>
      simp only []
      split
      · next hsrc =>
        exact fun hs => hbooked _ _ (drawn_counted s.position d x .transit (by rw [hsrc]; rfl) hpos hs) (if_pos hpos) rfl
      · next v hsrc =>
        exact fun hs => hbooked _ _ (drawn_counted s.position d x (.pocket v) (by rw [hsrc]; rfl) hpos hs) (if_pos hpos) rfl
      · next hsrc => exact hbooked _ _ (drawn_surplus _ d x (.inl hsrc)) (if_pos hpos) rfl
    · next hneg => exact hbooked _ _ (drawn_surplus _ d x (.inr hneg)) (if_neg hneg) rfl
  · exact hstopped _ w _ (stopDraw_dispense _ w d s _ _ _ _ (noteDrawn_full report d s hrun hdraw hfull) hrun hw hrest) (by simp)
  · have he := noteDrawn_full report d s hrun hdraw hfull
    rw [hp] at he
    exact hpurged q n _ (stopDraw_purge _ q n d s _ _ _ _ he hrun hc hn ha hb)

end Sys2Proof.Machine
end

section
/-!
PROVED. What every step leaves: display, idle timer, alarm reports and transmitters in order (O60).
-/
namespace Sys2Proof.Machine

/-! ## The transmitters -/

/-- A set whose send order finds nothing holds no notice (R186). -/
theorem NoticeSet.empty_of_first (n : NoticeSet) (h : n.first = none) (k : NoticeKind) : n.get k = none := by
  have hk := List.findSome?_eq_none_iff.mp h k (by cases k <;> decide)
  simpa using hk

/-- A port's transmitter has nothing to send, or is sending (R186). -/
def PortRests (p : Port) (s : State) : Prop :=
  (s.ports.get p).transmitter = .idle →
    (∀ r : Reply, s.answered p ≠ some r) ∧ (s.noticesFlow p = true → ∀ k : NoticeKind, (s.ports.get p).notices.get k = none)

/-- A port's rest is a matter of its own interface, of the phase and of zone 14. -/
theorem PortRests.congr {p : Port} {s t : State} (h : PortRests p s) (hp : t.ports.get p = s.ports.get p)
    (hs : t.startUp = s.startUp) (ha : t.alarm = s.alarm) : PortRests p t := by
  unfold PortRests State.answered State.noticesFlow at *
  rw [hp, hs, ha]
  exact h

/-- A transmitter that has looked for something to send rests. -/
theorem pump_rests (p : Port) (s : State) : PortRests p (pump p s) := by
  intro hi
  have hflow : (pump p s).noticesFlow p = s.noticesFlow p := by simp [State.noticesFlow]
  rw [hflow]
  unfold pump at hi ⊢
  simp only [] at hi ⊢
  split at hi
  next ht => rw [ht] at hi; cases hi
  next ht => rw [ht] at hi; cases hi
  next ht =>
    split at hi
    next => simp at hi
    next hw =>
      have hnone : ∀ r : Reply, s.answered p ≠ some r := by
        intro r
        unfold State.answered
        split
        next code tag duress x hx => exact absurd hx (hw _ _ _ _)
        all_goals simp [ht]
      split at hi
      next hf =>
        split at hi
        next hfirst => exact ⟨by simpa [ht, hw, hf, hfirst] using hnone, fun _ k => by
          simpa [ht, hw, hf, hfirst] using NoticeSet.empty_of_first _ hfirst k⟩
        next => simp at hi
      next hf => exact ⟨by simpa [ht, hw, hf] using hnone, fun h => absurd h hf⟩

/-- Another port's transmitter leaves it at rest. -/
theorem pump_rests_other (p q : Port) (s : State) (hq : q ≠ p) (h : PortRests q s) : PortRests q (pump p s) :=
  h.congr ((pump_cases p s).1 q hq) (by simp) (by simp)

theorem pumpAll_rests (s : State) (p : Port) : PortRests p (pumpAll s) := by
  unfold pumpAll
  cases p
  case m => exact pump_rests .m _
  case s => exact pump_rests_other _ _ _ (by decide) (pump_rests .s _)
  case b => exact pump_rests_other _ _ _ (by decide) (pump_rests_other _ _ _ (by decide) (pump_rests .b _))
  case a =>
    exact pump_rests_other _ _ _ (by decide)
      (pump_rests_other _ _ _ (by decide) (pump_rests_other _ _ _ (by decide) (pump_rests .a _)))

/-! ## The other blocks -/

/-- The claim idle timer runs exactly where its condition holds (R53). -/
theorem watchIdle_follows (s : State) : (watchIdle s).claim.idle.isSome = (watchIdle s).idleRuns := by
  have hruns : (watchIdle s).idleRuns = s.idleRuns := by
    simp [State.idleRuns, State.opInFlight, State.dispenseInFlight, (watchIdle_claim s).1]
  rw [hruns]
  unfold watchIdle
  split
  next h =>
    split
    next hx => simp [h, hx]
    next => simp [h]
  next h => simp [h]

/-- No change of the alarm unit is left unreported (R154). -/
theorem flushAlarm_reports (s : State) : (flushAlarm s).alarm.changed = false := by
  unfold flushAlarm
  split
  next => simp [raiseAlarmChange]
  next h => simpa using h

/-- The end of a step with the supply, after the waiting retracts and grants. -/
theorem settle_takenUp_eq (s : State) (hp : s.powered = true) :
    settle s = pumpAll (flushAlarm (rewriteDisplay (watchIdle (takenUp s)))) := by
  unfold settle takenUp
  rw [if_pos hp]

theorem settle_atRest (s : State) : AtRest (settle s) := by
  intro hp
  by_cases hs : s.powered = true
  · rw [settle_takenUp_eq s hs]
    generalize takenUp s = x
    have hidle := watchIdle_follows x
    refine ⟨?_, ?_, ?_, pumpAll_rests _⟩
    · simp [rewriteDisplay, Depository.line]; rfl
    · simpa [State.idleRuns, State.opInFlight, State.dispenseInFlight] using hidle
    · simpa using flushAlarm_reports (rewriteDisplay (watchIdle x))
  · rw [settle_unpowered s (by simpa using hs)] at hp
    exact absurd hp hs

/-- Every command's outcome is the end of its step. -/
theorem exec_done (c : Instr) (s : State) : ∃ y, exec c s = done y := by
  cases c <;> exact ⟨_, rfl⟩

/-- Settles O60. -/
theorem everyStepEndsAtRest : Obligations.EveryStepEndsAtRest := by
  unfold Obligations.EveryStepEndsAtRest
  intro c s t he
  obtain ⟨y, hy⟩ := exec_done c s
  rw [hy] at he
  cases he
  exact settle_atRest y

end Sys2Proof.Machine
end

section
/-! The requests of the claim, CANCEL and JAM_CLEAR: what they share, and JAM_CLEAR (O27). -/
namespace Sys2Proof.Machine

/-- A request that consumes no approval leaves its block's work as the only change. -/
theorem replies_plain (c : Instr) (r : Request) (f : Frame) (owner : State → Answer × State) (st : Status) (res : Results)
    (changed : List Block) (s s' : State) (effect : State → Prop) (he : exec c s = done (takeRequest r f owner s))
    (h : Taken r f s) (hc : Request.consumes r = none) (ho : owner (reached r f s) = (.reply st none res, s')) (hq : Quiet s')
    (hl : s'.ports.lines = (reached r f s).ports.lines) (hk : KeptBut changed (reached r f s) s')
    (hr : s'.startUp = s.startUp)
    (hx : ∀ t, KeptBut [] s' t → (∀ p n, Told p n s' → n.kind ≠ .alarmChange → Told p n t) → effect t) :
    Replies c r f st res changed s effect :=
  replies_with c r f (fun _ => owner) st res changed s s' effect he h ho hq (by rw [hr]; exact h.1) hl
    (((reached_kept r f s h hc).mono (by simp)).trans hk) hx

/-- A request that its block answers as it finds it, without an error. -/
theorem replies_unchanged (c : Instr) (r : Request) (f : Frame) (owner : State → Answer × State) (st : Status) (res : Results)
    (changed : List Block) (s : State) (he : exec c s = done (takeRequest r f owner s)) (h : Taken r f s)
    (hc : Request.consumes r = none) (ho : owner (reached r f s) = (.reply st none res, reached r f s)) :
    Replies c r f st res changed s (fun _ => True) :=
  replies_plain c r f owner st res changed s _ _ he h hc ho (reached_quiet r f s h) rfl (fun _ _ => by
    rename_i b _; cases b <;> simp [Kept]) (reached_keeps r f s h).1 fun _ _ _ => trivial

/-! ## JAM_CLEAR (R63, R65, R131) -/

/-- The note path as JAM_CLEAR's purge begins (R65). -/
def NotePath.clearing (q : NotePath) (transit : Quad Nat) : NotePath :=
  { q with
    state := .purging, pick := none
    draw := some ⟨.transit, .purge, transit, Quad.zero⟩
    purge := some ⟨false, [.pocket .a, .pocket .b], Quad.zero, false, none⟩
    timers := q.timers ++ [⟨.purge, .transit, false⟩] }

theorem startPurge_clears (s : State) (hroom : s.position.retractFull = false ∨ s.position.transit.total = 0) :
    startPurge false purgeSources s = { s with path := s.path.clearing s.position.transit } := by
  let p : Purge := ⟨false, purgeSources, Quad.zero, false, none⟩
  let x : State := { s with path := { s.path with state := .purging, pick := none, draw := none, purge := some p } }
  refine purgeNext_draws x p [] [.pocket .a, .pocket .b] .transit rfl rfl (by simp) (by simp [PassedOver]) ?_
  simpa [Position.retractFull, DrawSource.place, Position.sourceCounts, Position.stored, x] using hroom

/-- JAM_CLEAR's owning block, by its target. -/
theorem jamClearOwner_target (f : Frame) (s : State) :
    (byteField f.operands 0 = 1 → jamClearOwner f s = clearModule s) ∧
      (byteField f.operands 0 = 2 → jamClearOwner f s = clearSlot s) ∧
      (byteField f.operands 0 ≠ 1 → byteField f.operands 0 ≠ 2 → jamClearOwner f s = refuse .range s) := by
  refine ⟨fun h => by simp [jamClearOwner, h], fun h => by simp [jamClearOwner, h], fun h1 h2 => ?_⟩
  unfold jamClearOwner
  split
  · exact absurd ‹_› h1
  · exact absurd ‹_› h2
  · rfl

theorem clearModule_jammed (f : Frame) (s : State) (h : Taken .jamClear f s) (ht : byteField f.operands 0 = 1)
    (hj : s.path.state = .jammed) (hroom : s.position.retractFull = false ∨ s.position.transit.total = 0) :
    Replies (.jamClearModule f) .jamClear f .accepted .none [.path] s (fun t =>
      t.path = s.path.clearing s.position.transit) := by
  have kept := reached_keeps .jamClear f s h
  have hstart := startPurge_clears (reached .jamClear f s) (by simpa only [kept] using hroom)
  refine replies_plain _ _ f (jamClearOwner f) _ _ _ s (startPurge false purgeSources (reached .jamClear f s)) _ rfl h rfl
    ?_ ?_ ?_ ?_ ?_ fun t ht _ => ?_
  · rw [(jamClearOwner_target f _).1 ht, clearModule, kept.2.2.2.2.2.2.2.1, hj]
    rfl
  · rw [hstart]
    exact quiet_drawing _ _ (reached_quiet _ f s h) rfl
  · rw [hstart]
  · rw [hstart]
    intro b hb
    cases b <;> simp_all [Kept]
  · rw [hstart]
    exact kept.1
  · rw [ht .path (by simp), hstart]
    simp only [kept]

theorem clearSlot_jammed (f : Frame) (s : State) (h : Taken .jamClear f s) (ht : byteField f.operands 0 = 2)
    (hc : s.depository.clearing = none) (hj : s.depository.slot = .jammed) :
    Replies (.jamClearSlot f) .jamClear f .accepted .none [.depository] s
      (DepositoryIs
        { s.depository with slot := .drop, clearing := some .byRequest, clearTimer := true, dropTimer := false }) := by
  have kept := reached_keeps .jamClear f s h
  refine replies_plain _ _ f (jamClearOwner f) _ _ _ s (startClearRun .byRequest (reached .jamClear f s)) _ rfl h rfl
    ?_ ?_ ?_ ?_ ?_ fun t ht _ => ?_
  · rw [(jamClearOwner_target f _).2.1 ht, clearSlot]
    simp only [kept, hc, hj]
    rfl
  · exact quiet_of_eq _ _ (reached_quiet _ f s h) (by simp) (by simp) (by simp)
  · simp
  · intro b hb
    cases b <;> simp_all [Kept]
  · simpa using kept.1
  · have hd := ht .depository (by simp)
    simp only [Kept, startClearRun, State.onDepository, kept] at hd
    simp only [DepositoryIs, hd]

/-- Settles O27. -/
theorem jamClearStartsClearing : Obligations.JamClearStartsClearing := by
  unfold Obligations.JamClearStartsClearing
  intro f s h
  have kept := reached_keeps .jamClear f s h
  have target := jamClearOwner_target f (reached .jamClear f s)
  have refused (c : Instr) (why : Reason) (he : exec c s = done (takeRequest .jamClear f (jamClearOwner f) s))
      (ho : jamClearOwner f (reached .jamClear f s) = refuse why (reached .jamClear f s)) :
      Refuses c .jamClear f why .none s :=
    refuses_of c .jamClear f (fun _ => jamClearOwner f) why .none s he h rfl ho
  refine ⟨fun ht => ?_, fun ht => ?_, fun h1 h2 => refused _ _ rfl (target.2.2 h1 h2)⟩
  · split
    next hj => exact clearModule_jammed f s h ht hj
    next hj => exact refused _ _ rfl (by rw [target.1 ht, clearModule]; simp only [kept, hj])
    next hj => exact refused _ _ rfl (by rw [target.1 ht, clearModule]; simp only [kept, hj])
  · split
    next hc => exact refused _ _ rfl (by rw [target.2.1 ht, clearSlot]; simp only [kept, hc]; rfl)
    next hc =>
      rw [Bool.not_eq_true, Option.isSome_eq_false_iff, Option.isNone_iff_eq_none] at hc
      split
      next hj => exact clearSlot_jammed f s h ht hc hj
      next hj => exact refused _ _ rfl (by rw [target.2.1 ht, clearSlot]; simp [kept, hc, hj])

end Sys2Proof.Machine
end

section
/-! CLAIM by the table of R49 (O14). -/
namespace Sys2Proof.Machine

/-! ## The wait list (R50) -/

/-- An entry joins ahead of the first entry of a later group. -/
theorem joinList_place (e : WaitEntry) (ws : List WaitEntry) :
    ∃ before after : List WaitEntry, ws = before ++ after ∧ joinList e ws = before ++ e :: after ∧
      (∀ x ∈ after.head?, e.rank < x.rank) ∧ ∀ x ∈ before, x.rank ≤ e.rank := by
  induction ws with
  | nil => exact ⟨[], [], by simp [joinList]⟩
  | cons x xs ih =>
    by_cases hx : e.rank < x.rank
    · exact ⟨[], x :: xs, by simp [joinList, hx]⟩
    · obtain ⟨before, after, hws, hjoin, hafter, hbefore⟩ := ih
      refine ⟨x :: before, after, by rw [hws]; rfl, ?_, hafter, ?_⟩
      · rw [joinList, if_neg hx, hjoin]
        rfl
      · intro y hy
        rcases List.mem_cons.mp hy with rfl | hy
        · exact Nat.not_lt.mp hx
        · exact hbefore y hy

/-- A port's name as owner tells it from a window's. -/
theorem ownerOf_eq_iff (p : Port) (w : Teller) : ownerOf p = ownerOf w.port ↔ p = w.port := by
  cases p <;> cases w <;> decide

/-- A port that takes the claim closes the record of another window's empty escrow (R97). -/
theorem setOwner_escrow (p : Port) (s : State) :
    (setOwner (ownerOf p) s).escrow =
      { s.escrow with
        isOpen := if s.escrow.stack = [] ∧ p ≠ s.escrow.owner.port then false else s.escrow.isOpen } := by
  rw [(setOwner_spec (ownerOf p) s).2]
  simp only [ne_eq, ownerOf_eq_iff]
  cases s.escrow.isOpen <;> simp

/-- A new owner leaves nothing waiting that did not wait. -/
theorem quiet_setOwner (o : Owner) (s : State) (h : Quiet s) : Quiet (setOwner o s) :=
  quiet_of_eq s _ h (by simp) (by simp) (by rw [(setOwner_spec o s).2])

/-! ## The lines of the table (R49) -/

theorem claim_takes_free (f : Frame) (s : State) (h : Taken .claim f s) (hlock : s.restricted .moduleLock = false)
    (hwait : s.waitsForModule f.port = false) (hfree : s.claim.owner = .none) :
    Replies (.claim f) .claim f .granted (.owner .none) [.claim, .escrow] s (fun t =>
      ClaimIs (ownerOf f.port) s.claim.waiting t ∧
        t.escrow =
          { s.escrow with
            isOpen := if s.escrow.stack = [] ∧ f.port ≠ s.escrow.owner.port then false else s.escrow.isOpen }) := by
  have kept := reached_keeps .claim f s h
  have hclaim := (setOwner_spec (ownerOf f.port) (reached .claim f s)).1
  refine replies_plain _ _ f (claimOwner f) _ _ _ s (setOwner (ownerOf f.port) (reached .claim f s)) _ rfl h rfl
    ?_ ?_ ?_ ?_ ?_ fun t ht _ => ⟨?_, ?_⟩
  · have hnone : Owner.ownedBy .none f.port = false := by cases f.port <;> rfl
    simp only [claimOwner, State.restricted, State.waitsForModule, State.dispense, kept, hfree, hnone] at hlock hwait ⊢
    simp only [hlock, hwait]
    rfl
  · exact quiet_setOwner _ _ (reached_quiet _ f s h)
  · simp
  · intro b hb
    cases b <;> simp_all [Kept]
  · simpa using kept.1
  · obtain ⟨howner, hwaiting⟩ := ht .claim (by simp)
    exact ⟨by rw [howner, hclaim], by rw [hwaiting, hclaim]; exact kept.2.2.2.2.2.2.1⟩
  · rw [ht .escrow (by simp), setOwner_escrow]
    simp only [kept]

theorem claim_joins (f : Frame) (s : State) (h : Taken .claim f s) (hlock : s.restricted .moduleLock = false)
    (hwait : s.waitsForModule f.port = false) (hown : s.claim.owner.ownedBy f.port = false) (hfree : s.claim.owner ≠ .none)
    (hlist : s.isWaiting f.port = false) :
    Replies (.claim f) .claim f .waiting (.owner s.claim.owner) [.claim] s
      (ClaimIs s.claim.owner (joinList (.claim f.port) s.claim.waiting)) := by
  have kept := reached_keeps .claim f s h
  refine replies_plain _ _ f (claimOwner f) _ _ _ s (joinWaiting (.claim f.port) (reached .claim f s)) _ rfl h rfl
    ?_ ?_ ?_ ?_ ?_ fun t ht _ => ?_
  · simp only [claimOwner, State.restricted, State.waitsForModule, State.isWaiting, State.dispense, kept, hown] at hlock hwait hlist ⊢
    simp only [hlock, hwait, hlist, hfree]
    rfl
  · exact quiet_of_eq _ _ (reached_quiet _ f s h) (by simp) (by simp) (by simp)
  · simp
  · intro b hb
    cases b <;> simp_all [Kept]
  · simpa using kept.1
  · obtain ⟨howner, hwaiting⟩ := ht .claim (by simp)
    exact ⟨by rw [howner]; exact kept.2.2.2.2.2.1, by rw [hwaiting, joinWaiting]; simp only [kept]⟩

/-- Settles O14. -/
theorem claimFollowsItsTable : Obligations.ClaimFollowsItsTable := by
  unfold Obligations.ClaimFollowsItsTable
  intro f s h
  have kept := reached_keeps .claim f s h
  have hlock : (reached .claim f s).restricted .moduleLock = s.restricted .moduleLock := by simp only [State.restricted, kept]
  have hwait : (reached .claim f s).waitsForModule f.port = s.waitsForModule f.port := by
    simp only [State.waitsForModule, State.dispense, kept]
  have hlist : (reached .claim f s).isWaiting f.port = s.isWaiting f.port := by simp only [State.isWaiting, kept]
  have howner : (reached .claim f s).claim.owner = s.claim.owner := kept.2.2.2.2.2.1
  have refused (why : Reason)
      (ho : claimOwner f (reached .claim f s) = refuseWith why (.owner s.claim.owner) (reached .claim f s)) :
      Refuses (.claim f) .claim f why (.owner s.claim.owner) s :=
    refuses_of _ .claim f (fun _ => claimOwner f) why _ s rfl h rfl ho
  dsimp only
  split
  next h1 => exact refused _ (by simp only [claimOwner, hlock, h1, howner, if_true])
  next h1 =>
  split
  next h2 => exact refused _ (by simp [claimOwner, hlock, hwait, h1, h2, howner])
  next h2 =>
  split
  next h3 =>
    exact replies_unchanged _ .claim f (claimOwner f) _ _ _ s rfl h rfl
      (by simp [claimOwner, hlock, hwait, h1, h2, howner, h3])
  next h3 =>
  rw [Bool.not_eq_true] at h1 h2 h3
  split
  next h4 => rw [h4]; exact claim_takes_free f s h h1 h2 h4
  next h4 =>
  split
  next h5 => exact refused _ (by simp [claimOwner, hlock, hwait, hlist, h1, h2, howner, h3, h4, h5])
  next h5 =>
    obtain ⟨t, he, ha, hk, hclaim⟩ := claim_joins f s h h1 h2 h3 h4 (by simpa using h5)
    obtain ⟨before, after, hws, hjoin, hafter, hbefore⟩ := joinList_place (.claim f.port) s.claim.waiting
    exact ⟨t, he, ha, hk, before, after, hws, hjoin ▸ hclaim, hafter, hbefore⟩

end Sys2Proof.Machine
end

section
/-! CANCEL by the state of the dispense (O18). -/
namespace Sys2Proof.Machine

/-! ## Requests that restart no idle timer -/

/-- Where such a request is asked, the ports alone differ. -/
theorem reached_ports (r : Request) (f : Frame) (s : State) (h : Taken r f s) (ht : Request.touchesIdle r = false) :
    reached r f s = { s with ports := (reached r f s).ports } := by
  have hr := reached_rest r f s h
  rw [reached_claim r f s h ht] at hr
  exact hr

/-- A request that leaves a retract to be taken up at the end of the step, which x has taken up (R86). -/
theorem replies_retract (c : Instr) (r : Request) (f : Frame) (owner : State → Answer × State) (st : Status) (res : Results)
    (changed : List Block) (w : Teller) (s y x : State) (effect : State → Prop)
    (he : exec c s = done (takeRequest r f owner s)) (h : Taken r f s) (hc : Request.consumes r = none)
    (ho : owner (reached r f s) = (.reply st none res, y))
    (hw : proceedRetract w (formReply f.port st none res y) = formReply f.port st none res x)
    (hy : y.retractWaits w.other = false) (hx : x.retractWaits w.other = false) (hq : Quiet x)
    (hys : y.startUp = s.startUp) (hxs : x.startUp = s.startUp) (hp : x.ports = (reached r f s).ports)
    (hk : KeptBut changed (reached r f s) x) (heff : ∀ t, KeptBut [] x t → effect t) :
    Replies c r f st res changed s effect := by
  obtain ⟨hready, -⟩ := id h
  obtain ⟨-, h2⟩ := reached_port r f s h
  have hwaits (z : State) : (formReply f.port st none res z).retractWaits w.other = z.retractWaits w.other := by
    simp [State.retractWaits, State.dispense]
  have hpw {z : State} (hz : z.startUp = s.startUp) : (formReply f.port st none res z).powered = true := by
    simp [State.powered, hz, hready]
  have hset := settle_of_proceed _ _ (proceedRetract_one w _ _ hw ((hwaits y).trans hy) ((hwaits x).trans hx))
    (quiet_of_eq x _ hq (by simp) (by simp) (by simp)) (hpw hys) (hpw hxs)
  obtain ⟨ha, hkept⟩ := taken_answers r f s x st none res h hq (by rw [hxs]; exact hready) (by rw [hp])
    (by simp [PortState.faultsPending, hp, h2])
  refine ⟨settle (formReply f.port st none res x), ?_, ha, ?_, heff _ hkept⟩
  · rw [he, takeRequest, taken_forms r f _ s h, ho, ← hset]
    rfl
  · exact (((reached_kept r f s h hc).mono (by simp)).trans hk).trans (hkept.mono (by simp))

/-! ## What waits after a dispense has ended -/

/-- The end of a dispense that had no operation in flight leaves what else waits as it was. -/
theorem quiet_idles (w : Teller) (s x : State) (h : Quiet s) (hw : (s.dispense w).state.inFlight = false)
    (hd : x.dispenses = s.dispenses.set w Dispense.idle) (hs : x.path.state = s.path.state) (hdraw : x.path.draw = s.path.draw)
    (he : x.escrow = s.escrow) : Quiet x := by
  have hidle : x.dispense w = Dispense.idle := by rw [State.dispense, hd]; exact Pair.get_set_self _ _ _
  intro u
  rcases eq_or_ne u w with rfl | hne
  · exact ⟨by rw [hidle]; simp [Dispense.idle], retractSettled_of_state (by rw [hidle]; decide)⟩
  · have hu : x.dispense u = s.dispense u := by rw [State.dispense, hd]; exact Pair.get_set_other _ _ _ _ hne
    have hflight : x.opInFlight u.other.port = s.opInFlight u.other.port := by
      have huw : u.other = w := by cases u <;> cases w <;> simp_all [Teller.other]
      rw [huw, Bool.eq_iff_iff, ← not_iff_not, Bool.not_eq_true, Bool.not_eq_true, opInFlight_teller, opInFlight_teller, hidle, hw,
        he]
      simp [Dispense.idle, DispenseState.inFlight]
    obtain ⟨h1, h2⟩ := h u
    exact ⟨by rw [hu, hflight]; exact h1, fun hr => by
      rw [hs]; exact h2 (by simpa only [State.retractWaits, hu, hdraw] using hr)⟩

/-! ## CANCEL's owning block (R88) -/

theorem cancelOwner_of (w : Teller) (f : Frame) (s : State) (hw : f.port = w.port) :
    cancelOwner f s = if (s.dispense w).ending then ok .none s else cancelAt w s := by
  unfold cancelOwner
  rw [hw]
  cases w <;> rfl

/-- A dispense that waits is cancelled, in a state x which differs in the claim alone (R88, R91). -/
theorem cancel_ends (w : Teller) (f : Frame) (s x : State) (n : Nat) (changed : List Block) (h : Taken .cancel f s)
    (hwait : (s.dispense w).state.inFlight = false) (hroom : EndRoom n s)
    (ho : cancelOwner f (reached .cancel f s) = ok .none (endDispense w 5 Quad.zero false none .none x))
    (hx : x = { reached .cancel f s with claim := x.claim }) (hc : KeptBut changed (reached .cancel f s) x)
    (hch : ∀ b ∈ ([.dispenses, .path, .position, .journal] : List Block), b ∈ changed) :
    Replies (.cancel f) .cancel f .ok .none changed s (fun t =>
      DispenseEnded w 5 Quad.zero n s.position s t ∧ ClaimIs x.claim.owner x.claim.waiting t) := by
  have hr := reached_ports .cancel f s h rfl
  have hreach := reached_quiet .cancel f s h
  have hxs : x = { s with ports := (reached .cancel f s).ports, claim := x.claim } := by rw [hx, hr]
  have xroom : EndRoom n x := by rw [hxs]; exact hroom
  have hends := endDispense_ends w 5 Quad.zero false none .none n x xroom (fun k => by simp)
  have hunpaid := fun t => endDispense_unpaid w 5 n x t xroom
  generalize endDispense w 5 Quad.zero false none .none x = z at ho hends hunpaid
  obtain ⟨p, ⟨hd, hpath, -⟩, -⟩ := hends.closed
  have hz : KeptBut [.dispenses, .path, .position, .journal] x z :=
    keptBut_without_ports hends.kept (kept_ports_of_lines _ _ hends.lines) (by simp)
  refine replies_plain _ _ f (cancelOwner f) _ _ _ s z _ rfl h rfl ho ?_ ?_ ?_ ?_ fun t ht hn => ⟨?_, ?_⟩
  · exact quiet_idles w x z (by rw [hxs]; exact quiet_of_eq s _ h.2.2.2.2.1 rfl rfl rfl) (by rw [hxs]; exact hwait) hd
      (by rw [hpath]) (by rw [hpath]) (hz .escrow (by simp))
  · rw [hends.lines, hx]
  · exact hc.trans (hz.mono hch)
  · rw [show z.startUp = x.startUp from hz .startUp (by simp), hxs]
  · have hended := hunpaid t ⟨ht, fun p x hx hne => hn p x hx (by simpa using hne)⟩
    rw [hxs] at hended
    exact hended.transfer rfl rfl rfl rfl rfl rfl rfl rfl rfl rfl
  · obtain ⟨h1, h2⟩ := ht .claim (by simp)
    obtain ⟨h3, h4⟩ := hz .claim (by simp)
    exact ⟨h1.trans h3, h2.trans h4⟩

theorem cancel_waiting (w : Teller) (f : Frame) (s : State) (n : Nat) (hw : f.port = w.port) (h : Taken .cancel f s)
    (hend : (s.dispense w).ending = false) (hroom : EndRoom n s) :
    ((s.dispense w).state = .delaying →
      Replies (.cancel f) .cancel f .ok .none [.dispenses, .path, .position, .journal] s
        (DispenseEnded w 5 Quad.zero n s.position s)) ∧
    ((s.dispense w).state = .queued →
      Replies (.cancel f) .cancel f .ok .none [.dispenses, .path, .position, .journal, .claim] s (fun t =>
        DispenseEnded w 5 Quad.zero n s.position s t ∧
          ClaimIs s.claim.owner
            (if (s.dispense w).deferred then s.claim.waiting else s.claim.waiting.filter (fun e => e ≠ .delayed w)) t)) := by
  have hr := reached_ports .cancel f s h rfl
  have hd : (reached .cancel f s).dispense w = s.dispense w := by rw [hr]; rfl
  have howner : cancelOwner f (reached .cancel f s) = cancelAt w (reached .cancel f s) := by
    rw [cancelOwner_of w f _ hw, hd, hend, if_neg (by simp)]
  have hsame : KeptBut [] (reached .cancel f s) (reached .cancel f s) := fun b _ => by cases b <;> simp [Kept]
  have hleft : KeptBut [.claim] (reached .cancel f s) (leaveWaiting (.delayed w) (reached .cancel f s)) := by
    intro b hb
    cases b
    case claim => simp at hb
    all_goals simp [Kept]
  refine ⟨fun hs => ?_, fun hs => ?_⟩
  · obtain ⟨t, he, ha, hk, hended, -⟩ := cancel_ends w f s (reached .cancel f s) n _ h (by rw [hs]; rfl) hroom
      (by rw [howner, cancelAt]; simp only [hd, hs]) rfl (hsame.mono (by simp)) (fun _ hb => hb)
    exact ⟨t, he, ha, hk, hended⟩
  · by_cases hdef : (s.dispense w).deferred = true
    · obtain ⟨t, he, ha, hk, hended, hclaim⟩ := cancel_ends w f s (reached .cancel f s) n
        [.dispenses, .path, .position, .journal, .claim] h (by rw [hs]; rfl) hroom
        (by rw [howner, cancelAt]; simp only [hd, hs, hdef, if_true]) rfl (hsame.mono (by simp)) (by simp)
      rw [reached_claim .cancel f s h rfl] at hclaim
      exact ⟨t, he, ha, hk, hended, by rw [if_pos hdef]; exact hclaim⟩
    · obtain ⟨t, he, ha, hk, hended, hclaim⟩ := cancel_ends w f s (leaveWaiting (.delayed w) (reached .cancel f s)) n
        [.dispenses, .path, .position, .journal, .claim] h (by rw [hs]; rfl) hroom
        (by rw [howner, cancelAt]; simp only [hd, hs, hdef]; rfl) rfl (hleft.mono (by simp)) (by simp)
      simp only [leaveWaiting, reached_claim .cancel f s h rfl] at hclaim
      refine ⟨t, he, ha, hk, hended, ?_⟩
      rw [if_neg hdef]
      simpa only [bne, beq_eq_decide, ne_eq, decide_not] using hclaim

/-! ## CANCEL in PICKING (R83, R89) -/

/-- The draw back of TRANSIT begins, where the RETRACT BIN takes it (R83). -/
theorem beginStop_eq (w : Teller) (why : StopReason) (s : State)
    (hroom : s.position.retract.total < Config.retractNotes ∨ s.position.transit.total = 0) :
    beginStop w why s = { s with
      dispenses := s.dispenses.set w { s.dispense w with stop := some why }
      path :=
        { s.path with
          draw := some ⟨.transit, .stop w why, s.position.transit, Quad.zero⟩
          timers := s.path.timers ++ [⟨.dispense w, .transit, false⟩] } } := by
  unfold beginStop startDraw
  rw [if_neg]
  · rfl
  · simp only [Position.retractFull, decide_eq_true_eq]
    show ¬(Config.retractNotes ≤ s.position.retract.total ∧ 0 < s.position.transit.total)
    omega

theorem cancel_picking (w : Teller) (f : Frame) (s : State) (hw : f.port = w.port) (h : Taken .cancel f s)
    (hend : (s.dispense w).ending = false) (hs : (s.dispense w).state = .picking) :
    if s.stopDraws w then Replies (.cancel f) .cancel f .ok .none [] s (fun _ => True)
    else if s.path.pick.isSome then
      Replies (.cancel f) .cancel f .accepted .none [.dispenses] s (fun t =>
        t.dispenses = s.dispenses.set w { s.dispense w with stop := some ((s.dispense w).stop.getD .cancelled) })
    else
      s.position.retract.total < Config.retractNotes ∨ s.position.transit.total = 0 →
        Replies (.cancel f) .cancel f .accepted .none [.dispenses, .path] s
          (StopBegun w ((s.dispense w).stop.getD .cancelled) (s.dispense w) s) := by
  have hr := reached_ports .cancel f s h rfl
  have hq := reached_quiet .cancel f s h
  have hd : (reached .cancel f s).dispense w = s.dispense w := by rw [hr]; rfl
  have hdraws : (reached .cancel f s).stopDraws w = s.stopDraws w := by rw [hr]; rfl
  have hpick : (reached .cancel f s).path = s.path := by rw [hr]
  have howner : cancelOwner f (reached .cancel f s) = cancelAt w (reached .cancel f s) := by
    rw [cancelOwner_of w f _ hw, hd, hend, if_neg (by simp)]
  unfold cancelAt at howner
  simp only [hd, hs, hdraws, hpick] at howner
  split
  next hstop => exact replies_unchanged _ .cancel f (cancelOwner f) _ _ _ s rfl h rfl (by rw [howner, if_pos hstop]; rfl)
  next hstop =>
  rw [if_neg hstop] at howner
  split
  next hhand =>
    rw [if_pos hhand] at howner
    have hstopped : (reached .cancel f s).onDispense w (fun d => { d with stop := d.stop.or (some .cancelled) }) =
        (reached .cancel f s).onDispense w
          (fun _ => { s.dispense w with stop := some ((s.dispense w).stop.getD .cancelled) }) := by
      unfold State.onDispense
      rw [show (reached .cancel f s).dispenses.get w = s.dispense w from hd]
      simp only [Option.or_some]
    rw [hstopped] at howner
    refine replies_plain _ _ f (cancelOwner f) _ _ _ s _ _ rfl h rfl howner ?_ rfl ?_ ?_ fun t ht _ => ?_
    · exact quiet_onDispense w _ _ hq (by rw [hd]) (by rw [hd]) (by rw [hd])
    · intro b hb
      cases b
      case dispenses => simp at hb
      all_goals simp [Kept]
    · rw [hr]; rfl
    · rw [ht .dispenses (by simp), hr]; rfl
  next hhand =>
    intro hroom
    rw [if_neg hhand, beginStop_eq _ _ _ (by rw [hr]; exact hroom), hd] at howner
    refine replies_plain _ _ f (cancelOwner f) _ _ _ s _ _ rfl h rfl howner ?_ rfl ?_ ?_ fun t ht _ => ?_
    · refine quiet_drawing ((reached .cancel f s).onDispense w fun _ => _) _ ?_ rfl
      exact quiet_onDispense w _ _ hq (by rw [hd]) (by rw [hd]) (by rw [hd])
    · intro b hb
      cases b
      case dispenses | path => simp at hb
      all_goals simp [Kept]
    · rw [hr]
    · refine ⟨?_, ?_, ?_, ?_⟩
      · rw [ht .position (by simp), hr]
      · rw [ht .journal (by simp), hr]
      · rw [ht .dispenses (by simp), hr]
      · rw [ht .path (by simp), hr]

/-! ## CANCEL in PRESENTING (R86, R88) -/

theorem cancel_presenting (w : Teller) (f : Frame) (s : State) (hw : f.port = w.port) (h : Taken .cancel f s)
    (hend : (s.dispense w).ending = false) (hs : (s.dispense w).state = .presenting) :
    (s.path.state = .ready → s.path.draw = none →
      s.position.retract.total < Config.retractNotes ∨ (s.dispense w).presented.total = 0 →
      Replies (.cancel f) .cancel f .accepted .none [.dispenses, .path] s (fun t =>
        t.dispenses = s.dispenses.set w (s.dispense w).retracts ∧
          t.path = s.path.drawsPocket w (s.dispense w).presented)) ∧
    (s.path.state = .jammed → s.path.draw = none → OtherAtRest w s →
      Replies (.cancel f) .cancel f .accepted .none [.dispenses, .path, .position, .journal] s (RetractJammed w s)) ∧
    (s.path.state = .purging →
      Replies (.cancel f) .cancel f .accepted .none [.dispenses] s (fun t =>
        t.dispenses = s.dispenses.set w (s.dispense w).retracts)) := by
  obtain ⟨-, -, -, -, hq, -⟩ := id h
  generalize hports : (reached .cancel f s).ports = ports
  have hr : reached .cancel f s = { s with ports := ports } := hports ▸ reached_ports .cancel f s h rfl
  generalize hy : ({ s with ports := ports, dispenses := s.dispenses.set w (s.dispense w).retracts } : State) = y
  have howner : cancelOwner f (reached .cancel f s) = accepted .none y := by
    rw [hr, cancelOwner_of w f _ hw, ← hy]
    unfold cancelAt
    simp only [show ({ s with ports := ports } : State).dispense w = s.dispense w from rfl, hend, hs]
    rfl
  have hydw : y.dispense w = (s.dispense w).retracts := by rw [← hy]; exact Pair.get_set_self _ _ _
  have hydo : y.dispense w.other = s.dispense w.other := by
    rw [← hy]; exact Pair.get_set_other _ _ _ _ (by cases w <;> decide)
  have hypath : y.path = s.path := by rw [← hy]
  have hother : y.retractWaits w.other = s.retractWaits w.other := by simp only [State.retractWaits, hydo, hypath]
  generalize hz : formReply f.port .accepted none .none y = z
  have hzd : z.dispense w = (s.dispense w).retracts := by
    rw [← hydw, ← hz, State.dispense, (formReply_keeps _ _ _ _ _).2.2.2.2.2.2.2.1]; rfl
  have hzp : z.path = s.path := by rw [← hz]; simpa using hypath
  have hwaits (hdraw : s.path.draw = none) : z.retractWaits w = true := by
    simp [State.retractWaits, hzd, hzp, Dispense.retracts, hend, hdraw]
  refine ⟨fun hready hdraw hroom => ?_, fun hj hdraw hrest => ?_, fun hpu => ?_⟩
  · have hx := proceedRetract_ready w z (hwaits hdraw) (by rw [hzp]; exact hready) (by
      rw [hzd, ← hz, ← hy]; simpa [Dispense.retracts] using hroom)
    rw [hzd, hzp, ← hz] at hx
    have hno : s.retractWaits w.other = false := Bool.eq_false_iff.mpr fun hwait => by
      have := (hq w.other).2 hwait
      rw [hready] at this
      cases this
    refine replies_retract _ .cancel f (cancelOwner f) _ _ _ w s y
      { y with path := s.path.drawsPocket w (s.dispense w).presented } _ rfl h rfl howner hx (by rw [hother]; exact hno)
      ?_ ?_ (by rw [← hy]) (by rw [← hy]) (by rw [← hy, hr]) ?_ fun t ht => ⟨?_, ?_⟩
    · simp [State.retractWaits, NotePath.drawsPocket]
    · exact quiet_retracts w s _ hq hs (by rw [← hy]) (by rw [← hy]) (.inl rfl)
    · intro b hb
      cases b
      case dispenses | path => simp at hb
      all_goals (rw [← hy, hr]; simp [Kept])
    · rw [ht .dispenses (by simp), ← hy]
    · rw [ht .path (by simp)]
  · generalize hx : jamDispense w y = x
    have hjam : proceedRetract w z = formReply f.port .accepted none .none x := by
      rw [proceedRetract_jammed w z (hwaits hdraw) (by rw [hzp]; exact hj), ← hx, jamDispense_eq, jamDispense_eq, ← hz]
      rfl
    rw [← hz] at hjam
    rw [jamDispense_eq] at hx
    have hyd : y.dispenses.set w Dispense.idle = s.dispenses.set w Dispense.idle := by rw [← hy]; exact Pair.set_set _ _ _ _
    obtain ⟨hq1, hq2⟩ := id hrest
    have hno : s.retractWaits w.other = false := by simp [State.retractWaits, hq2]
    refine replies_retract _ .cancel f (cancelOwner f) _ _ _ w s y x _ rfl h rfl howner hjam (by rw [hother]; exact hno)
      ?_ ?_ (by rw [← hy]) (by rw [← hx, ← hy]) (by rw [← hx, ← hy, hr]) ?_ fun t ht =>
        ⟨⟨?_, ?_, ?_, fun before after r hb1 hb2 hb3 hb4 hb5 => ?_⟩, ?_⟩
    · have hxo : x.dispense w.other = s.dispense w.other := by
        rw [← hx]
        exact (Pair.get_set_other _ _ _ _ (by cases w <;> decide)).trans hydo
      simp [State.retractWaits, hxo, hq2]
    · exact quiet_of_ended w s _ hrest (by rw [← hx]; exact hyd)
    · intro b hb
      cases b
      case dispenses | path | position | journal => simp at hb
      all_goals (rw [← hx, ← hy, hr]; simp [Kept])
    · rw [ht .dispenses (by simp), ← hx]; exact hyd
    · rw [ht .position (by simp), ← hx, hydw, ← hy]; rfl
    · rw [ht .journal (by simp), ← hx, ← hy]
    · rw [ht .journal (by simp), ← hx]
      have hm := jamMarked_first w y before after r (by rw [← hy]; exact hb1) hb2 hb3 hb4 hb5
      rw [hydw] at hm
      exact hm
    · rw [ht .path (by simp), ← hx, hypath]
  · refine replies_plain _ .cancel f (cancelOwner f) _ _ _ s y _ rfl h rfl howner ?_ ?_ ?_ ?_ fun t ht _ => ?_
    · exact quiet_retracts w s y hq hs (by rw [← hy]) (by rw [← hy]) (.inr (by rw [hypath]; exact hpu))
    · rw [← hy, hr]
    · intro b hb
      cases b
      case dispenses => simp at hb
      all_goals (rw [← hy, hr]; simp [Kept])
    · rw [← hy]
    · rw [ht .dispenses (by simp), ← hy]

/-- Settles O18. -/
theorem cancelActsByState : Obligations.CancelActsByState := by
  unfold Obligations.CancelActsByState
  intro w f s hw h
  have hr := reached_ports .cancel f s h rfl
  have hd : (reached .cancel f s).dispense w = s.dispense w := by rw [hr]; rfl
  have howner := cancelOwner_of w f (reached .cancel f s) hw
  rw [hd] at howner
  dsimp only
  split
  next hend => exact replies_unchanged _ .cancel f (cancelOwner f) _ _ _ s rfl h rfl (by rw [howner, if_pos hend]; rfl)
  next hend =>
  rw [if_neg hend] at howner
  rw [Bool.not_eq_true] at hend
  unfold cancelAt at howner
  simp only [hd] at howner
  split
  next hs => exact refuses_of _ .cancel f (fun _ => cancelOwner f) _ _ s rfl h rfl (by rw [howner, hs]; rfl)
  next hs => exact fun n hroom => (cancel_waiting w f s n hw h hend hroom).1 hs
  next hs => exact fun n hroom => (cancel_waiting w f s n hw h hend hroom).2 hs
  next hs => exact cancel_picking w f s hw h hend hs
  next hs => exact cancel_presenting w f s hw h hend hs
  next hs => exact replies_unchanged _ .cancel f (cancelOwner f) _ _ _ s rfl h rfl (by rw [howner, hs]; rfl)

end Sys2Proof.Machine
end

section
/-! What the work of a window's dispense leaves told and held: what it may raise, and what stays. -/
namespace Sys2Proof.Machine

/-- The kinds of notice that the work of a dispense may raise. -/
abbrev dispenseNotices : List NoticeKind := [.present, .restriction, .journalHigh, .moduleFault]

/-- The restriction set as it stands has been told to a port. -/
def RestrictionTold (p : Port) (s : State) : Prop := ∃ causes : Causes, Told p (.restriction s.alarm.restriction causes) s

/-- The alarm unit is as it was; what was told stays told, but for PRESENT, MODULE_FAULT and the notices of the audit state and the
journal; the restriction set stays told to the ports that it is told to; and no end leaves the end hold. -/
structure Onward (s t : State) : Prop where
  alarm : t.alarm = s.alarm
  tells : Tells dispenseNotices s t
  told : ∀ p : Port, p ≠ .m → RestrictionTold p s → RestrictionTold p t
  held : ∀ e ∈ s.journal.endHold, e ∈ t.journal.endHold

theorem Onward.trans {s t u : State} (h : Onward s t) (k : Onward t u) : Onward s u :=
  ⟨k.alarm.trans h.alarm, h.tells.trans k.tells, fun p hp hs => k.told p hp (h.told p hp hs), fun e he => k.held e (h.held e he)⟩

/-- Work that tells nothing of the audit state. -/
theorem Onward.of_tells {s t : State} (ha : t.alarm = s.alarm) (h : Tells [.present, .journalHigh, .moduleFault] s t)
    (hj : t.journal.endHold = s.journal.endHold) : Onward s t := by
  refine ⟨ha, h.mono (by simp), fun p _ ⟨c, hc⟩ => ⟨c, ?_⟩, fun e he => hj ▸ he⟩
  rw [ha]
  exact h p _ hc (by simp [Notice.kind])

theorem Onward.of_same {s t : State} (ha : t.alarm = s.alarm) (hp : t.ports = s.ports)
    (hj : t.journal.endHold = s.journal.endHold) : Onward s t := .of_tells ha (tells_of_ports _ hp) hj

/-! ## The journal and the accounts -/

theorem stage_endHold (d : Draft) (s : State) : (stage d s).2.journal.endHold = s.journal.endHold := by
  cases h : s.journal.next with
  | none => rw [stage_none d s h]
  | some n =>
    obtain ⟨-, -, -, hheld, -⟩ := stage_some d s n h
    exact hheld

theorem eventRecord_endHold (d : Draft) (s : State) : (eventRecord d s).2.journal.endHold = s.journal.endHold := by
  by_cases h : s.journal.eventRoom = true
  · rw [eventRecord_room d s h, stage_endHold]
  · rw [eventRecord_lost d s (by simpa using h), loseRecord_journal]

theorem stageApplied_endHold (d : Draft) (s : State) : (stageApplied d s).2.journal.endHold = s.journal.endHold := by
  unfold stageApplied
  simpa using stage_endHold d s

theorem Booked.onward {failed : Prop} {f : Position → Position} {s t : State} (h : Booked failed f s t) (hf : LeavesAudit f) :
    Onward s t := by
  have ha : t.alarm = s.alarm := by rw [h.rest]
  refine ⟨ha, h.tells.mono (by simp), fun p hp ⟨c, hc⟩ => ?_, fun e he => by rw [h.rest]; exact he⟩
  rw [RestrictionTold, ha]
  by_cases hn : failed
  · by_cases hs : s.position.causes.any = true
    · exact ⟨c, told_of_ports _ _ _ _ hc (h.again hs)⟩
    · obtain ⟨-, -, -, htold⟩ := h.found hn
      exact ⟨_, htold (by rw [hf.causes]; simpa using hs) p hp⟩
  · exact ⟨c, told_of_ports _ _ _ _ hc (by rw [h.fine hn])⟩

theorem WordsRead.onward {failed : Prop} {s t : State} (h : WordsRead failed s t) : Onward s t :=
  h.booked.onward fun _ _ _ => rfl

/-! ## The end of a dispense -/

theorem finishDispense_onward (w : Teller) (outcome : Nat) (taken : Quad Nat) (due : Bool) (reason : Option Reason)
    (carried : Results) (s : State) : Onward s (finishDispense w outcome taken due reason carried s) := by
  rw [finishDispense_eq]
  generalize dispenseDraft _ _ _ _ _ _ _ = draft
  generalize dispenseDone _ _ _ _ _ _ _ _ = done
  have h0 : Onward s (s.onPosition (fun p => p.takeAll w taken)) := .of_same rfl rfl rfl
  have h1 := h0.trans ((bookBalance_booked (drawerOf w) (s.value taken) _).2.onward (bookedBalance_leaves _ _))
  have h2 := h1.trans ((bookCoinDue_booked (remainderAccount w (s.dispense w).target)
    (if due then (s.dispense w).remainder else 0) _).2.onward (bookedCoinDue_leaves _ _))
  generalize (bookCoinDue _ _ _).2 = x at h2 ⊢
  have h3 : Onward x (release w.port .dispense x) := .of_same (by simp) (by simp) rfl
  have h4 : Onward (release w.port .dispense x) (stageApplied draft (release w.port .dispense x)).2 :=
    .of_tells (by simp) ((tells_stageApplied draft _).mono (by simp)) (stageApplied_endHold _ _)
  refine ((h2.trans h3).trans h4).trans (.of_same (by simp [State.onDispense]) (by simp [State.onDispense]) ?_)
  unfold awaitDurable
  split <;> simp [State.onDispense]

/-- An end is made, which leaves all told and held, or it waits in the end hold with those before it. -/
theorem holdOrFinish_onward (e : HeldEnd) (s : State) (h : Onward s (finishEnd e s)) : Onward s (holdOrFinish e s) := by
  unfold holdOrFinish
  split
  · exact h
  · exact ⟨rfl, tells_of_ports _ rfl, fun _ _ => id, fun x hx => List.mem_append_left _ hx⟩

theorem endDispense_onward (w : Teller) (outcome : Nat) (taken : Quad Nat) (due : Bool) (reason : Option Reason)
    (carried : Results) (s : State) : Onward s (endDispense w outcome taken due reason carried s) := by
  unfold endDispense
  refine Onward.trans (t := stopTimers (.dispense w) (s.onDispense w fun d => { d with ending := true, deferred := false }))
    (.of_same (by simp) (by simp) (by simp)) ?_
  exact holdOrFinish_onward _ _ (finishDispense_onward w outcome taken due reason carried _)

/-! ## Picking, and what the end of the step takes up -/

/-- A draw of a window's notes begins, or a full RETRACT BIN stops it with MODULE_FAULT (R66). -/
theorem startDraw_onward (w : Teller) (x : DrawSource) (cause : DrawCause) (q : Quad Nat) (s : State)
    (hc : cause.owner = .dispense w) : Onward s (startDraw x cause q s) := by
  unfold startDraw
  simp only []
  split
  · unfold stopDraw jam
    simp only [hc, jamDispense_eq]
    have hfault : Onward s (raise .s (.moduleFault (.retractBinFull (s.movePort (.dispense w)) x.sensor)) s) :=
      .of_tells (by simp) (tells_raise _ _ _ _ (by simp [Notice.kind])) (by simp)
    exact hfault.trans (.of_same (by simp [State.onPath]) (by simp [State.onPath]) (by simp [State.onPath]))
  · exact .of_same rfl rfl rfl

theorem present_onward (w : Teller) (s : State) : Onward s (present w s) := by
  unfold present
  exact Onward.trans (t := s.onDispense w _) (.of_same rfl rfl rfl)
    (.of_tells (by simp) (tells_raise _ _ _ _ (by simp [Notice.kind])) (by simp))

theorem beginStop_onward (w : Teller) (why : StopReason) (s : State) : Onward s (beginStop w why s) :=
  Onward.trans (t := s.onDispense w _) (.of_same rfl rfl rfl) (startDraw_onward w _ _ _ _ rfl)

theorem stopShort_onward (w : Teller) (why : ShortCause) (s : State) : Onward s (stopShort w why s) := by
  unfold stopShort
  refine Onward.trans (t := s.onDispense w fun d => { d with short := some why, unpaid := d.amount }) (.of_same rfl rfl rfl) ?_
  simp only []
  split
  · exact present_onward w _
  · exact endDispense_onward w _ _ _ _ _ _

theorem advance_onward (n : Nat) (w : Teller) (s : State) : Onward s (advance n w s) := by
  induction n generalizing s with
  | zero => exact .of_same rfl rfl rfl
  | succ n ih =>
    obtain ⟨failed, hr⟩ := reMix_read w s
    unfold advance
    split
    · exact present_onward w s
    · split
      · exact .of_same rfl rfl rfl
      · exact beginStop_onward w _ s
      · rcases hm : reMix w s with ⟨o, x⟩
        rw [hm] at hr
        cases o with
        | payable m => exact (hr.onward.trans (.of_same (t := x.onDispense w _) rfl rfl rfl)).trans (ih _)
        | failed why carried =>
          simp only []
          split
          · exact hr.onward.trans (beginStop_onward w _ x)
          · exact hr.onward.trans (stopShort_onward w _ x)

theorem grantChecks_onward (w : Teller) (s : State) : Onward s (grantChecks w s) := by
  have hend (outcome : Nat) (reason : Option Reason) (carried : Results) (x : State) :
      Onward x (endDispense w outcome Quad.zero false reason carried x) := endDispense_onward w _ _ _ _ _ _
  unfold grantChecks
  refine Onward.trans (t := s.onDispense w fun d => { d with state := .queued, deferred := false }) (.of_same rfl rfl rfl) ?_
  generalize s.onDispense w (fun d => { d with state := .queued, deferred := false }) = x
  simp only []
  split
  · exact hend _ _ _ _
  · exact hend _ _ _ _
  · split
    · exact hend _ _ _ _
    · split
      · exact hend _ _ _ _
      · have hr := (requestMix_spec w (x.dispense w).amount (x.dispense w).cap (x.dispense w).preference (x.dispense w).target x).2
        split <;> rename_i hm <;> rw [hm] at hr
        · exact hr.onward.trans (hend _ _ _ _)
        · split
          · exact hr.onward.trans (hend _ _ _ _)
          · refine hr.onward.trans (Onward.trans (.of_same ?_ ?_ ?_) (advance_onward _ w _)) <;> simp [State.onDispense]

theorem grantDispense_onward (w : Teller) (s : State) : Onward s (grantDispense w s) := by
  unfold grantDispense
  split
  · exact .of_same rfl rfl rfl
  · exact grantChecks_onward w s

theorem proceedRetract_onward (w : Teller) (s : State) : Onward s (proceedRetract w s) := by
  unfold proceedRetract
  split
  · split
    · exact startDraw_onward w _ _ _ s rfl
    · exact .of_same (by simp) (by simp) (by rw [jamDispense_eq])
    · exact .of_same rfl rfl rfl
  · exact .of_same rfl rfl rfl

theorem proceedDeferred_onward (w : Teller) (s : State) : Onward s (proceedDeferred w s) := by
  unfold proceedDeferred
  simp only []
  split
  · exact grantChecks_onward w s
  · exact .of_same rfl rfl rfl

theorem takenUp_onward (s : State) : Onward s (takenUp s) :=
  (((proceedRetract_onward .a s).trans (proceedRetract_onward .b _)).trans (proceedDeferred_onward .a _)).trans
    (proceedDeferred_onward .b _)

end Sys2Proof.Machine
end

section
/-! The grant of a dispense whose delay has ended, and DELAY_END (O19). -/
namespace Sys2Proof.Machine

/-! ## What waits after a window's dispense has gone on -/

theorem Teller.other_other (w : Teller) : w.other.other = w := by cases w <;> rfl

/-- A window that had no operation in flight, and of which nothing waits now, leaves what else waits as it was. -/
theorem quiet_window (w : Teller) (s z : State) (h : Quiet s) (hidle : (s.dispense w).state.inFlight = false)
    (hother : z.dispense w.other = s.dispense w.other) (hop : z.escrow.op = s.escrow.op) (hdue : ¬GrantDue w z)
    (hret : (z.dispense w).state ≠ .retracting)
    (hpath : (s.dispense w.other).state = .retracting → z.path.state = s.path.state ∧ z.path.draw = s.path.draw) : Quiet z := by
  intro u
  rcases eq_or_ne u w with rfl | hne
  · exact ⟨hdue, retractSettled_of_state hret⟩
  · obtain rfl := Teller.eq_other hne
    obtain ⟨h1, h2⟩ := h w.other
    rw [Teller.other_other] at h1 ⊢
    refine ⟨fun ⟨q1, q2, q3⟩ => h1 ⟨hother ▸ q1, hother ▸ q2, ?_⟩, fun hr => ?_⟩
    · rw [opInFlight_teller] at q3 ⊢
      exact ⟨hidle, hop ▸ q3.2⟩
    · simp only [State.retractWaits, hother, Bool.and_eq_true, beq_iff_eq] at hr
      obtain ⟨p1, p2⟩ := hpath hr.1.1
      rw [p1]
      exact h2 (by simpa only [State.retractWaits, ← p2, Bool.and_eq_true, beq_iff_eq] using hr)

/-! ## The grant (R77, R78) -/

/-- A grant made in the state y, which differs from s in the claim and the ports alone, leaves z: what it does to the dispense is what
GrantGoesOn says of s. -/
structure GrantMade (w : Teller) (s y z : State) : Prop where
  quiet : Quiet z
  lines : z.ports.lines = y.ports.lines
  kept : KeptBut dispensing y z
  tells : Tells dispenseNotices y z
  goesOn : ∀ t, KeptBut [] z t → GrantGoesOn w s t

theorem grantDispense_made (w : Teller) (s y : State) (h : Quiet s) (hidle : (s.dispense w).state.inFlight = false)
    (hy : y = { s with claim := y.claim, escrow := y.escrow, ports := y.ports }) (hop : y.escrow.op = s.escrow.op) :
    GrantMade w s y (grantDispense w y) := by
  have ydisp (u : Teller) : y.dispense u = s.dispense u := by rw [hy]; rfl
  have yflight (p : Port) : y.opInFlight p = s.opInFlight p := by
    simp only [State.opInFlight, State.dispenseInFlight, show y.dispenses = s.dispenses by rw [hy], hop]
  have htells := (grantDispense_onward w y).tells
  unfold grantDispense at htells ⊢
  by_cases hbusy : y.opInFlight w.other.port = true
  · rw [if_pos hbusy] at htells ⊢
    generalize hz : y.onDispense w (fun d => { d with state := .queued, deferred := true }) = z at htells ⊢
    have zd : z.dispense w = { s.dispense w with state := .queued, deferred := true } := by
      rw [← hz, onDispense_self, ydisp]
    have zother : z.dispense w.other = y.dispense w.other := by
      rw [← hz]; exact State.onDispense_dispense_other _ _ _ _ (by cases w <;> decide)
    have zflight : z.opInFlight w.other.port = true := by
      rw [← Bool.not_eq_false, opInFlight_teller] at hbusy ⊢
      rwa [zother, show z.escrow = y.escrow by rw [← hz]; rfl]
    refine ⟨quiet_window w s z h hidle (zother.trans (ydisp _)) ?_ ?_ ?_ ?_, by rw [← hz]; rfl, ?_, htells, fun t ht => ?_⟩
    · rw [← hz]; exact hop
    · exact fun hdue => by rw [hdue.2.2] at zflight; cases zflight
    · rw [zd]; simp
    · exact fun _ => ⟨by rw [← hz, hy]; rfl, by rw [← hz, hy]; rfl⟩
    · intro b hb
      cases b
      case position | dispenses | path | journal => simp at hb
      all_goals (rw [← hz]; simp [Kept])
    · unfold GrantGoesOn
      rw [if_pos (by rw [← yflight]; exact hbusy)]
      refine ⟨?_, ?_, ?_, ?_⟩
      · rw [ht .dispenses (by simp), ← hz, ← ydisp w, hy]; rfl
      · rw [ht .position (by simp), ← hz, hy]; rfl
      · rw [ht .path (by simp), ← hz, hy]; rfl
      · rw [ht .journal (by simp), ← hz, hy]; rfl
  · rw [if_neg hbusy] at htells ⊢
    rw [Bool.not_eq_true] at hbusy
    obtain ⟨hwithin, hcalm⟩ := grantChecks_within w y
    have hfree : ((s.dispense w.other).state.inFlight) = false := by
      rw [← ydisp]; exact ((opInFlight_teller _ _).mp hbusy).1
    refine ⟨quiet_window w s _ h hidle (hwithin.other.trans (ydisp _)) ((congrArg Escrow.op hwithin.escrow).trans hop) ?_ hcalm.2 ?_,
      hwithin.lines, hwithin.kept (grantChecks_keeps w y), htells, fun t ht =>
        grantChecks_goesOn w s y t hy (by rw [← yflight]; exact hbusy) ht⟩
    · exact fun hdue => by rw [GrantDue, hcalm.1] at hdue; cases hdue.2.1
    · intro hr
      rw [hr] at hfree
      cases hfree

/-- A new owner is a matter of the claim and the escrow alone. -/
theorem setOwner_rest (o : Owner) (s : State) :
    setOwner o s = { s with claim := (setOwner o s).claim, escrow := (setOwner o s).escrow } := by
  have k := setOwner_keeps o s
  generalize setOwner o s = x at *
  cases x; cases s; simp_all

/-! ## The end of a delay (R76) -/

theorem delayEnd_reached (w : Teller) (s : State) (hrun : s.running = true) (hs : (s.dispense w).state = .delaying)
    (hend : (s.dispense w).ending = false) (hover : delayReached s.clock.count (s.dispense w).delayEnd = true) :
    exec (.delayEnd w) s = done (endDelay w s) := by
  show done (event (delayEnded w) s) = _
  rw [event_running _ _ hrun, delayEnded, if_pos ⟨hs, hend, hover⟩]

/-- A dispense that had no operation in flight ends by an event with nothing paid (R91). -/
theorem does_ends_unpaid (c : Instr) (w : Teller) (outcome n : Nat) (s : State) (hrun : s.running = true) (hq : Quiet s)
    (hidle : (s.dispense w).state.inFlight = false) (hroom : EndRoom n s)
    (he : exec c s = done (endDispense w outcome Quad.zero false none .none s)) :
    Does c [.dispenses, .path, .position, .journal] s (DispenseEnded w outcome Quad.zero n s.position s) := by
  have hends := endDispense_ends w outcome Quad.zero false none .none n s hroom (fun k => by simp)
  have hunpaid := fun t => endDispense_unpaid w outcome n s t hroom
  generalize endDispense w outcome Quad.zero false none .none s = z at he hends hunpaid
  obtain ⟨p, ⟨hd, hpath, -⟩, -⟩ := hends.closed
  have hz : KeptBut [.dispenses, .path, .position, .journal] s z :=
    keptBut_without_ports hends.kept (kept_ports_of_lines _ _ hends.lines) (by simp)
  refine does_done c _ s z _ he ?_ ?_ hz fun t ht hn => hunpaid t ⟨ht, fun p x hx hne => hn p x hx (by simpa using hne)⟩
  · exact quiet_idles w s z hq hidle hd (by rw [hpath]) (by rw [hpath]) (hz .escrow (by simp))
  · rw [State.powered, show z.startUp = s.startUp from hz .startUp (by simp)]
    exact powered_of_running s hrun

theorem delay_queues (w : Teller) (s : State) (hrun : s.running = true) (hq : Quiet s) (hs : (s.dispense w).state = .delaying)
    (hdef : (s.dispense w).deferred = false)
    (he : exec (.delayEnd w) s = done (joinWaiting (.delayed w) (s.onDispense w fun d => { d with state := .queued }))) :
    Does (.delayEnd w) [.dispenses, .claim] s (fun t =>
      t.dispenses = s.dispenses.set w { s.dispense w with state := .queued } ∧
        ClaimIs s.claim.owner (joinList (.delayed w) s.claim.waiting) t) := by
  generalize hz : joinWaiting (.delayed w) (s.onDispense w fun d => { d with state := .queued }) = z at he
  have zd : z.dispense w = { s.dispense w with state := .queued } := by rw [← hz]; exact Pair.get_set_self _ _ _
  refine does_done _ _ s z _ he ?_ ?_ ?_ fun t ht _ => ⟨?_, ?_⟩
  · refine quiet_window w s z hq (by rw [hs]; rfl) ?_ (by rw [← hz]; rfl) ?_ (by rw [zd]; simp) fun _ => ?_
    · rw [← hz]; exact Pair.get_set_other _ _ _ _ (by cases w <;> decide)
    · exact fun hdue => by rw [GrantDue, zd, hdef] at hdue; cases hdue.2.1
    · rw [← hz]; exact ⟨rfl, rfl⟩
  · rw [← hz]; exact powered_of_running s hrun
  · intro b hb
    cases b
    case dispenses | claim => simp at hb
    all_goals (rw [← hz]; simp [Kept])
  · rw [ht .dispenses (by simp), ← hz]; rfl
  · obtain ⟨h1, h2⟩ := ht .claim (by simp)
    exact ⟨by rw [h1, ← hz]; rfl, by rw [h2, ← hz]; rfl⟩

theorem delay_granted (w : Teller) (s : State) (hrun : s.running = true) (hq : Quiet s) (hs : (s.dispense w).state = .delaying)
    (he : exec (.delayEnd w) s = done (grantDispense w (setOwner (ownerOf w.port) s))) :
    Does (.delayEnd w) [.dispenses, .claim, .escrow, .path, .position, .journal] s (fun t =>
      ClaimIs (ownerOf w.port) s.claim.waiting t ∧
        t.escrow =
          { s.escrow with
            isOpen := if s.escrow.stack = [] ∧ w ≠ s.escrow.owner then false else s.escrow.isOpen } ∧
        GrantGoesOn w s t) := by
  have hclaim := (setOwner_spec (ownerOf w.port) s).1
  have hescrow := setOwner_escrow w.port s
  have hport : w.port ≠ s.escrow.owner.port ↔ w ≠ s.escrow.owner := by cases w <;> cases s.escrow.owner <;> decide
  simp only [hport] at hescrow
  generalize hy : setOwner (ownerOf w.port) s = y at he hclaim hescrow
  have hrest : y = { s with claim := y.claim, escrow := y.escrow, ports := y.ports } := by
    rw [← hy]; exact (setOwner_rest _ s).trans (by simp)
  have hmade := grantDispense_made w s y hq (by rw [hs]; rfl) hrest (by rw [hescrow])
  have hyk : KeptBut [.claim, .escrow] s y := by
    intro b hb
    cases b
    case claim | escrow => simp at hb
    all_goals (rw [← hy]; simp [Kept])
  have hk := (hyk.mono (ys := [.dispenses, .claim, .escrow, .path, .position, .journal]) (by simp)).trans
    (hmade.kept.mono (by simp))
  refine does_done _ _ s _ _ he hmade.quiet ?_ hk fun t ht _ => ⟨?_, ?_, hmade.goesOn t ht⟩
  · rw [State.powered, show (grantDispense w y).startUp = s.startUp from hk .startUp (by simp)]
    exact powered_of_running s hrun
  · obtain ⟨h1, h2⟩ := ht .claim (by simp)
    obtain ⟨h3, h4⟩ := hmade.kept .claim (by simp)
    exact ⟨by rw [h1, h3, hclaim], by rw [h2, h4, hclaim]⟩
  · rw [ht .escrow (by simp), hmade.kept .escrow (by simp), hescrow]

/-- Settles O19. -/
theorem delayEndGoesOn : Obligations.DelayEndGoesOn := by
  unfold Obligations.DelayEndGoesOn
  intro w s hrun hq d hs hend hdef hover
  have he := delayEnd_reached w s hrun hs hend hover
  unfold endDelay at he
  split
  next hhalt =>
    rw [if_pos hhalt] at he
    exact fun n hroom => does_ends_unpaid _ w 7 n s hrun hq (by rw [show (s.dispense w).state = _ from hs]; rfl) hroom he
  next hhalt =>
  rw [if_neg hhalt] at he
  split
  next howned =>
    rw [if_neg howned] at he
    obtain ⟨t, ht, hk, hd, hclaim⟩ := delay_queues w s hrun hq hs hdef he
    obtain ⟨before, after, hws, hjoin, hafter, hbefore⟩ := joinList_place (.delayed w) s.claim.waiting
    refine ⟨t, ht, hk, hd, before, after, hws, hjoin ▸ hclaim, fun e h => ?_, fun e h => ?_⟩
    · exact Nat.ne_of_gt (Nat.zero_lt_of_lt (hafter e h))
    · exact Nat.le_zero.mp (hbefore e h)
  next howned =>
    rw [if_pos (not_not.mp howned)] at he
    exact delay_granted w s hrun hq hs he

end Sys2Proof.Machine
end

section
/-! RELEASE and the idle expiry hand the claim on (O15). -/
namespace Sys2Proof.Machine

/-! ## The hand-on of the claim (R51, R97) -/

/-- With an empty escrow and nobody waiting the claim is free, and the escrow's record closed. -/
theorem freeClaim_nobody (s : State) (h : s.escrow.stack = []) (hw : s.claim.waiting = []) :
    freeClaim s = s.claimed .none [] := by
  rw [freeClaim_alone s hw, setOwner_none s h, hw]

/-- A state whose claim has gone over keeps what waits. -/
theorem quiet_claimed (o : Owner) (ws : List WaitEntry) (s : State) (h : Quiet s) : Quiet (s.claimed o ws) :=
  quiet_of_eq s _ h rfl rfl rfl

theorem quiet_raise (p : Port) (n : Notice) (s : State) (h : Quiet s) : Quiet (raise p n s) :=
  quiet_of_eq s _ h (by simp) (by simp) (by simp)

theorem claimed_kept (o : Owner) (ws : List WaitEntry) (s : State) : KeptBut [.claim, .escrow] s (s.claimed o ws) := by
  intro b hb
  cases b
  case claim | escrow => simp at hb
  all_goals simp [Kept, State.claimed]

theorem raise_kept (p : Port) (n : Notice) (s : State) : KeptBut [] s (raise p n s) := by
  intro b _
  cases b
  case ports => exact kept_ports_of_lines _ _ (by simp)
  all_goals simp [Kept]

theorem KeptBut.refl (bs : List Block) (s : State) : KeptBut bs s s := fun b _ => by cases b <;> simp [Kept]

/-- What the hand-on leaves: the state z, nothing waiting in it, the claim and the escrow as given. -/
structure HandedOn (o : Owner) (ws : List WaitEntry) (changed : List Block) (x z : State) : Prop where
  quiet : Quiet z
  lines : z.ports.lines = x.ports.lines
  kept : KeptBut changed x z
  claim : ClaimIs o ws z
  escrow : z.escrow = { x.escrow with isOpen := false }
  tells : Tells (.grant :: dispenseNotices) x z

theorem HandedOn.shown {o : Owner} {ws : List WaitEntry} {changed : List Block} {x z t : State} (h : HandedOn o ws changed x z)
    (ht : KeptBut [] z t) : ClaimIs o ws t ∧ t.escrow = { x.escrow with isOpen := false } := by
  obtain ⟨h1, h2⟩ := ht .claim (by simp)
  exact ⟨⟨h1.trans h.claim.1, h2.trans h.claim.2⟩, (ht .escrow (by simp)).trans h.escrow⟩

theorem handOn_nobody (x : State) (hq : Quiet x) (h : x.escrow.stack = []) (hw : x.claim.waiting = []) :
    HandedOn .none [] [.claim, .escrow] x (freeClaim x) := by
  rw [freeClaim_nobody x h hw]
  exact ⟨quiet_claimed _ _ x hq, rfl, claimed_kept _ _ x, ⟨rfl, rfl⟩, rfl, tells_of_ports _ rfl⟩

theorem handOn_claim (x : State) (p : Port) (rest : List WaitEntry) (hq : Quiet x) (h : x.escrow.stack = [])
    (hw : x.claim.waiting = .claim p :: rest) :
    HandedOn (ownerOf p) rest [.claim, .escrow] x (freeClaim x) ∧ Told p (.grant (ownerOf p)) (freeClaim x) := by
  rw [freeClaim_claim x p rest h hw]
  refine ⟨⟨quiet_raise _ _ _ (quiet_claimed _ _ x hq), by simp [State.claimed], ?_, by simp [ClaimIs, State.claimed], ?_, ?_⟩,
    raise_told _ _ _⟩
  · exact (claimed_kept _ _ x).trans ((raise_kept _ _ _).mono (by simp))
  · simp [State.claimed]
  · exact (tells_of_ports (t := x.claimed _ _) _ rfl).trans (tells_raise _ _ _ _ (by simp [Notice.kind]))

/-- A dispense at the head of the list is granted: what that does to it is measured from s, which differs from x in the notices on their
way alone. -/
theorem handOn_delayed (s x : State) (w : Teller) (rest : List WaitEntry) (hq : Quiet s) (hx : x = { s with ports := x.ports })
    (h : x.escrow.stack = []) (hw : x.claim.waiting = .delayed w :: rest) (hs : (s.dispense w).state = .queued) :
    HandedOn (ownerOf w.port) rest [.claim, .escrow, .dispenses, .path, .position, .journal] x (freeClaim x) ∧
      ∀ t, KeptBut [] (freeClaim x) t → GrantGoesOn w s t := by
  rw [freeClaim_delayed x w rest h hw]
  have hmade := grantDispense_made w s (x.claimed (ownerOf w.port) rest) hq (by rw [hs]; rfl)
    (by rw [State.claimed]; rw [hx]) (by rw [State.claimed]; rw [hx])
  refine ⟨⟨hmade.quiet, hmade.lines, ?_, hmade.kept .claim (by simp), hmade.kept .escrow (by simp), ?_⟩, hmade.goesOn⟩
  · exact ((claimed_kept _ _ x).mono (by simp)).trans (hmade.kept.mono (by simp))
  · exact (tells_of_ports (t := x.claimed _ _) _ rfl).trans (hmade.tells.mono (by simp))

/-! ## RELEASE (R52) -/

theorem release_hands_on (f : Frame) (s : State) (o : Owner) (ws : List WaitEntry) (changed : List Block) (h : Taken .release f s)
    (ho : releaseOwner f (reached .release f s) =
      ok (.owner (freeClaim (reached .release f s)).claim.owner) (freeClaim (reached .release f s)))
    (hand : HandedOn o ws changed (reached .release f s) (freeClaim (reached .release f s))) (hc : .startUp ∉ changed)
    (effect : State → Prop)
    (hx : ∀ t, KeptBut [] (freeClaim (reached .release f s)) t →
      (∀ p n, Told p n (freeClaim (reached .release f s)) → n.kind ≠ .alarmChange → Told p n t) → effect t) :
    Replies (.release f) .release f .ok (.owner o) changed s (fun t =>
      ClaimIs o ws t ∧ t.escrow = { s.escrow with isOpen := false } ∧ effect t) := by
  obtain ⟨howner, -⟩ := hand.claim
  rw [howner] at ho
  refine replies_plain _ .release f (releaseOwner f) _ _ _ s _ _ rfl h rfl ho hand.quiet hand.lines hand.kept ?_
    fun t ht hn => ?_
  · exact (hand.kept .startUp hc).trans (reached_keeps _ f s h).1
  · obtain ⟨hclaim, hesc⟩ := hand.shown ht
    refine ⟨hclaim, ?_, hx t ht hn⟩
    rw [hesc, show (reached .release f s).escrow = s.escrow by rw [reached_ports .release f s h rfl]]

theorem release_withdraws (f : Frame) (s : State) (h : Taken .release f s)
    (ho : releaseOwner f (reached .release f s) = ok .withdrawn (leaveWaiting (.claim f.port) (reached .release f s))) :
    Replies (.release f) .release f .ok .withdrawn [.claim] s (fun t =>
      ClaimIs s.claim.owner (s.claim.waiting.filter (fun e => e ≠ .claim f.port)) t) := by
  refine replies_plain _ .release f (releaseOwner f) _ _ _ s _ _ rfl h rfl ho ?_ (by simp) ?_ ?_ fun t ht _ => ?_
  · exact quiet_of_eq _ _ (reached_quiet _ f s h) (by simp) (by simp) (by simp)
  · intro b hb
    cases b
    case claim => simp at hb
    all_goals simp [Kept]
  · simpa using (reached_keeps .release f s h).1
  · obtain ⟨h1, h2⟩ := ht .claim (by simp)
    simp only [leaveWaiting, reached_claim .release f s h rfl] at h1 h2
    refine ⟨h1, ?_⟩
    rw [h2]
    simp only [bne, beq_eq_decide, ne_eq, decide_not]

/-- RELEASE is decided by the claim, the escrow and the dispenses, whatever notices are on their way. -/
theorem releaseOwner_of (f : Frame) (s x : State) (hx : x = { s with ports := x.ports }) :
    releaseOwner f x =
      if !s.claim.owner.ownedBy f.port then
        if s.waitsForModule f.port then refuse .busy x
        else if .claim f.port ∈ s.claim.waiting then ok .withdrawn (leaveWaiting (.claim f.port) x)
        else refuse .notClaimed x
      else if s.opInFlight f.port ∨ s.waitsForModule f.port then refuse .busy x
      else if s.escrow.stack ≠ [] then refuse .escrowNotEmpty x
      else ok (.owner (freeClaim x).claim.owner) (freeClaim x) := by
  have hwaits : x.waitsForModule f.port = s.waitsForModule f.port := by rw [hx]; rfl
  have hflight : x.opInFlight f.port = s.opInFlight f.port := by rw [hx]; rfl
  rw [releaseOwner, hwaits, hflight, show x.claim = s.claim by rw [hx], show x.escrow = s.escrow by rw [hx]]

theorem release_settled (f : Frame) (s : State) (h : Taken .release f s) :
    if s.claim.owner.ownedBy f.port = false then
      if s.waitsForModule f.port then Refuses (.release f) .release f .busy .none s
      else if .claim f.port ∈ s.claim.waiting then
        Replies (.release f) .release f .ok .withdrawn [.claim] s (fun t =>
          ClaimIs s.claim.owner (s.claim.waiting.filter (fun e => e ≠ .claim f.port)) t)
      else Refuses (.release f) .release f .notClaimed .none s
    else if s.opInFlight f.port ∨ s.waitsForModule f.port then Refuses (.release f) .release f .busy .none s
    else if s.escrow.stack ≠ [] then Refuses (.release f) .release f .escrowNotEmpty .none s
    else
      (s.claim.waiting = [] →
        Replies (.release f) .release f .ok (.owner .none) [.claim, .escrow] s (fun t =>
          ClaimIs .none [] t ∧ t.escrow = { s.escrow with isOpen := false })) ∧
      (∀ (p : Port) (rest : List WaitEntry), s.claim.waiting = .claim p :: rest →
        Replies (.release f) .release f .ok (.owner (ownerOf p)) [.claim, .escrow] s (fun t =>
          ClaimIs (ownerOf p) rest t ∧ t.escrow = { s.escrow with isOpen := false } ∧ Told p (.grant (ownerOf p)) t)) ∧
      (∀ (w : Teller) (rest : List WaitEntry), s.claim.waiting = .delayed w :: rest → (s.dispense w).state = .queued →
        Replies (.release f) .release f .ok (.owner (ownerOf w.port))
          [.claim, .escrow, .dispenses, .path, .position, .journal] s (fun t =>
            ClaimIs (ownerOf w.port) rest t ∧ t.escrow = { s.escrow with isOpen := false } ∧ GrantGoesOn w s t)) := by
  have hr := reached_ports .release f s h rfl
  have hq := reached_quiet .release f s h
  have hsq : Quiet s := h.2.2.2.2.1
  have howner := releaseOwner_of f s _ hr
  have hclaim : (reached .release f s).claim = s.claim := by rw [hr]
  have hstack : (reached .release f s).escrow = s.escrow := by rw [hr]
  have refused (why : Reason) (ho : releaseOwner f (reached .release f s) = refuse why (reached .release f s)) :
      Refuses (.release f) .release f why .none s := refuses_of _ .release f (fun _ => releaseOwner f) why _ s rfl h rfl ho
  split
  next hown =>
    rw [hown, if_pos (by rfl)] at howner
    split
    next h2 => exact refused _ (by rw [howner, if_pos h2])
    next h2 =>
    rw [if_neg h2] at howner
    split
    next h3 => exact release_withdraws f s h (by rw [howner, if_pos h3])
    next h3 => exact refused _ (by rw [howner, if_neg h3])
  next hown =>
  rw [Bool.not_eq_false] at hown
  rw [hown, if_neg (by simp)] at howner
  split
  next h2 => exact refused _ (by rw [howner, if_pos h2])
  next h2 =>
  rw [if_neg h2] at howner
  split
  next h3 => exact refused _ (by rw [howner, if_pos h3])
  next h3 =>
  rw [if_neg h3] at howner
  rw [not_not, ← hstack] at h3
  rw [← hclaim]
  refine ⟨fun hw => ?_, fun p rest hw => ?_, fun w rest hw hs => ?_⟩
  · obtain ⟨t, he, ha, hk, h1, h2, -⟩ := release_hands_on f s _ _ _ h howner (handOn_nobody _ hq h3 hw) (by simp) (fun _ => True)
      fun _ _ _ => trivial
    exact ⟨t, he, ha, hk, h1, h2⟩
  · obtain ⟨hand, htold⟩ := handOn_claim _ p rest hq h3 hw
    exact release_hands_on f s _ _ _ h howner hand (by simp) _ fun t _ hn => hn _ _ htold (by simp [Notice.kind])
  · obtain ⟨hand, hgo⟩ := handOn_delayed s _ w rest hsq hr h3 hw hs
    exact release_hands_on f s _ _ _ h howner hand (by simp) _ fun t ht _ => hgo t ht

/-! ## The idle expiry (R54) -/

theorem idleExpiry_hands_on (s : State) (p : Port) (o : Owner) (ws : List WaitEntry) (changed : List Block)
    (hrun : s.running = true) (he : exec .claimIdleExpiry s = done (freeClaim (raise p (.claimEnded .idle) s)))
    (hand : HandedOn o ws changed (raise p (.claimEnded .idle) s) (freeClaim (raise p (.claimEnded .idle) s)))
    (hc : .startUp ∉ changed) (effect : State → Prop)
    (hx : ∀ t, KeptBut [] (freeClaim (raise p (.claimEnded .idle) s)) t →
      (∀ p' n, Told p' n (freeClaim (raise p (.claimEnded .idle) s)) → n.kind ≠ .alarmChange → Told p' n t) → effect t) :
    Does .claimIdleExpiry changed s (fun t =>
      ClaimIs o ws t ∧ t.escrow = { s.escrow with isOpen := false } ∧ Told p (.claimEnded .idle) t ∧ effect t) := by
  refine does_done _ _ s _ _ he hand.quiet ?_ (((raise_kept _ _ _).mono (by simp)).trans hand.kept) fun t ht hn => ?_
  · rw [State.powered, hand.kept .startUp hc]
    simpa [State.powered] using powered_of_running s hrun
  · obtain ⟨hclaim, hesc⟩ := hand.shown ht
    refine ⟨hclaim, by simpa using hesc, hn _ _ (hand.tells _ _ (raise_told _ _ _) (by simp [Notice.kind])) (by simp [Notice.kind]),
      hx t ht hn⟩

theorem idleExpiry_holds (s : State) (p : Port) (hrun : s.running = true) (hq : Quiet s) (hidle : s.claim.idle.isSome)
    (hp : s.claim.owner.port? = some p) (hstack : s.escrow.stack ≠ []) (hteller : p.teller?.isSome) :
    Does .claimIdleExpiry [.claim] s (fun t =>
      ClaimIs .hold (s.claim.waiting.filter (fun e => e ≠ .claim .s)) t ∧ Told p (.claimEnded .hold) t ∧
        Told .s (.grant .hold) t) := by
  generalize hz : leaveWaiting (.claim .s) (raise .s (.grant .hold) (raise p (.claimEnded .hold) (setOwner .hold s))) = z
  have he : exec .claimIdleExpiry s = done z := by
    show done (event (fun s => if s.claim.idle.isSome then idleExpired s else s) s) = _
    rw [event_running _ _ hrun, if_pos hidle, idleExpired, hp]
    simp only [hstack, hteller, if_true, if_false, hz]
  have hset : setOwner .hold s = { s with claim := ⟨.hold, s.claim.waiting, none⟩ } := by
    unfold setOwner
    rw [if_neg fun hc => hstack hc.2.1]
  rw [hset] at hz
  refine does_done _ _ s z _ he ?_ ?_ ?_ fun t ht hn => ⟨?_, ?_, ?_⟩
  · exact quiet_of_eq s z hq (by rw [← hz]; simp) (by rw [← hz]; simp) (by rw [← hz]; simp)
  · rw [State.powered, show z.startUp = s.startUp by rw [← hz]; simp]
    exact powered_of_running s hrun
  · intro b hb
    cases b
    case claim => simp at hb
    case ports => exact kept_ports_of_lines _ _ (by rw [← hz]; simp)
    all_goals (rw [← hz]; simp [Kept])
  · obtain ⟨h1, h2⟩ := ht .claim (by simp)
    refine ⟨by rw [h1, ← hz]; simp [leaveWaiting], ?_⟩
    rw [h2, ← hz]
    simp [leaveWaiting, bne, beq_eq_decide]
  · refine hn _ _ ?_ (by simp [Notice.kind])
    rw [← hz]
    exact raise_told_other p .s (.claimEnded .hold) (.grant .hold) _ (raise_told p _ _) (.inr (by decide))
  · refine hn _ _ ?_ (by simp [Notice.kind])
    rw [← hz]
    exact raise_told .s (.grant .hold) _

/-- Settles O15. -/
theorem releaseAndIdleExpiryHandOn : Obligations.ReleaseAndIdleExpiryHandOn := by
  unfold Obligations.ReleaseAndIdleExpiryHandOn
  refine ⟨release_settled, fun s p hrun hq hidle hp => ?_⟩
  have he (hstack : s.escrow.stack = []) :
      exec .claimIdleExpiry s = done (freeClaim (raise p (.claimEnded .idle) s)) := by
    show done (event (fun s => if s.claim.idle.isSome then idleExpired s else s) s) = _
    rw [event_running _ _ hrun, if_pos hidle, idleExpired, hp]
    simp only [hstack, if_true]
  have hxq := quiet_raise p (.claimEnded .idle) s hq
  refine ⟨fun hstack hw => ?_, fun q rest hstack hw => ?_, fun w rest hstack hw hs => ?_,
    fun hstack hteller => idleExpiry_holds s p hrun hq hidle hp hstack hteller⟩
  · have hand := handOn_nobody (raise p (.claimEnded .idle) s) hxq (by simpa using hstack) (by simpa using hw)
    obtain ⟨t, ht, hk, h1, h2, h3, -⟩ := idleExpiry_hands_on s p _ _ _ hrun (he hstack) hand (by simp) (fun _ => True)
      fun _ _ _ => trivial
    exact ⟨t, ht, hk, h1, h2, h3⟩
  · obtain ⟨hand, htold⟩ := handOn_claim (raise p (.claimEnded .idle) s) q rest hxq (by simpa using hstack) (by simpa using hw)
    exact idleExpiry_hands_on s p _ _ _ hrun (he hstack) hand (by simp) _ fun t _ hn => hn _ _ htold (by simp [Notice.kind])
  · obtain ⟨hand, hgo⟩ := handOn_delayed s (raise p (.claimEnded .idle) s) w rest hq rfl (by simpa using hstack) (by simpa using hw) hs
    exact idleExpiry_hands_on s p _ _ _ hrun (he hstack) hand (by simp) _ fun t ht _ => hgo t ht

end Sys2Proof.Machine
end

section
/-! A note seen in time, and a note not seen in time (O24). -/
namespace Sys2Proof.Machine

/-! ## A note seen in time (R62) -/

theorem noteArrived_of (s : State) (a : Arrival) (hrun : s.running = true) :
    exec (.noteSensorArrival a) s = done (noteArrived a s) := by
  show done (event (noteArrived a) s) = _
  rw [event_running _ _ hrun]

/-- Other timers leave what waits as it was. -/
theorem quiet_timers (s : State) (l : List NoteTimer) (h : Quiet s) : Quiet { s with path := { s.path with timers := l } } :=
  quiet_of_port s _ h rfl rfl rfl rfl

/-- An arrival that leaves the timers given, and nothing else. -/
theorem arrival_times (a : Arrival) (l : List NoteTimer) (s : State) (hrun : s.running = true) (hq : Quiet s)
    (h : noteArrived a s = { s with path := { s.path with timers := l } }) :
    Does (.noteSensorArrival a) [.path] s (fun t => t.path = { s.path with timers := l }) := by
  have he := noteArrived_of s a hrun
  rw [h] at he
  refine does_done _ _ s _ _ he (quiet_timers s l hq) (powered_of_running s hrun) ?_ fun t ht _ => ht .path (by simp)
  intro b hb
  cases b
  case path => simp at hb
  all_goals simp [Kept]

/-- A report that finds no note to move. -/
theorem moveTimer_none (test : NoteTimer → Bool) (at_ : Sensor) (l : List NoteTimer) (h : ∀ n ∈ l, test n = false) :
    moveTimer test at_ l = l := by
  induction l with
  | nil => rfl
  | cons n ns ih => simp [moveTimer, h n (by simp), ih (fun x hx => h x (by simp [hx]))]

theorem wayTimers_unseen (q : NotePath) (x : Sensor) (i : Fin 12) (h : ∀ n ∈ q.timers, (n.lastSeen == x) = false) :
    q.wayTimers x i = q.timers := by
  have hfind : q.timers.find? (fun n => n.lastSeen == x) = none := List.find?_eq_none.mpr fun n hn => by simp [h n hn]
  unfold NotePath.wayTimers
  simp only [hfind]
  rw [moveTimer_none _ _ _ h]
  cases q.draw <;> simp

/-- An arrival from a sensor that no note was last seen at is ignored (R62). -/
theorem noteArrived_unseen (x y : Sensor) (s : State) (h : ∀ n ∈ s.path.timers, n.lastSeen ≠ x) : noteArrived ⟨x, y⟩ s = s := by
  have hseen : ∀ n ∈ s.path.timers, (n.lastSeen == x) = false := fun n hn => by simpa using h n hn
  unfold noteArrived
  cases y with
  | pocket t =>
    simp only [State.onPath]
    rw [stopTimer_none _ _ fun n hn => by simp [hseen n hn]]
  | rejectBin =>
    simp only [State.onPath]
    rw [stopTimer_none _ _ fun n hn => by simp [hseen n hn]]
  | way i =>
    simp only [State.onPath]
    rw [wayTimers_unseen _ _ _ hseen]
  | _ => rfl

/-- A note that reaches a sensor on the way is timed from there, and the draw's next note from its source (R62). -/
theorem wayTimers_first (q : NotePath) (before after : List NoteTimer) (n : NoteTimer) (i : Fin 12)
    (ht : q.timers = before ++ n :: after) (hb : ∀ x ∈ before, x.lastSeen ≠ n.lastSeen) :
    ((∀ d : Draw, q.draw = some d → n ≠ d.timer) →
      q.wayTimers n.lastSeen i = before ++ { n with lastSeen := .way i } :: after) ∧
    ∀ d : Draw, q.draw = some d → n = d.timer →
      q.wayTimers n.lastSeen i = before ++ { n with lastSeen := .way i } :: after ++ [n] := by
  have hbefore : ∀ x ∈ before, (x.lastSeen == n.lastSeen) = false := fun x hx => by simpa using hb x hx
  have hfind : q.timers.find? (fun x => x.lastSeen == n.lastSeen) = some n := by
    rw [ht, List.find?_append, List.find?_eq_none.mpr fun x hx => by simp [hbefore x hx]]
    simp
  unfold NotePath.wayTimers
  simp only [hfind]
  rw [ht, moveTimer_first _ _ before after n hbefore (by simp)]
  refine ⟨fun hd => ?_, fun d hd hn => ?_⟩
  · cases hq : q.draw with
    | none => simp
    | some d => simp [hd d hq]
  · rw [hd, hn]
    simp

theorem notes_arrive (s : State) (hrun : s.running = true) (hq : Quiet s) :
    (∀ (w : Teller) (before after : List NoteTimer) (x : Sensor), s.path.timers = before ++ ⟨.dispense w, x, true⟩ :: after →
      (∀ n ∈ before, n.owner ≠ .dispense w ∨ n.lastSeen ≠ x ∨ n.checked = false) →
      Does (.noteSensorArrival ⟨x, .pocket w⟩) [.path] s (fun t =>
        t.path = { s.path with timers := before ++ after })) ∧
    (∀ (before after : List NoteTimer) (o : MoveOwner) (x : Sensor), s.path.timers = before ++ ⟨o, x, true⟩ :: after →
      (∀ n ∈ before, n.lastSeen ≠ x ∨ n.checked = false) →
      Does (.noteSensorArrival ⟨x, .rejectBin⟩) [.path] s (fun t => t.path = { s.path with timers := before ++ after })) ∧
    (∀ x y : Sensor, (∀ n ∈ s.path.timers, n.lastSeen ≠ x) → Does (.noteSensorArrival ⟨x, y⟩) [] s (fun _ => True)) ∧
    ∀ (before after : List NoteTimer) (n : NoteTimer) (i : Fin 12), s.path.timers = before ++ n :: after →
      (∀ x ∈ before, x.lastSeen ≠ n.lastSeen) →
      Does (.noteSensorArrival ⟨n.lastSeen, .way i⟩) [.path] s (fun t =>
        ((∀ d : Draw, s.path.draw = some d → n ≠ ⟨d.cause.owner, d.source.sensor, false⟩) →
          t.path = { s.path with timers := before ++ { n with lastSeen := .way i } :: after }) ∧
        ∀ d : Draw, s.path.draw = some d → n = ⟨d.cause.owner, d.source.sensor, false⟩ →
          t.path = { s.path with timers := before ++ { n with lastSeen := .way i } :: after ++ [n] }) := by
  refine ⟨fun w before after x ht hb => ?_, fun before after o x ht hb => ?_, fun x y hx => ?_, fun before after n i ht hb => ?_⟩
  · refine arrival_times _ _ s hrun hq ?_
    simp only [noteArrived, State.onPath]
    rw [ht, stopTimer_first _ before after _ (fun n hn => ?_) (by simp)]
    rcases hb n hn with e | e | e <;> simp [e]
  · refine arrival_times _ _ s hrun hq ?_
    simp only [noteArrived, State.onPath]
    rw [ht, stopTimer_first _ before after _ (fun n hn => ?_) (by simp)]
    rcases hb n hn with e | e <;> simp [e]
  · refine does_nothing _ s (powered_of_running s hrun) hq ?_
    rw [noteArrived_of s _ hrun, noteArrived_unseen x y s hx]
  · obtain ⟨hother, hdraw⟩ := wayTimers_first s.path before after n i ht hb
    obtain ⟨t, he, hk, hp⟩ := arrival_times ⟨n.lastSeen, .way i⟩ (s.path.wayTimers n.lastSeen i) s hrun hq rfl
    exact ⟨t, he, hk, fun hd => by rw [hp, hother hd], fun d hd hn => by rw [hp, hdraw d hd hn]⟩

/-! ## The operation a jam ends (R62) -/

theorem movesOn_iff (o : MoveOwner) (s : State) : s.movesOn o = true ↔ GoesOn o s := by
  cases o with
  | dispense w =>
    simp only [State.movesOn, GoesOn, State.dispenseInFlight, State.dispense, Bool.and_eq_true, Bool.not_eq_true']
    cases (s.dispenses.get w).state <;> simp [DispenseState.inFlight]
  | escrow =>
    simp only [State.movesOn, GoesOn]
    rcases s.escrow.op with _ | (o | o | o) <;> simp [Option.isNone_iff_eq_none]
  | purge =>
    simp only [State.movesOn, GoesOn]
    cases s.path.purge <;> simp [Option.isNone_iff_eq_none]

theorem carriesFor_iff (o : MoveOwner) (s : State) : s.carriesFor o = true ↔ Carries o s := by
  unfold State.carriesFor Carries
  rw [Bool.and_eq_true, movesOn_iff]
  cases o with
  | dispense w => cases s.path.draw <;> simp
  | escrow => simp
  | purge => simp

/-- A note whose operation goes on is that operation's. -/
theorem jammedOp_own (o : MoveOwner) (s : State) (h : GoesOn o s) : s.jammedOp o = some o := by
  rw [State.jammedOp, if_pos ((movesOn_iff o s).mpr h)]

/-- A note whose operation is over jams the one that the transport works for. -/
theorem jammedOp_other (n o : MoveOwner) (s : State) (hn : ¬GoesOn n s) (ho : Carries o s) (hone : ∀ y, Carries y s → y = o) :
    s.jammedOp n = some o := by
  rw [State.jammedOp, if_neg (mt (movesOn_iff n s).mp hn)]
  have hsome : ([.purge, .escrow, .dispense .a, .dispense .b].find? s.carriesFor).isSome = true := by
    rw [List.find?_isSome]
    exact ⟨o, by rcases o with (_ | _) | _ | _ <;> simp, (carriesFor_iff o s).mpr ho⟩
  obtain ⟨y, hy⟩ := Option.isSome_iff_exists.mp hsome
  rw [hy, hone y ((carriesFor_iff y s).mp (List.find?_some hy))]

theorem jammedOp_none (n : MoveOwner) (s : State) (hn : ¬GoesOn n s) (hnone : ∀ y, ¬Carries y s) : s.jammedOp n = none := by
  rw [State.jammedOp, if_neg (mt (movesOn_iff n s).mp hn), List.find?_eq_none]
  exact fun y _ hy => hnone y ((carriesFor_iff y s).mp hy)

theorem noteJammed_of (x : Sensor) (s : State) (hrun : s.running = true) : exec (.noteJam x) s = done (noteJammed x s) := by
  show done (event (noteJammed x) s) = _
  rw [event_running _ _ hrun]

/-! ## A jam (R62, R104, R106) -/

/-- The note path of a jammed module: nothing moves, and no note is timed. -/
def NotePath.stopped (q : NotePath) : NotePath := { q with state := .jammed, pick := none, draw := none, timers := [] }

/-- A state with a notice of a jam on its way. -/
theorem told_jam (fault : ModuleFault) (s z t : State) (hz : z.ports = (raise .s (.moduleFault fault) s).ports)
    (hn : ∀ p n, Told p n z → n.kind ≠ .alarmChange → Told p n t) : Told .s (.moduleFault fault) t :=
  hn _ _ (told_of_ports _ _ (raise .s (.moduleFault fault) s) _ (raise_told _ _ _) hz) (by simp [Notice.kind])

theorem jam_dispense (w : Teller) (x : Sensor) (s : State) (hrun : s.running = true) (hrest : OtherAtRest w s)
    (he : exec (.noteJam x) s = done (jam (.dispense w) (.jam (s.movePort (.dispense w)) x) .jammed s)) :
    Does (.noteJam x) [.path, .dispenses, .position, .journal] s (fun t =>
      t.path = s.path.stopped ∧ DispenseJammed w s.position s t ∧ Told .s (.moduleFault (.jam (some w.port) x)) t) := by
  let z : State := { s with
    dispenses := s.dispenses.set w Dispense.idle
    path := s.path.stopped
    position :=
      { s.position with generation := if (s.dispense w).changed then s.position.generation + 1 else s.position.generation }
    journal := { s.journal with reservations := s.jamMarked w }
    ports := (raise .s (.moduleFault (.jam (some w.port) x)) s).ports }
  have hz : jam (.dispense w) (.jam (s.movePort (.dispense w)) x) .jammed s = z := by
    unfold jam
    simp only [jamDispense_eq]
    rfl
  rw [hz] at he
  refine does_done _ _ s z _ he (quiet_of_ended w s z hrest rfl) (powered_of_running s hrun) ?_ fun t hk hn => ⟨?_, ⟨?_, ?_, ?_, ?_⟩, ?_⟩
  · intro b hb
    cases b
    case path | dispenses | position | journal => simp at hb
    case ports => exact kept_ports_of_lines _ _ (raise_lines _ _ _)
    all_goals simp [Kept, z]
  · exact hk .path (by simp)
  · exact hk .dispenses (by simp)
  · exact hk .position (by simp)
  · rw [show t.journal = _ from hk .journal (by simp)]
  · intro before after r h1 h2 h3 h4 h5
    rw [show t.journal = _ from hk .journal (by simp)]
    exact jamMarked_first w s before after r h1 h2 h3 h4 h5
  · exact told_jam _ s z t rfl hn

/-- The reservation of an operation of the escrow that a jam marks (R62, R161). -/
def Journal.jamMarked (j : Journal) (p : Port) (k : OpKind) : Journal :=
  { j with reservations := markFirst (fun r => r.port == p && r.kind == k && !r.jammed) {} 0 j.reservations }

theorem jamMarked_marked (p : Port) (k : OpKind) (s t : State) (h : t.journal = s.journal.jamMarked p k) :
    ReservationMarked p k (fun r => { r with marks := {}, unpaid := 0 }) s t := by
  rw [ReservationMarked, h]
  refine ⟨rfl, fun before after r hr hp hk hj hb => ?_⟩
  simp only [Journal.jamMarked, hr]
  refine markFirst_first _ _ _ before after r (fun x hx => ?_) (by simp [hp, hk, hj])
  rcases hb x hx with e | e | e <;> simp [e]

/-- The escrow once a jam has ended the INSERT in flight (R104). -/
def Escrow.insertJammed (e : Escrow) : Escrow :=
  match e.stack with
  | [] => { e with op := none }
  | b :: beneath =>
    if 0 < b.notes.total then
      { e with stack := { b with truncated := true } :: beneath, verdict := .none, op := none }
    else { e with stack := beneath, op := none }

/-- What a jam makes of the escrow and the position. -/
def State.escrowCut (s : State) (p : Port) (k : OpKind) (e : Escrow) (q : Position) : State :=
  { s with
    path := { s.path with timers := s.path.timersBut .escrow }, escrow := e, position := q, journal := s.journal.jamMarked p k }

theorem stopTimers_eq (o : MoveOwner) (s : State) :
    stopTimers o s = { s with path := { s.path with timers := s.path.timersBut o } } := by
  unfold stopTimers
  simp only [State.onPath, timersBut_eq]

theorem jamEscrow_insert (o : InsertOp) (s : State) (h : s.escrow.op = some (.insert o)) :
    jamEscrow s = s.escrowCut o.port.port .insert s.escrow.insertJammed s.position := by
  unfold jamEscrow
  simp only [stopTimers_eq, h]
  rfl

theorem jamEscrow_give (o : ReturnOp) (s : State) (h : s.escrow.op = some (.give o)) :
    jamEscrow s = s.escrowCut o.port .return_ { s.escrow with op := none, verdict := .none } s.position := by
  unfold jamEscrow
  simp only [stopTimers_eq, h]
  rfl

theorem jamEscrow_commit (o : CommitOp) (s : State) (h : s.escrow.op = some (.commit o)) :
    jamEscrow s =
      s.escrowCut o.port .commit { s.escrow with op := none, verdict := if o.reduced then .none else s.escrow.verdict }
        { s.position with
          generation :=
            if 0 < s.escrow.tally.perCassette.total then s.position.generation + 1 else s.position.generation } := by
  unfold jamEscrow
  simp only [stopTimers_eq, h]
  by_cases ht : 0 < s.escrow.tally.perCassette.total
  · simp only [stepGeneration, markJammed, State.onJournal, ht, decide_true, if_true]
    rfl
  · simp only [stepGeneration, markJammed, State.onJournal, ht, decide_false, if_false]
    rfl

/-- A note of the escrow's operation is not seen in time: the operation of the port and kind ends JAMMED, the escrow and the position as
given. -/
theorem jam_escrow (p : Port) (k : OpKind) (e : Escrow) (q : Position) (x : Sensor) (s : State) (changed : List Block)
    (hrun : s.running = true) (ha : OtherAtRest .a s) (hb : OtherAtRest .b s)
    (he : exec (.noteJam x) s = done (jam .escrow (.jam (s.movePort .escrow) x) .jammed s))
    (hp : s.movePort .escrow = some p)
    (hcut : ∀ y : State, y.escrow = s.escrow → y.position = s.position → jamEscrow y = y.escrowCut p k e q)
    (hc : ∀ b ∈ ([.path, .escrow, .journal] : List Block), b ∈ changed) (hq : .position ∉ changed → q = s.position) :
    Does (.noteJam x) changed s (fun t =>
      t.path = s.path.stopped ∧ ReservationMarked p k (fun r => { r with marks := {}, unpaid := 0 }) s t ∧ t.escrow = e ∧
        t.position = q ∧ Told .s (.moduleFault (.jam (some p) x)) t) := by
  let z : State := { s with
    path := s.path.stopped, escrow := e, position := q, journal := s.journal.jamMarked p k
    ports := (raise .s (.moduleFault (.jam (some p) x)) s).ports }
  have hz : jam .escrow (.jam (s.movePort .escrow) x) .jammed s = z := by
    unfold jam
    simp only [hp]
    rw [hcut _ (by simp) (by simp)]
    rfl
  rw [hz] at he
  refine does_done _ _ s z _ he (quiet_of_rest s z ha hb rfl) (powered_of_running s hrun) ?_ fun t hk hn => ⟨?_, ?_, ?_, ?_, ?_⟩
  · intro b hb
    cases b
    case path => exact absurd (hc .path (by simp)) hb
    case escrow => exact absurd (hc .escrow (by simp)) hb
    case journal => exact absurd (hc .journal (by simp)) hb
    case position => exact hq hb
    case ports => exact kept_ports_of_lines _ _ (raise_lines _ _ _)
    all_goals simp [Kept, z]
  · exact hk .path (by simp)
  · exact jamMarked_marked p k s t (hk .journal (by simp))
  · exact hk .escrow (by simp)
  · exact hk .position (by simp)
  · exact told_jam _ s z t rfl hn

theorem jam_purge (p : Purge) (k : Nat) (x : Sensor) (s : State) (hrun : s.running = true) (hp : s.path.purge = some p)
    (hroom : PurgeRoom p k s) (ha : OtherAtRest .a s) (hb : OtherAtRest .b s)
    (he : exec (.noteJam x) s = done (jam .purge (.jam (s.movePort .purge) x) .jammed s)) :
    Does (.noteJam x) [.path, .position, .escrow, .journal] s (fun t =>
      PurgeEnded p 3 .jammed k s.position { s with path := { s.path with pick := none, timers := [] } } t ∧
        Told .s (.moduleFault (.jam (if p.startUp then none else some .s) x)) t) := by
  let fault : ModuleFault := .jam (if p.startUp then none else some .s) x
  let y : State := { s with
    path := { s.path with pick := none, draw := none, timers := [] }, ports := (raise .s (.moduleFault fault) s).ports }
  have hy : jam .purge (.jam (s.movePort .purge) x) .jammed s = endPurge .jammed y := by
    unfold jam State.movePort
    simp only [hp]
    rfl
  have hends := endPurge_ends p .jammed k y hp (hroom.congr rfl rfl)
  have htells := endPurge_tells .jammed y (by decide) (by decide)
  have htold : Told .s (.moduleFault fault) y := told_of_ports _ _ (raise .s (.moduleFault fault) s) _ (raise_told _ _ _) rfl
  rw [hy] at he
  generalize endPurge .jammed y = z at he hends htells
  have hyk : KeptBut [.path, .position, .escrow, .journal] s y := by
    intro b hb
    cases b
    case path | position | escrow | journal => simp at hb
    case ports => exact kept_ports_of_lines _ _ (raise_lines _ _ _)
    all_goals simp [Kept, y]
  have hyz : KeptBut [.path, .position, .escrow, .journal] y z :=
    keptBut_without_ports hends.kept (kept_ports_of_lines _ _ hends.lines) (by simp)
  have hk := hyk.trans hyz
  refine does_done _ _ s z _ he (quiet_of_rest s z ha hb (hk .dispenses (by simp))) ?_ hk fun t ht hn => ⟨?_, ?_⟩
  · rw [State.powered, show z.startUp = s.startUp from hk .startUp (by simp)]
    exact powered_of_running s hrun
  · exact hends.ended.transfer rfl rfl rfl rfl rfl rfl rfl rfl (ht .path (by simp)) (ht .escrow (by simp)) (ht .position (by simp))
      (ht .journal (by simp)) fun p m hm hne => hn p m hm (by simpa using hne)
  · exact hn _ _ (htells _ _ htold (by simp [Notice.kind])) (by simp [Notice.kind])

/-- A jam with no operation to end (R62; notes/assumptions/89.md). -/
theorem jam_idle (w : Teller) (x : Sensor) (s : State) (hrun : s.running = true) (ha : OtherAtRest .a s) (hb : OtherAtRest .b s)
    (he : exec (.noteJam x) s = done (jamIdle (.jam (s.movePort (.dispense w)) x) s)) :
    Does (.noteJam x) [.path] s (fun t => t.path = s.path.stopped ∧ Told .s (.moduleFault (.jam (some w.port) x)) t) := by
  let z : State := { s with path := s.path.stopped, ports := (raise .s (.moduleFault (.jam (some w.port) x)) s).ports }
  have hz : jamIdle (.jam (s.movePort (.dispense w)) x) s = z := rfl
  rw [hz] at he
  refine does_done _ _ s z _ he (quiet_of_rest s z ha hb rfl) (powered_of_running s hrun) ?_ fun t hk hn =>
    ⟨hk .path (by simp), told_jam _ s z t rfl hn⟩
  intro b hb
  cases b
  case path => simp at hb
  case ports => exact kept_ports_of_lines _ _ (raise_lines _ _ _)
  all_goals simp [Kept, z]

/-- The end that a jam of an operation's note gives it. -/
def JamEnds (x : Sensor) (s : State) (o : MoveOwner) : Prop :=
  let marked (p : Port) (k : OpKind) (t : State) : Prop := ReservationMarked p k (fun r => { r with marks := {}, unpaid := 0 }) s t
  match o with
  | .dispense w =>
    OtherAtRest w s →
    Does (.noteJam x) [.path, .dispenses, .position, .journal] s (fun t =>
      t.path = s.path.stopped ∧ DispenseJammed w s.position s t ∧ Told .s (.moduleFault (.jam (some w.port) x)) t)
  | .escrow =>
    OtherAtRest .a s → OtherAtRest .b s →
    match s.escrow.op with
    | none => True
    | some (.insert o) =>
      Does (.noteJam x) [.path, .escrow, .journal] s (fun t =>
        t.path = s.path.stopped ∧ marked o.port.port .insert t ∧
          (∀ (b : Bundle) (beneath : List Bundle), s.escrow.stack = b :: beneath →
            t.escrow =
              { s.escrow with
                stack := if 0 < b.notes.total then { b with truncated := true } :: beneath else beneath
                verdict := if 0 < b.notes.total then .none else s.escrow.verdict
                op := none }) ∧
          Told .s (.moduleFault (.jam (some o.port.port) x)) t)
    | some (.give o) =>
      Does (.noteJam x) [.path, .escrow, .journal] s (fun t =>
        t.path = s.path.stopped ∧ marked o.port .return_ t ∧
          t.escrow = { s.escrow with op := none, verdict := .none } ∧
          Told .s (.moduleFault (.jam (some o.port) x)) t)
    | some (.commit o) =>
      Does (.noteJam x) [.path, .escrow, .position, .journal] s (fun t =>
        t.path = s.path.stopped ∧ marked o.port .commit t ∧
          t.escrow = { s.escrow with op := none, verdict := if o.reduced then .none else s.escrow.verdict } ∧
          t.position =
            { s.position with
              generation :=
                if 0 < s.escrow.tally.perCassette.total then s.position.generation + 1
                else s.position.generation } ∧
          Told .s (.moduleFault (.jam (some o.port) x)) t)
  | .purge =>
    ∀ (p : Purge) (k : Nat), s.path.purge = some p → PurgeRoom p k s → OtherAtRest .a s → OtherAtRest .b s →
      Does (.noteJam x) [.path, .position, .escrow, .journal] s (fun t =>
        PurgeEnded p 3 .jammed k s.position { s with path := { s.path with pick := none, timers := [] } } t ∧
          Told .s (.moduleFault (.jam (if p.startUp then none else some .s) x)) t)

/-- An insert's bundle keeps its notes with TRUNCATED, or leaves the stack (R104). -/
theorem insertJammed_of (e : Escrow) (b : Bundle) (beneath : List Bundle) (h : e.stack = b :: beneath) :
    e.insertJammed =
      { e with
        stack := if 0 < b.notes.total then { b with truncated := true } :: beneath else beneath
        verdict := if 0 < b.notes.total then .none else e.verdict
        op := none } := by
  unfold Escrow.insertJammed
  simp only [h]
  split <;> rfl

theorem jam_ends (x : Sensor) (s : State) (o : MoveOwner) (hrun : s.running = true)
    (he : exec (.noteJam x) s = done (jam o (.jam (s.movePort o) x) .jammed s)) : JamEnds x s o := by
  cases o with
  | dispense w => exact fun hrest => jam_dispense w x s hrun hrest he
  | purge => exact fun p k hp hroom ha hb => jam_purge p k x s hrun hp hroom ha hb he
  | escrow =>
    intro ha hb
    cases hop : s.escrow.op with
    | none => trivial
    | some op =>
      have hport (q : Port) (h : op.port = q) : s.movePort .escrow = some q := by simp [State.movePort, hop, h]
      cases op with
      | insert o =>
        obtain ⟨t, ht, hk, h1, h2, h3, -, h4⟩ := jam_escrow o.port.port .insert s.escrow.insertJammed s.position x s
          [.path, .escrow, .journal] hrun ha hb he (hport _ rfl)
          (fun y h1 h2 => by rw [jamEscrow_insert o y (by rw [h1, hop]), h1, h2]) (by simp) (fun _ => rfl)
        exact ⟨t, ht, hk, h1, h2, fun b beneath hs => h3.trans (insertJammed_of _ b beneath hs), h4⟩
      | give o =>
        obtain ⟨t, ht, hk, h1, h2, h3, -, h4⟩ := jam_escrow o.port .return_ { s.escrow with op := none, verdict := .none } s.position x s
          [.path, .escrow, .journal] hrun ha hb he (hport _ rfl)
          (fun y h1 h2 => by rw [jamEscrow_give o y (by rw [h1, hop]), h1, h2]) (by simp) (fun _ => rfl)
        exact ⟨t, ht, hk, h1, h2, h3, h4⟩
      | commit o =>
        exact jam_escrow o.port .commit _ _ x s [.path, .escrow, .position, .journal] hrun ha hb he (hport _ rfl)
          (fun y h1 h2 => by rw [jamEscrow_commit o y (by rw [h1, hop]), h1, h2]) (by simp) (fun h => absurd (by simp) h)

/-- Settles O24. -/
theorem notesAreTimed : Obligations.NotesAreTimed := by
  unfold Obligations.NotesAreTimed
  refine ⟨fun s hrun hq => notes_arrive s hrun hq, fun x s hrun hq => ⟨fun hnone => ?_, fun n hfind => ?_⟩⟩
  · refine does_nothing _ s (powered_of_running s hrun) hq ?_
    rw [noteJammed_of x s hrun, noteJammed, List.find?_eq_none.mpr fun n hn => by simpa using hnone n hn]
  · have he := noteJammed_of x s hrun
    unfold noteJammed at he
    simp only [hfind] at he
    have hends (o : MoveOwner) (ho : s.jammedOp n.owner = some o) : JamEnds x s o :=
      jam_ends x s o hrun (by rw [he, ho])
    refine ⟨fun hgo => hends _ (jammedOp_own _ s hgo), fun o hover hcarries hone => hends o (jammedOp_other _ o s hover hcarries hone),
      fun w hw hover hnone ha hb => ?_⟩
    rw [jammedOp_none _ s hover hnone, hw] at he
    exact jam_idle w x s hrun ha hb he

end Sys2Proof.Machine
end

section
/-! The end of start-up (O59): the claim, the slot, the alarm outputs, the record, and the duress marks kept. -/
namespace Sys2Proof.Machine

/-! ## The work of a lock leaves the ports' lines -/

theorem emptyWaiting_lines (ws : List WaitEntry) (s : State) : (emptyWaiting ws s).ports.lines = s.ports.lines := by
  induction ws generalizing s with
  | nil => rfl
  | cons e ws ih =>
    cases e with
    | claim p => rw [emptyWaiting, ih, raise_lines]
    | delayed w => rw [emptyWaiting, ih, (endDispense_within w _ _ _ _ _ _).lines, raise_lines]

theorem giveUpDeferred_within (w : Teller) (s : State) : WithinWindow w s (giveUpDeferred w s) := by
  unfold giveUpDeferred
  split
  · exact endDispense_within w _ _ _ _ _ _
  · exact within_of_same rfl rfl rfl

theorem lockClaim_lines (s : State) : (lockClaim s).ports.lines = s.ports.lines := by
  unfold lockClaim
  simp only []
  split
  · simp only [apply_ite, raise_lines, setOwner_keeps, (giveUpDeferred_within _ _).lines, emptyWaiting_lines, ite_self]
  · simp only [apply_ite, raise_lines, setOwner_keeps, (giveUpDeferred_within _ _).lines, emptyWaiting_lines, ite_self]
  all_goals rw [emptyWaiting_lines]

/-- A return that ends: its record, with the operation then closed. -/
theorem finishReturn_eq (o : ReturnOp) (outcome : ReturnOutcome) (s : State) :
    ∃ (draft : Draft) (done : OpDone),
      let x := stageApplied draft (release o.port .return_ s)
      finishReturn o outcome s = awaitDurable o.port x.1 done (x.2.onEscrow fun e => { e with op := none }) :=
  ⟨_, _, rfl⟩

theorem awaitDurable_endHold (p : Port) (n : Option Nat) (d : OpDone) (s : State) :
    (awaitDurable p n d s).journal.endHold = s.journal.endHold := by
  unfold awaitDurable
  split <;> rfl

theorem finishReturn_onward (o : ReturnOp) (outcome : ReturnOutcome) (s : State) : Onward s (finishReturn o outcome s) := by
  obtain ⟨draft, done, h⟩ := finishReturn_eq o outcome s
  rw [h]
  have h1 : Onward s (release o.port .return_ s) := .of_same (by simp) (by simp) rfl
  have h2 := h1.trans (.of_tells (by simp) ((tells_stageApplied draft _).mono (by simp)) (stageApplied_endHold draft _))
  exact h2.trans (.of_same (by simp) (by simp) (awaitDurable_endHold _ _ _ _))

theorem finishReturn_lines (o : ReturnOp) (outcome : ReturnOutcome) (s : State) :
    (finishReturn o outcome s).ports.lines = s.ports.lines := by
  obtain ⟨draft, done, h⟩ := finishReturn_eq o outcome s
  rw [h]
  simp

/-- The state in which the end of a return is made or held. -/
def State.returnEnding (s : State) (o : ReturnOp) (outcome : ReturnOutcome) : State :=
  stopTimers .escrow (s.onEscrow fun e => { e with op := some (.give { o with moving := false, ended := some outcome }) })

/-- The end of a return is made at once, or waits in the end hold (R109, R163). -/
theorem endReturn_eq (o : ReturnOp) (outcome : ReturnOutcome) (s : State) :
    endReturn o outcome s = finishReturn { o with moving := false, ended := some outcome } outcome (s.returnEnding o outcome) ∨
      endReturn o outcome s =
        (s.returnEnding o outcome).onJournal fun j => { j with endHold := j.endHold ++ [.give outcome] } := by
  unfold endReturn holdOrFinish
  split
  · exact .inl rfl
  · exact .inr rfl

theorem endReturn_lines (o : ReturnOp) (outcome : ReturnOutcome) (s : State) :
    (endReturn o outcome s).ports.lines = s.ports.lines := by
  have h : (s.returnEnding o outcome).ports = s.ports := by simp [State.returnEnding]
  rcases endReturn_eq o outcome s with e | e
  · rw [e, finishReturn_lines, h]
  · simp [e, h]

theorem lockEscrow_lines (s : State) : (lockEscrow s).ports.lines = s.ports.lines := by
  unfold lockEscrow
  (repeat' split) <;> simp [endReturn_lines]

theorem lockEntered_lines (s : State) : (lockEntered s).ports.lines = s.ports.lines := by
  unfold lockEntered
  split
  · rw [lockEscrow_lines, lockClaim_lines]
  · rfl

/-! ## And so does the work of the alarm unit -/

theorem newRestriction_lines (before after : Effects) (s : State) : (newRestriction before after s).ports.lines = s.ports.lines := by
  unfold newRestriction
  simp only []
  (repeat' split) <;> simp [sounderOff, lockEntered_lines]

theorem recompute_lines (s : State) : (recompute s).ports.lines = s.ports.lines := by
  have h : (recomputeLevel s).ports = s.ports := by simp
  unfold recompute
  simp only []
  split
  · rw [h]
  · rw [newRestriction_lines, h]

theorem latch_lines (z : Fin 16) (port : Option Port) (entry : Bool) (s : State) :
    (latch z port entry s).ports.lines = s.ports.lines := by
  unfold latch
  simp [recompute_lines]

theorem activate_lines (z : Fin 16) (port : Option Port) (s : State) : (activate z port s).ports.lines = s.ports.lines := by
  unfold activate
  (repeat' split) <;> simp [latch_lines, recompute_lines]

theorem restore_lines (z : Fin 16) (s : State) : (restore z s).ports.lines = s.ports.lines := by
  unfold restore
  split <;> simp [recompute_lines]

theorem momentary_lines (z : Fin 16) (port : Option Port) (s : State) : (momentary z port s).ports.lines = s.ports.lines := by
  unfold momentary
  split
  · rfl
  · rw [restore_lines, activate_lines]

/-! ## What is told stays told by the same notice -/

theorem told_raise_same (p q : Port) (n : Notice) (s : State) (h : Told p n s) : Told p n (raise q n s) := by
  rcases eq_or_ne p q with rfl | hne
  · exact raise_told _ _ _
  · exact raise_told_other _ _ _ _ _ h (.inl hne)

theorem told_raiseTo_same (ps : List Port) (p : Port) (n : Notice) (s : State) (h : Told p n s) : Told p n (raiseTo ps n s) := by
  unfold raiseTo
  induction ps generalizing s with
  | nil => exact h
  | cons q ps ih => exact ih _ (told_raise_same p q n s h)

theorem raiseTo_told (ps : List Port) (p : Port) (n : Notice) (s : State) (hp : p ∈ ps) : Told p n (raiseTo ps n s) := by
  unfold raiseTo
  induction ps generalizing s with
  | nil => simp at hp
  | cons q ps ih =>
    rcases List.mem_cons.mp hp with rfl | hp
    · exact told_raiseTo_same ps p n _ (raise_told _ _ _)
    · exact ih _ hp

/-- An ALARM_CHANGE raised already is still told when the step ends with none due. -/
theorem settle_told_alarm (p : Port) (n : Notice) (s : State) (h : Quiet s) (hp : s.powered = true)
    (hc : s.alarm.changed = false) (ht : Told p n s) : Told p n (settle s) := by
  rw [settle_quiet s h hp]
  have hx : flushAlarm (rewriteDisplay (watchIdle s)) = rewriteDisplay (watchIdle s) := by
    unfold flushAlarm
    rw [if_neg (by simp [hc])]
  rw [hx]
  have h1 : Told p n (rewriteDisplay (watchIdle s)) := told_of_ports p n s _ ht (by simp)
  unfold pumpAll
  exact pump_told _ _ _ _ (pump_told _ _ _ _ (pump_told _ _ _ _ (pump_told _ _ _ _ h1)))

/-! ## The steps of R200 -/

/-- The alarm unit as the end of start-up makes its outputs (R158). -/
def State.alarmReady (s : State) : AlarmUnit :=
  let u := if s.soundDue then { s.alarm with sounder := true, sounderTimer := some Config.sounderTime } else s.alarm
  { u with silentLine := s.alarm.restriction.has .silentLine, changed := false }

/-- What the end of start-up leaves but for the journal and the notices. -/
structure PoweredUp (s z : State) : Prop where
  rest : z = { s with
    startUp := ⟨.ready, s.startUp.kind⟩
    claim := ⟨s.escrow.holder, s.claim.waiting, none⟩
    escrow := s.escrow.atReset
    depository := s.depository.judged s.permit
    alarm := s.alarmReady
    journal := z.journal
    ports := z.ports }
  lines : z.ports.lines = s.ports.lines
  hold : s.escrow.holder = .hold → Told .s (.grant .hold) z
  restriction : ∀ p : Port, p ≠ .m → Told p (.restriction s.alarm.restriction s.position.causes) z
  alarmChange : Told .m z.alarmNotice z
  recorded : ∀ n : Nat, s.journal.eventRoom = true → s.journal.next = some n →
    (∀ p : Port, Told p (.restarted s.startUp.kind n s.position.causes s.escrow.holder) z) ∧
      Recorded n
        (fun x =>
          x.kind = .powerUp ∧ x.port = none ∧
            x.outcome = (match s.startUp.kind with | .powerUp => 1 | .warm _ => 2 | .cold => 3) ∧
            x.counts = ⟨if s.startUp.kind = .cold then 1 else 0, 0, 0, 0⟩ ∧ x.amount = 0)
        s z

/-- The state in which the POWER_UP record is written: the claim settled, the permit judged, the alarm outputs set. -/
theorem readyAlarm_leaves (s : State) :
    ∃ y : State, readyAlarm (judgePermit (readyClaim s)) = y ∧
      y = { s with
        claim := ⟨s.escrow.holder, s.claim.waiting, none⟩, escrow := s.escrow.atReset
        depository := s.depository.judged s.permit, alarm := s.alarmReady, ports := y.ports } ∧
      y.ports.lines = s.ports.lines ∧ (s.escrow.holder = .hold → Told .s (.grant .hold) y) ∧
      (∀ p : Port, p ≠ .m → Told p (.restriction s.alarm.restriction s.position.causes) y) ∧ Told .m y.alarmNotice y := by
  let a : State := { s with claim := ⟨s.escrow.holder, s.claim.waiting, none⟩, escrow := s.escrow.atReset }
  let b : State := readyClaim s
  have hb : b = { a with ports := b.ports } ∧ b.ports.lines = s.ports.lines ∧ (s.escrow.holder = .hold → Told .s (.grant .hold) b) := by
    have e : b = if a.claim.owner = .hold then raise .s (.grant .hold) a else a := by
      show readyClaim s = _
      unfold readyClaim
      rw [settleOwner_eq]
    rw [e]
    split
    · exact ⟨rfl, raise_lines _ _ _, fun _ => raise_told _ _ _⟩
    · next hn => exact ⟨rfl, rfl, fun h => absurd h hn⟩
  obtain ⟨hbe, hbl, hbt⟩ := hb
  let c : State := { b with depository := s.depository.judged s.permit, alarm := s.alarmReady }
  have hc : readyAlarm (judgePermit b) = raiseAlarmChange (raiseRestriction c) := by
    rw [judgePermit_spec]
    have hj : b.depository.judged b.permit = s.depository.judged s.permit := by rw [hbe]; rfl
    rw [hj]
    have hs : (State.soundDue { b with depository := s.depository.judged s.permit }) = s.soundDue := by rw [hbe]; rfl
    unfold readyAlarm
    simp only [hs]
    have hcalm : b.alarm = s.alarm := by rw [hbe]
    split
    next h => simp only [c, State.alarmReady, h, if_true, State.onAlarm, hcalm]
    next h => simp only [c, State.alarmReady, h, State.onAlarm, hcalm]; rfl
  have htells : Tells [.restriction, .alarmChange] b (raiseAlarmChange (raiseRestriction c)) :=
    ((tells_of_ports (t := c) _ rfl).trans ((tells_raiseRestriction c).mono (by simp))).trans
      (tells_raise _ _ _ _ (by simp [Notice.kind, State.alarmNotice]))
  refine ⟨_, hc, ?_, ?_, fun h => htells _ _ (hbt h) (by simp [Notice.kind]), fun p hp => ?_, ?_⟩
  · have e : raiseAlarmChange (raiseRestriction c) = { c with ports := (raiseAlarmChange (raiseRestriction c)).ports } := rfl
    rw [e]
    simp only [c]
    rw [hbe]
  · rw [raiseAlarmChange, raise_lines, raiseRestriction_lines]
    exact hbl
  · have hcr : c.alarm.restriction = s.alarm.restriction := by
      simp only [c, State.alarmReady]
      split <;> rfl
    have hcp : c.position = s.position := by simp only [c]; rw [hbe]
    have := raiseRestriction_told c p hp
    rw [hcr, hcp] at this
    exact raise_told_other _ _ _ _ _ this (.inr (by simp [Notice.kind, State.alarmNotice]))
  · have e : (raiseAlarmChange (raiseRestriction c)).alarmNotice = (raiseRestriction c).alarmNotice := alarmNotice_congr _ _ rfl
    rw [e]
    exact raise_told _ _ _

/-- An event record is a matter of the journal and of the notices alone. -/
theorem eventRecord_rest (d : Draft) (s : State) :
    (eventRecord d s).2 = { s with journal := (eventRecord d s).2.journal, ports := (eventRecord d s).2.ports } := by
  have k := eventRecord_keeps d s
  generalize (eventRecord d s).2 = x at *
  cases x; cases s; simp_all

/-- The state at the end of start-up, before a duress mark is taken (R200). -/
def State.poweredUp (s : State) : State :=
  let y := recordPowerUp (readyAlarm (judgePermit (readyClaim s)))
  { y with startUp := { y.startUp with phase := .ready } }

theorem poweredUp_leaves (s : State) : PoweredUp s s.poweredUp := by
  unfold State.poweredUp
  obtain ⟨y, hy, hrest, hlines, hhold, hrestriction, halarm⟩ := readyAlarm_leaves s
  rw [hy]
  let draft : Draft :=
    { kind := .powerUp
      outcome := match s.startUp.kind with | .powerUp => 1 | .warm _ => 2 | .cold => 3
      counts := ⟨if s.startUp.kind = .cold then 1 else 0, 0, 0, 0⟩
      detail := match s.startUp.kind with | .warm w => .warm w | .powerUp => .none | .cold => .none }
  generalize hw : eventRecord draft y = w
  let restarted : Notice := .restarted s.startUp.kind (w.1.getD 0) s.position.causes s.escrow.holder
  have hkind : y.startUp = s.startUp := by rw [hrest]
  have hz : recordPowerUp y = raiseTo allPorts restarted w.2 := by
    have hp : w.2.position = s.position := by rw [← hw, (eventRecord_keeps draft y).2.2.2.1, hrest]
    have ho : w.2.claim.owner = s.escrow.holder := by rw [← hw, (eventRecord_keeps draft y).2.2.2.2.2.1, hrest]
    unfold recordPowerUp
    simp only [hkind]
    simp only [restarted, ← hp, ← ho, ← hw]
    rfl
  rw [hz]
  have htells : Tells [.journalHigh] y w.2 := by rw [← hw]; exact tells_eventRecord draft y
  have hraised : Tells [.journalHigh, .restarted] y (raiseTo allPorts restarted w.2) :=
    (htells.mono (by simp)).trans (tells_raiseTo _ _ _ _ (by simp [Notice.kind, restarted]))
  have hshown {z : State} (hp : z.ports = (raiseTo allPorts restarted w.2).ports) : Tells [.journalHigh, .restarted] y z :=
    hraised.trans (tells_of_ports _ hp)
  have hwk := eventRecord_keeps draft y
  rw [hw] at hwk
  have hj : (raiseTo allPorts restarted w.2).journal = w.2.journal := by simp
  have ha : (raiseTo allPorts restarted w.2).alarm = y.alarm := by simp [hwk]
  refine ⟨?_, ?_, fun h => hshown rfl _ _ (hhold h) (by simp [Notice.kind]),
    fun p hp => hshown rfl _ _ (hrestriction p hp) (by simp [Notice.kind]), ?_, fun n hroom hn => ⟨fun p => ?_, ?_⟩⟩
  · have e : raiseTo allPorts restarted w.2 = { w.2 with ports := (raiseTo allPorts restarted w.2).ports } := rfl
    have ew : w.2 = { y with journal := w.2.journal, ports := w.2.ports } := by
      rw [← hw]; exact eventRecord_rest draft y
    rw [e, ew, hrest]
  · show (raiseTo allPorts restarted w.2).ports.lines = _
    rw [raiseTo_lines, ← hw, eventRecord_lines, hlines]
  · refine hshown rfl _ _ ?_ (by simp [Notice.kind, State.alarmNotice])
    rw [alarmNotice_congr y _ (by rw [show ({ raiseTo allPorts restarted w.2 with startUp := _ } : State).alarm = _ from ha])]
    exact halarm
  · have hnum : w.1 = some n := by
      rw [← hw, eventRecord_room draft y (by rw [hrest]; exact hroom)]
      exact (stage_recorded draft y n (by rw [hrest]; exact hn)).1
    have := raiseTo_told allPorts p restarted w.2 (by cases p <;> simp [allPorts])
    simp only [restarted, hnum, Option.getD_some] at this ⊢
    exact told_of_ports _ _ _ _ this rfl
  · have hrec := eventRecord_room draft y (by rw [hrest]; exact hroom)
    have hstage := (stage_recorded draft y n (by rw [hrest]; exact hn)).2
    rw [← hrec, hw] at hstage
    refine (hstage.imp fun x hx => ?_).transfer (by rw [hrest]) (by rw [hrest]) hj
    rw [hx]
    exact ⟨rfl, rfl, rfl, rfl, rfl⟩

/-! ## The duress marks kept (R184) -/

/-- Zone 15 as a duress raise finds it: its input NORMAL, eligible, and not in an entry timing or acknowledged. -/
structure DuressReady (s : State) : Prop where
  input : (s.zone 15).inputActive = false
  eligible : s.alarm.eligible 15 = true
  type : (s.zone 15).config.type ≠ .intrusionDelayed
  state : (s.zone 15).state = .quiet ∨ (s.zone 15).state = .pendingActive ∨ (s.zone 15).state = .pendingRestored

/-- A momentary raise of zone 15 leaves it PENDING_RESTORED, ready for another (R142). -/
theorem momentary_duress (port : Option Port) (s : State) (h : DuressReady s) :
    DuressReady (momentary 15 port s) ∧ ((momentary 15 port s).zone 15).state = .pendingRestored := by
  obtain ⟨hinput, helig, htype, hstate⟩ := h
  have hz := momentary_zones 15 port s
  simp only [helig, if_true, hinput] at hz
  rw [if_neg (by simp)] at hz
  have hzone := hz.zone
  have key (r : Zone) (hr : r = (s.zone 15).activated s.alarm.armed s.settings.entryDelay s.clock.count port) :
      r.restored.state = .pendingRestored ∧ r.restored.inputActive = false ∧ r.restored.config = (s.zone 15).config ∧
        r.restored.bypassed = (s.zone 15).bypassed := by
    rw [hr]
    unfold Zone.activated
    rcases hstate with e | e | e <;> simp [e, htype, Zone.restored, hinput]
  obtain ⟨k1, k2, k3, k4⟩ := key _ rfl
  refine ⟨⟨by rw [hzone]; exact k2, by rw [hz.eligible k3 k4]; exact helig, by rw [hzone, k3]; exact htype, ?_⟩, by rw [hzone]; exact k1⟩
  rw [hzone]
  exact .inr (.inr k1)

/-- What taking a window's duress mark leaves: no mark at that window, the raise if there was one, all else of the marks as it was. -/
theorem takeDuress_spec (w : Teller) (s : State) (h : DuressReady s) :
    DuressReady (takeDuress w s) ∧ (takeDuress w s).startUp = s.startUp ∧
      (∀ p : Port, ((takeDuress w s).ports.get p).duressPending =
        if p = w.port then false else (s.ports.get p).duressPending) ∧
      ((s.ports.get w.port).duressPending = true ∨ (s.zone 15).state = .pendingRestored →
        ((takeDuress w s).zone 15).state = .pendingRestored) := by
  unfold takeDuress
  split
  next hd =>
    generalize hx : s.onPort w.port (fun q => { q with duressPending := false }) = x
    have hxa : x.alarm = s.alarm := by rw [← hx]; rfl
    have hxz : x.zone 15 = s.zone 15 := by simp only [State.zone, hxa]
    obtain ⟨h1, h2⟩ := momentary_duress (some w.port) x (by
      obtain ⟨a, b, c, d⟩ := h
      exact ⟨by rwa [hxz], by rwa [hxa], by rwa [hxz], by rwa [hxz]⟩)
    refine ⟨h1, by rw [(momentary_keeps _ _ x).1, ← hx]; rfl, fun p => ?_, fun _ => h2⟩
    have hl := congrFun (momentary_lines 15 (some w.port) x) p
    simp only [Ports.lines, PortState.marks, Prod.mk.injEq] at hl
    rw [hl.1.2.2.2.1, ← hx]
    split
    next hp => rw [hp, onPort_get_self]
    next hp => rw [onPort_get_other _ _ _ _ hp]
  next hd =>
    refine ⟨h, rfl, fun p => ?_, fun hor => hor.resolve_left hd⟩
    split
    next hp => rw [hp]; simpa using hd
    next => rfl

/-! ## The end of start-up (R200) -/

theorem purgeEnded_iff (s : State) (h : s.startUp.phase = .purge) :
    s.purgeEnded = true ↔ s.path.purge = none ∧ s.depository.clearing = none := by
  simp [State.purgeEnded, h, Option.isNone_iff_eq_none]

/-- The step leaves each port's mark, the phase and the zones as they were before what follows every command. -/
theorem settle_kept (s : State) (hp : s.powered = true) : KeptBut dispensing s (settle s) := by
  have hk := takenUp_kept s
  have hpw : (takenUp s).powered = true := by
    rw [State.powered, show (takenUp s).startUp = s.startUp from hk .startUp (by simp)]
    exact hp
  rw [settle_takenUp s hp]
  exact hk.trans ((settle_keeps_quiet _ (takenUp_quiet s) hpw).mono (by simp))

theorem soundDue_iff (s : State) :
    s.soundDue = true ↔ ∃ z, (s.zone z).state = .pendingActive ∧ Effects.has (s.zone z).config.effects .sounder = true := by
  have hall (z : Fin 16) : z ∈ allZones := by revert z; decide
  simp [State.soundDue, hall]

theorem startUpReady_ended (s : State) (hp : s.purgeEnded = true) :
    exec .startUpReady s = done (takeDuress .b (takeDuress .a s.poweredUp)) := by
  show done (startUpReady s) = _
  rw [startUpReady, if_pos hp]
  rfl

theorem startUp_takes_duress (s : State) (w : Teller) (hp : s.purgeEnded = true) (hd : (s.ports.get w.port).duressPending = true)
    (h : DuressReady s) :
    ∃ t : State,
      exec .startUpReady s = .next t ∧ t.startUp.phase = .ready ∧ (t.zone 15).state = .pendingRestored ∧
        (t.ports.get w.port).duressPending = false := by
  have hup := poweredUp_leaves s
  have he := startUpReady_ended s hp
  generalize s.poweredUp = x at hup he
  have hzones : x.alarm.zones = s.alarm.zones ∧ x.alarm.armed = s.alarm.armed := by
    rw [hup.rest]
    simp only [State.alarmReady]
    split <;> exact ⟨rfl, rfl⟩
  have hzone : x.zone 15 = s.zone 15 := AlarmUnit.zone_of_zones hzones.1 15
  have hxready : DuressReady x := by
    obtain ⟨a, b, c, d⟩ := h
    refine ⟨by rwa [hzone], ?_, by rwa [hzone], by rwa [hzone]⟩
    rw [← b]
    unfold AlarmUnit.eligible
    rw [AlarmUnit.zone_of_zones hzones.1 15, hzones.2]
  have hmark (p : Port) : (x.ports.get p).duressPending = (s.ports.get p).duressPending :=
    (kept_ports_of_lines _ _ hup.lines p).2.2.2
  obtain ⟨a1, a2, a3, a4⟩ := takeDuress_spec .a x hxready
  obtain ⟨b1, b2, b3, b4⟩ := takeDuress_spec .b _ a1
  generalize takeDuress .b (takeDuress .a x) = v at he b1 b2 b3 b4
  have hphase : v.startUp.phase = .ready := by rw [b2, a2, hup.rest]
  have hk := settle_kept v (by simp [State.powered, hphase])
  refine ⟨settle v, he, ?_, ?_, ?_⟩
  · rw [show (settle v).startUp = v.startUp from hk .startUp (by simp)]
    exact hphase
  · have hka := hk .alarm (by simp)
    simp only [Kept] at hka
    have ha : (settle v).alarm.zones = v.alarm.zones := by rw [← hka]
    rw [show (settle v).zone 15 = v.zone 15 from AlarmUnit.zone_of_zones ha 15]
    refine b4 ?_
    cases w with
    | a => exact .inr (a4 (.inl (by rw [hmark]; exact hd)))
    | b => exact .inl (by rw [a3, hmark]; exact hd)
  · obtain ⟨-, -, -, hm⟩ := hk .ports (by simp) w.port
    rw [hm, b3]
    cases w with
    | a => rw [if_neg (by decide), a3]; rfl
    | b => rfl

/-- Without a mark kept there is no raise to take. -/
theorem takeDuress_unmarked (w : Teller) (s : State) (h : (s.ports.get w.port).duressPending = false) : takeDuress w s = s := by
  unfold takeDuress
  rw [if_neg (by simp [h])]

/-- The open permit as its parts give it (R118). -/
theorem permit_eq (s : State) :
    s.permit =
      (decide (s.depository.bin.count < s.settings.binCapacity) && !s.restricted .slotClose && s.depository.supervisorOpen) := by
  simp only [State.permit, State.permitFailures, Bool.not_or, Bool.not_not, ← decide_not, Nat.not_le]

theorem startUp_ends (s : State) (n : Nat) (hq : Quiet s) (hp : s.purgeEnded = true)
    (ha : s.ports.a.duressPending = false) (hb : s.ports.b.duressPending = false) (hroom : s.journal.eventRoom = true)
    (hn : s.journal.next = some n) :
    Does .startUpReady [.startUp, .claim, .escrow, .depository, .alarm, .journal] s (fun t =>
      t.startUp = ⟨.ready, s.startUp.kind⟩ ∧ ClaimIs s.escrow.holder s.claim.waiting t ∧
        (s.escrow.holder = .hold → Told .s (.grant .hold) t) ∧ t.escrow = s.escrow.atReset ∧
        DepositoryIs (s.depository.judged s.permit) t ∧ AlarmIs s.alarmReady t ∧
        Recorded n
          (fun x =>
            x.kind = .powerUp ∧ x.port = none ∧
              x.outcome = (match s.startUp.kind with | .powerUp => 1 | .warm _ => 2 | .cold => 3) ∧
              x.counts = ⟨if s.startUp.kind = .cold then 1 else 0, 0, 0, 0⟩ ∧ x.amount = 0)
          s t ∧
        (∀ p : Port, Told p (.restarted s.startUp.kind n s.position.causes s.escrow.holder) t) ∧
        (∀ p : Port, p ≠ .m → Told p (.restriction s.alarm.restriction s.position.causes) t) ∧ Told .m t.alarmNotice t) := by
  have hup := poweredUp_leaves s
  have he := startUpReady_ended s hp
  generalize s.poweredUp = z at hup he
  have hmark (p : Port) : (z.ports.get p).duressPending = (s.ports.get p).duressPending :=
    (kept_ports_of_lines _ _ hup.lines p).2.2.2
  rw [takeDuress_unmarked .a z ((hmark .a).trans ha), takeDuress_unmarked .b z ((hmark .b).trans hb)] at he
  have hrest := hup.rest
  have hquiet : Quiet z := quiet_of_eq s z hq (by rw [hrest]) (by rw [hrest]) (by rw [hrest]; rfl)
  have hpow : z.powered = true := by rw [hrest]; rfl
  have hkeep := settle_keeps_quiet z hquiet hpow
  have hchanged : z.alarm.changed = false := by rw [hrest]; rfl
  have hkalarm := hkeep .alarm (by simp)
  have hkslot := hkeep .depository (by simp)
  simp only [Kept] at hkalarm hkslot
  have hnotice : (settle z).alarmNotice = z.alarmNotice :=
    alarmNotice_congr _ _ (congrArg (fun u : AlarmUnit => { u with changed := false }) hkalarm)
  have htold (p : Port) (k : Notice) (h : Told p k z) : Told p k (settle z) := settle_told_alarm p k z hquiet hpow hchanged h
  obtain ⟨hrestarted, hrecorded⟩ := hup.recorded n hroom hn
  have hkept : KeptBut [.startUp, .claim, .escrow, .depository, .alarm, .journal] s z := by
    intro b hb
    cases b
    case startUp | claim | escrow | depository | alarm | journal => simp at hb
    case ports => exact kept_ports_of_lines _ _ hup.lines
    all_goals (rw [hrest]; simp [Kept])
  refine ⟨settle z, he, hkept.trans (hkeep.mono (by simp)), ?_, ?_, fun h => htold _ _ (hup.hold h), ?_, ?_, ?_,
    hrecorded.transfer rfl rfl (hkeep .journal (by simp)), fun p => htold _ _ (hrestarted p),
    fun p hm => htold _ _ (hup.restriction p hm), ?_⟩
  · rw [show (settle z).startUp = z.startUp from hkeep .startUp (by simp), hrest]
  · obtain ⟨h1, h2⟩ := hkeep .claim (by simp)
    exact ⟨by rw [h1, hrest], by rw [h2, hrest]⟩
  · rw [show (settle z).escrow = z.escrow from hkeep .escrow (by simp), hrest]
  · rw [show z.depository = s.depository.judged s.permit by rw [hrest]] at hkslot
    exact hkslot
  · rw [show z.alarm = s.alarmReady by rw [hrest]] at hkalarm
    exact hkalarm
  · rw [hnotice]
    exact htold _ _ hup.alarmChange

/-- Settles O59. -/
theorem startUpEnds : Obligations.StartUpEnds := by
  unfold Obligations.StartUpEnds
  intro s hphase hq
  have hpow : s.powered = true := by simp [State.powered, hphase]
  have hended := purgeEnded_iff s hphase
  refine ⟨fun hnot => ?_, fun n hend ha hb hroom hn => ?_, fun w hend hd h1 h2 h3 h4 =>
    startUp_takes_duress s w (hended.mpr hend) hd ⟨h1, h2, h3, h4⟩⟩
  · refine does_nothing _ s hpow hq ?_
    show done (startUpReady s) = _
    rw [startUpReady, if_neg (mt hended.mp hnot)]
  · obtain ⟨t, he, hk, h1, h2, h3, h4, h5, h6, h7⟩ := startUp_ends s n hq (hended.mpr hend) ha hb hroom hn
    rw [permit_eq] at h5
    have hsounds := soundDue_iff s
    refine ⟨t, he, hk, h1, h2, h3, ?_, h5, fun hs => ?_, fun hs => ?_, h7⟩
    · rw [h4, Escrow.atReset]
      by_cases hs : s.escrow.stack = [] <;> simp [hs]
    · rw [State.alarmReady, if_pos (hsounds.mpr hs)] at h6
      exact congrArg (fun u : AlarmUnit => { u with changed := s.alarm.changed }) h6
    · rw [State.alarmReady, if_neg (mt hsounds.mp hs)] at h6
      exact congrArg (fun u : AlarmUnit => { u with changed := s.alarm.changed }) h6

end Sys2Proof.Machine
end

section
/-! What MODULE_LOCK does as it enters the set (R55, R103, R109): the wait list, the owner, the dispenses and the escrow operation. -/
namespace Sys2Proof.Machine

/-! ## Work that a lock has no part in -/

/-- The set, the claim, the bundles and the escrow operation are as they were; what a lock told stays told, the set stays told to the
ports that it is told to, and no end leaves the end hold. -/
structure Steady (s t : State) : Prop where
  restriction : t.alarm.restriction = s.alarm.restriction
  startUp : t.startUp = s.startUp
  owner : t.claim.owner = s.claim.owner
  waiting : t.claim.waiting = s.claim.waiting
  stack : t.escrow.stack = s.escrow.stack
  op : t.escrow.op = s.escrow.op
  lost : ∀ p : Port, Told p (.claimEnded .lock) s → Told p (.claimEnded .lock) t
  hold : Told .s (.grant .hold) s → Told .s (.grant .hold) t
  told : ∀ p : Port, p ≠ .m → RestrictionTold p s → RestrictionTold p t
  held : ∀ e ∈ s.journal.endHold, e ∈ t.journal.endHold

theorem Steady.refl (s : State) : Steady s s :=
  ⟨rfl, rfl, rfl, rfl, rfl, rfl, fun _ => id, id, fun _ _ => id, fun _ => id⟩

theorem Steady.trans {s t u : State} (h : Steady s t) (k : Steady t u) : Steady s u where
  restriction := k.restriction.trans h.restriction
  startUp := k.startUp.trans h.startUp
  owner := k.owner.trans h.owner
  waiting := k.waiting.trans h.waiting
  stack := k.stack.trans h.stack
  op := k.op.trans h.op
  lost p ht := k.lost p (h.lost p ht)
  hold ht := k.hold (h.hold ht)
  told p hp ht := k.told p hp (h.told p hp ht)
  held e he := k.held e (h.held e he)

/-- The work of a dispense, where the claim, the escrow and the phase stand. -/
theorem Onward.steady {s t : State} (h : Onward s t) (hu : t.startUp = s.startUp) (ho : t.claim.owner = s.claim.owner)
    (hw : t.claim.waiting = s.claim.waiting) (he : t.escrow = s.escrow) : Steady s t where
  restriction := by rw [h.alarm]
  startUp := hu
  owner := ho
  waiting := hw
  stack := by rw [he]
  op := by rw [he]
  lost p ht := h.tells p _ ht (by simp [Notice.kind])
  hold ht := h.tells _ _ ht (by simp [Notice.kind])
  told := h.told
  held := h.held

/-- Work that tells nothing and changes the alarm unit in other things than the set. -/
theorem Steady.of_same {s t : State} (hr : t.alarm.restriction = s.alarm.restriction) (hu : t.startUp = s.startUp)
    (hc : t.claim = s.claim) (he : t.escrow = s.escrow) (hj : t.journal.endHold = s.journal.endHold) (hp : t.ports = s.ports) :
    Steady s t where
  restriction := hr
  startUp := hu
  owner := by rw [hc]
  waiting := by rw [hc]
  stack := by rw [he]
  op := by rw [he]
  lost p ht := told_of_ports _ _ _ _ ht hp
  hold ht := told_of_ports _ _ _ _ ht hp
  told p _ := fun ⟨c, ht⟩ => ⟨c, by rw [hr]; exact told_of_ports _ _ _ _ ht hp⟩
  held e he := hj ▸ he

theorem endDispense_steady (w : Teller) (outcome : Nat) (taken : Quad Nat) (due : Bool) (reason : Option Reason) (carried : Results)
    (s : State) : Steady s (endDispense w outcome taken due reason carried s) :=
  (endDispense_onward w outcome taken due reason carried s).steady (by simp) (by simp) (by simp) (endDispense_within w _ _ _ _ _ _).escrow

/-- A port told that a lock took its claim is told nothing else anew. -/
theorem raise_lost_steady (p : Port) (s : State) : Steady s (raise p (.claimEnded .lock) s) where
  restriction := by simp
  startUp := by simp
  owner := by simp
  waiting := by simp
  stack := by simp
  op := by simp
  lost q ht := told_raise_same q p _ s ht
  hold ht := raise_told_other _ _ _ _ _ ht (.inr (by simp [Notice.kind]))
  told q _ := fun ⟨c, ht⟩ => ⟨c, by simpa using raise_told_other _ _ _ _ _ ht (.inr (by simp [Notice.kind]))⟩
  held e he := by simpa using he

theorem raise_hold_steady (s : State) : Steady s (raise .s (.grant .hold) s) where
  restriction := by simp
  startUp := by simp
  owner := by simp
  waiting := by simp
  stack := by simp
  op := by simp
  lost q ht := raise_told_other _ _ _ _ _ ht (.inr (by simp [Notice.kind]))
  hold ht := told_raise_same _ _ _ s ht
  told q _ := fun ⟨c, ht⟩ => ⟨c, by simpa using raise_told_other _ _ _ _ _ ht (.inr (by simp [Notice.kind]))⟩
  held e he := by simpa using he

/-! ## A dispense that a lock ends -/

/-- A dispense that a lock has ended: its end is made, or waits in the end hold (R91, R163). -/
def HaltedIn (w : Teller) (t : State) : Prop :=
  t.dispense w = Dispense.idle ∨
    ((t.dispense w).ending = true ∧ (t.dispense w).deferred = false ∧
      ∃ carried, HeldEnd.dispense w 7 Quad.zero false none carried ∈ t.journal.endHold)

theorem HaltedIn.keep {w : Teller} {s t : State} (h : HaltedIn w s) (hd : t.dispense w = s.dispense w)
    (hh : ∀ e ∈ s.journal.endHold, e ∈ t.journal.endHold) : HaltedIn w t := by
  unfold HaltedIn
  rw [hd]
  exact h.imp id fun ⟨a, b, c, hc⟩ => ⟨a, b, c, hh _ hc⟩

theorem endDispense_halted (w : Teller) (s : State) : HaltedIn w (endDispense w 7 Quad.zero false none .none s) := by
  unfold endDispense holdOrFinish
  split
  · refine .inl ?_
    generalize stopTimers _ _ = x
    have hd : (finishEnd (.dispense w 7 Quad.zero false none .none) x).dispenses = x.dispenses.set w Dispense.idle :=
      finishDispense_dispenses w 7 Quad.zero false none .none x
    rw [State.dispense, hd]
    simp
  · have hd : (stopTimers (.dispense w) (s.onDispense w fun d => { d with ending := true, deferred := false })).dispense w =
        { s.dispense w with ending := true, deferred := false } := by
      rw [State.dispense, (stopTimers_keeps _ _).2.2.2.2.2.2.1]
      exact onDispense_self _ _ _
    exact .inr ⟨congrArg Dispense.ending hd, congrArg Dispense.deferred hd, .none, by simp⟩

theorem dispense_other (w u : Teller) (s t : State) (h : WithinWindow w s t) (hu : u ≠ w) : t.dispense u = s.dispense u := by
  have ho : u = w.other := by cases u <;> cases w <;> simp_all [Teller.other]
  rw [ho]
  exact h.other

/-- Ending one window's dispense leaves the other's ended. -/
theorem endDispense_keeps_halted (w u : Teller) (s : State) (h : HaltedIn u s) :
    HaltedIn u (endDispense w 7 Quad.zero false none .none s) := by
  by_cases hu : u = w
  · rw [hu]
    exact endDispense_halted w s
  · exact h.keep (dispense_other w u _ _ (endDispense_within w _ _ _ _ _ _) hu) (endDispense_steady w _ _ _ _ _ _).held

/-! ## The wait list emptied (R55) -/

/-- What emptying a wait list leaves. -/
structure WaitersSent (ws : List WaitEntry) (s t : State) : Prop where
  steady : Steady s t
  told : ∀ e ∈ ws, Told e.port (.claimEnded .lock) t
  halted : ∀ u : Teller, .delayed u ∈ ws ∨ HaltedIn u s → HaltedIn u t
  others : ∀ u : Teller, .delayed u ∉ ws → t.dispense u = s.dispense u

theorem emptyWaiting_sent (ws : List WaitEntry) (s : State) : WaitersSent ws s (emptyWaiting ws s) := by
  induction ws generalizing s with
  | nil => exact ⟨.refl s, by simp, fun u h => h.resolve_left (by simp), fun _ _ => rfl⟩
  | cons e ws ih =>
    have hr := raise_lost_steady e.port s
    have hd (u : Teller) : (raise e.port (.claimEnded .lock) s).dispense u = s.dispense u := by simp [State.dispense]
    have hkeep (u : Teller) (h : HaltedIn u s) : HaltedIn u (raise e.port (.claimEnded .lock) s) := h.keep (hd u) hr.held
    have htold := raise_told e.port (.claimEnded .lock) s
    cases e with
    | claim p =>
      have k := ih (raise p (.claimEnded .lock) s)
      refine ⟨hr.trans k.steady, fun x hx => ?_, fun u h => k.halted u ?_, fun u h => (k.others u (by simpa using h)).trans (hd u)⟩
      · rcases List.mem_cons.mp hx with rfl | hx
        · exact k.steady.lost _ htold
        · exact k.told x hx
      · exact h.imp (by simp) (hkeep u)
    | delayed w =>
      have he := endDispense_steady w 7 Quad.zero false none .none (raise w.port (.claimEnded .lock) s)
      have k := ih (endDispense w 7 Quad.zero false none .none (raise w.port (.claimEnded .lock) s))
      refine ⟨(hr.trans he).trans k.steady, fun x hx => ?_, fun u h => k.halted u ?_, fun u h => ?_⟩
      · rcases List.mem_cons.mp hx with rfl | hx
        · exact k.steady.lost _ (he.lost _ htold)
        · exact k.told x hx
      · rcases h with h | h
        · rcases List.mem_cons.mp h with h | h
          · cases h
            exact .inr (endDispense_halted w _)
          · exact .inl h
        · exact .inr (endDispense_keeps_halted w u _ (hkeep u h))
      · simp only [List.mem_cons, WaitEntry.delayed.injEq, not_or] at h
        exact (k.others u h.2).trans ((dispense_other w u _ _ (endDispense_within w _ _ _ _ _ _) h.1).trans (hd u))

/-! ## The claim taken (R55) -/

/-- The teller that owns the module. -/
def State.loser (s : State) : Option Teller :=
  match s.claim.owner with
  | .portA => some .a
  | .portB => some .b
  | _ => none

/-- The windows of a wait list's DELAYED entries, in its order. -/
def delayedOf (ws : List WaitEntry) : List Teller :=
  ws.filterMap fun e => match e with | .delayed u => some u | .claim _ => none

theorem mem_delayedOf (ws : List WaitEntry) (u : Teller) : u ∈ delayedOf ws ↔ .delayed u ∈ ws := by
  rw [delayedOf, List.mem_filterMap]
  constructor
  · rintro ⟨e, he, hu⟩
    cases e with
    | claim p => simp at hu
    | delayed w => simp only [Option.some.injEq] at hu; rwa [hu] at he
  · exact fun h => ⟨_, h, rfl⟩

/-- The dispenses that a lock ends: those that wait in the list, and the owner's with its grant checks deferred. -/
def State.haltedBy (s : State) : List Teller :=
  delayedOf s.claim.waiting ++
    s.loser.toList.filter (fun u =>
      (s.dispense u).state == .queued && (s.dispense u).deferred && !s.claim.waiting.contains (.delayed u))

theorem State.mem_haltedBy (s : State) (u : Teller) :
    u ∈ s.haltedBy ↔ .delayed u ∈ s.claim.waiting ∨
      (s.loser = some u ∧ (s.dispense u).state = .queued ∧ (s.dispense u).deferred = true ∧ .delayed u ∉ s.claim.waiting) := by
  rw [State.haltedBy, List.mem_append, mem_delayedOf]
  simp only [List.mem_filter, Option.mem_toList, Bool.and_eq_true, beq_iff_eq, Bool.not_eq_true',
    List.contains_eq_mem, decide_eq_false_iff_not, and_assoc]

/-- The escrow operation as a lock sees it: a commit reads the set at its next choice. -/
def Escrow.lockable (e : Escrow) : Option EscrowOp :=
  match e.op with
  | some (.commit _) => none
  | op => op

theorem Escrow.lockable_of_op {d e : Escrow} (h : d.op = e.op) : d.lockable = e.lockable := by
  unfold Escrow.lockable
  rw [h]

/-- The escrow operation after a lock, `op` being what it was as the lock saw it (R103, R109). -/
def OpLocked (op : Option EscrowOp) (t : State) : Prop :=
  match op with
  | some (.insert o) => t.escrow.op = some (.insert (if o.note = .none then o else { o with locked := true }))
  | some (.give o) =>
    if o.ended.isSome then t.escrow.op = some (.give o)
    else if o.note.isSome then t.escrow.op = some (.give { o with locked := true })
    else
      t.escrow.op = none ∨
        (t.escrow.op = some (.give { o with moving := false, ended := some .halted }) ∧ .give .halted ∈ t.journal.endHold)
  | _ => t.escrow.lockable = none

/-- What MODULE_LOCK's entry has done to the claim, the dispenses and the escrow operation of s (R55, R103, R109, R153). -/
structure Locked (s t : State) : Prop where
  owner : t.claim.owner = if s.loser = none then s.claim.owner else s.escrow.holder
  waiting : t.claim.waiting = []
  loserTold : ∀ u : Teller, s.loser = some u → Told u.port (.claimEnded .lock) t
  waitersTold : ∀ e ∈ s.claim.waiting, Told e.port (.claimEnded .lock) t
  granted : s.loser ≠ none → s.escrow.stack ≠ [] → Told .s (.grant .hold) t
  halted : ∀ u ∈ s.haltedBy, HaltedIn u t
  stack : t.escrow.stack = s.escrow.stack
  op : OpLocked s.escrow.lockable t
  told : ∀ p : Port, p ≠ .m → RestrictionTold p t

/-- What the entry does to the claim, before the escrow operation is told. -/
structure ClaimLocked (s t : State) : Prop where
  startUp : t.startUp = s.startUp
  restriction : t.alarm.restriction = s.alarm.restriction
  owner : t.claim.owner = if s.loser = none then s.claim.owner else s.escrow.holder
  waiting : t.claim.waiting = []
  loserTold : ∀ u : Teller, s.loser = some u → Told u.port (.claimEnded .lock) t
  waitersTold : ∀ e ∈ s.claim.waiting, Told e.port (.claimEnded .lock) t
  granted : s.loser ≠ none → s.escrow.stack ≠ [] → Told .s (.grant .hold) t
  halted : ∀ u ∈ s.haltedBy, HaltedIn u t
  stack : t.escrow.stack = s.escrow.stack
  op : t.escrow.lockable = s.escrow.lockable
  told : ∀ p : Port, p ≠ .m → RestrictionTold p s → RestrictionTold p t

/-- The wait list emptied. -/
def State.waitersSent (s : State) : State :=
  emptyWaiting s.claim.waiting { s with claim := { s.claim with waiting := [] } }

/-- A teller loses the module to HOLD or to NONE, and port S is granted HOLD (R55). -/
def loseModule (u : Teller) (s : State) : State :=
  let held := raise u.port (.claimEnded .lock) (setOwner s.escrow.holder s)
  if s.escrow.stack = [] then held else raise .s (.grant .hold) held

theorem giveUpDeferred_steady (u : Teller) (s : State) : Steady s (giveUpDeferred u s) := by
  unfold giveUpDeferred
  split
  · exact endDispense_steady u _ _ _ _ _ s
  · exact .refl s

theorem lockClaim_eq (s : State) :
    lockClaim s = match s.loser with
      | none => s.waitersSent
      | some u => loseModule u (giveUpDeferred u s.waitersSent) := by
  have hsent := emptyWaiting_sent s.claim.waiting { s with claim := { s.claim with waiting := [] } }
  have howner : s.waitersSent.claim.owner = s.claim.owner := hsent.steady.owner
  have hlose (u : Teller) (x : State) :
      (let held : Bool := !x.escrow.stack.isEmpty
       let y := raise u.port (.claimEnded .lock) (setOwner (if held then .hold else .none) x)
       if held then raise .s (.grant .hold) y else y) = loseModule u x := by
    unfold loseModule Escrow.holder
    by_cases h : x.escrow.stack = [] <;> simp [h]
  unfold lockClaim State.loser
  simp only []
  rw [show emptyWaiting s.claim.waiting { s with claim := { s.claim with waiting := [] } } = s.waitersSent from rfl, howner]
  cases s.claim.owner
  case portA => exact hlose .a _
  case portB => exact hlose .b _
  all_goals rfl

theorem setOwner_waiting (o : Owner) (s : State) : (setOwner o s).claim.waiting = s.claim.waiting ∧ (setOwner o s).claim.owner = o := by
  rw [(setOwner_spec o s).1]
  exact ⟨rfl, rfl⟩

theorem setOwner_lockable (o : Owner) (s : State) : (setOwner o s).escrow.lockable = s.escrow.lockable := by
  rw [(setOwner_spec o s).2]
  split <;> rfl

/-- Once the owner is set, what a teller's loss tells disturbs nothing. -/
theorem loseModule_steady (u : Teller) (s : State) :
    Steady (setOwner s.escrow.holder s) (loseModule u s) ∧ (loseModule u s).dispenses = s.dispenses ∧
      Told u.port (.claimEnded .lock) (loseModule u s) ∧ (s.escrow.stack ≠ [] → Told .s (.grant .hold) (loseModule u s)) := by
  have h := raise_lost_steady u.port (setOwner s.escrow.holder s)
  have ht := raise_told u.port (.claimEnded .lock) (setOwner s.escrow.holder s)
  unfold loseModule
  simp only []
  split
  next hs => exact ⟨h, by simp, ht, absurd hs⟩
  next =>
    have k := raise_hold_steady (raise u.port (.claimEnded .lock) (setOwner s.escrow.holder s))
    exact ⟨h.trans k, by simp, k.lost _ ht, fun _ => raise_told _ _ _⟩

theorem giveUpDeferred_halted (u w : Teller) (s : State)
    (h : HaltedIn w s ∨ (w = u ∧ (s.dispense u).state = .queued ∧ (s.dispense u).deferred = true)) :
    HaltedIn w (giveUpDeferred u s) := by
  unfold giveUpDeferred
  split
  next =>
    rcases h with h | ⟨rfl, -⟩
    · exact endDispense_keeps_halted u w s h
    · exact endDispense_halted w s
  next hn => exact h.resolve_right fun ⟨_, hq⟩ => hn hq

theorem waitersSent_locked (s : State) (h : s.loser = none) : ClaimLocked s s.waitersSent := by
  have k := emptyWaiting_sent s.claim.waiting { s with claim := { s.claim with waiting := [] } }
  refine ⟨k.steady.startUp, k.steady.restriction, k.steady.owner.trans (if_pos h).symm, k.steady.waiting, ?_, k.told,
    fun hn => absurd h hn, fun u hu => ?_, k.steady.stack, Escrow.lockable_of_op k.steady.op, k.steady.told⟩
  · intro u hu
    rw [h] at hu
    exact absurd hu (by simp)
  · rcases (s.mem_haltedBy u).mp hu with hd | ⟨hl, -⟩
    · exact k.halted u (.inl hd)
    · rw [h] at hl
      exact absurd hl (by simp)

theorem loseModule_locked (s : State) (u : Teller) (h : s.loser = some u) :
    ClaimLocked s (loseModule u (giveUpDeferred u s.waitersSent)) := by
  have k := emptyWaiting_sent s.claim.waiting { s with claim := { s.claim with waiting := [] } }
  have kg := k.steady.trans (giveUpDeferred_steady u s.waitersSent)
  have hg (w : Teller) (hw : w ∈ s.haltedBy) : HaltedIn w (giveUpDeferred u s.waitersSent) := by
    refine giveUpDeferred_halted u w _ ?_
    rcases (s.mem_haltedBy w).mp hw with hd | ⟨hl, hq, hdef, hnot⟩
    · exact .inl (k.halted w (.inl hd))
    · rw [h, Option.some.injEq] at hl
      subst hl
      have hsame : s.waitersSent.dispense u = s.dispense u := k.others u hnot
      rw [hsame]
      exact .inr ⟨rfl, hq, hdef⟩
  have hlost (e : WaitEntry) (he : e ∈ s.claim.waiting) :
      Told e.port (.claimEnded .lock) (giveUpDeferred u s.waitersSent) :=
    (giveUpDeferred_steady u s.waitersSent).lost _ (k.told e he)
  generalize giveUpDeferred u s.waitersSent = g at kg hg hlost
  obtain ⟨ks, kd, ktold, khold⟩ := loseModule_steady u g
  obtain ⟨hwaiting, howner⟩ := setOwner_waiting g.escrow.holder g
  have hstack : g.escrow.stack = s.escrow.stack := kg.stack
  have hports : (setOwner g.escrow.holder g).ports = g.ports := by simp
  have halarm : (setOwner g.escrow.holder g).alarm = g.alarm := by simp
  have hjournal : (setOwner g.escrow.holder g).journal = g.journal := by simp
  refine ⟨?_, ?_, ?_, ?_, fun w hw => ?_, fun e he => ks.lost _ (told_of_ports _ _ _ _ (hlost e he) hports),
    fun _ hs => khold (by rwa [hstack]), fun w hw => (hg w hw).keep ?_ ?_, ?_, ?_, fun p hp ht => ?_⟩
  · rw [ks.startUp, (setOwner_keeps _ _).1, kg.startUp]
  · rw [ks.restriction, halarm, kg.restriction]
  · rw [ks.owner, howner, if_neg (by simp [h]), Escrow.holder, Escrow.holder, hstack]
  · rw [ks.waiting, hwaiting, kg.waiting]
  · rw [h, Option.some.injEq] at hw
    exact hw ▸ ktold
  · rw [State.dispense, kd]
    rfl
  · exact fun e he => ks.held e (by rwa [hjournal])
  · rw [ks.stack, setOwner_stack, hstack]
  · rw [Escrow.lockable_of_op ks.op, setOwner_lockable, Escrow.lockable_of_op kg.op]
  · obtain ⟨c, hc⟩ := kg.told p hp ht
    exact ks.told p hp ⟨c, by rw [halarm]; exact told_of_ports _ _ _ _ hc hports⟩

theorem lockClaim_locked (s : State) : ClaimLocked s (lockClaim s) := by
  rw [lockClaim_eq]
  cases h : s.loser with
  | none => exact waitersSent_locked s h
  | some u => exact loseModule_locked s u h

/-! ## The escrow operation told (R103, R109) -/

/-- What telling the escrow operation leaves, but for the operation. -/
structure OpTold (s t : State) : Prop where
  claim : t.claim = s.claim
  dispenses : t.dispenses = s.dispenses
  stack : t.escrow.stack = s.escrow.stack
  onward : Onward s t

theorem OpTold.of_op (s : State) (op : Option EscrowOp) : OpTold s (s.onEscrow fun e => { e with op := op }) :=
  ⟨rfl, rfl, rfl, .of_same rfl rfl rfl⟩

theorem endReturn_told (o : ReturnOp) (s : State) :
    OpTold s (endReturn o .halted s) ∧
      ((endReturn o .halted s).escrow.op = none ∨
        ((endReturn o .halted s).escrow.op = some (.give { o with moving := false, ended := some .halted }) ∧
          .give .halted ∈ (endReturn o .halted s).journal.endHold)) := by
  have h0 : OpTold s (s.returnEnding o .halted) :=
    ⟨by simp [State.returnEnding], by simp [State.returnEnding], by simp [State.returnEnding],
      .of_same (by simp [State.returnEnding]) (by simp [State.returnEnding]) (by simp [State.returnEnding])⟩
  rcases endReturn_eq o .halted s with e | e
  · have hon := finishReturn_onward { o with moving := false, ended := some .halted } .halted (s.returnEnding o .halted)
    obtain ⟨draft, done, hf⟩ := finishReturn_eq { o with moving := false, ended := some .halted } .halted (s.returnEnding o .halted)
    rw [e]
    refine ⟨⟨?_, ?_, ?_, h0.onward.trans hon⟩, .inl (by rw [hf]; simp)⟩
    · rw [← h0.claim]; simp
    · rw [← h0.dispenses]; simp
    · rw [← h0.stack, hf]; simp
  · rw [e]
    refine ⟨⟨h0.claim, h0.dispenses, h0.stack, h0.onward.trans ⟨rfl, tells_of_ports _ rfl, fun _ _ => id, fun x hx => ?_⟩⟩,
      .inr ⟨by simp [State.returnEnding], by simp⟩⟩
    exact List.mem_append_left _ hx

theorem lockEscrow_told (s : State) : OpTold s (lockEscrow s) ∧ OpLocked s.escrow.lockable (lockEscrow s) := by
  have same : OpTold s s := ⟨rfl, rfl, rfl, .of_same rfl rfl rfl⟩
  unfold lockEscrow OpLocked Escrow.lockable
  cases hop : s.escrow.op with
  | none => exact ⟨same, by simp [hop]⟩
  | some x =>
    cases x with
    | insert o =>
      by_cases hn : o.note = .none
      · simp only [hn, if_true]
        exact ⟨same, by simp [hop]⟩
      · simp only [hn, if_false]
        exact ⟨.of_op s _, rfl⟩
    | give o =>
      by_cases he : o.ended.isSome = true
      · simp only [he, if_true]
        exact ⟨same, hop⟩
      · by_cases hn : o.note = none
        · have k := endReturn_told o s
          simp only [hn] at k
          simpa only [he, hn, if_true, Option.isSome_none, Bool.false_eq_true, if_false] using k
        · have hsome : o.note.isSome = true := Option.isSome_iff_ne_none.mpr hn
          simp only [he, hn, hsome, if_true, if_false]
          exact ⟨.of_op s _, rfl⟩
    | commit o => exact ⟨same, by simp [hop]⟩

/-! ## The entry as a whole -/

/-- MODULE_LOCK enters the set of a READY part: the claim, the dispenses and the escrow operation are told (R55, R103, R109). -/
theorem lockEntered_locked (s : State) (hp : s.startUp.phase = .ready) (ht : ∀ p : Port, p ≠ .m → RestrictionTold p s) :
    Locked s (lockEntered s) := by
  have c := lockClaim_locked s
  obtain ⟨k, hop⟩ := lockEscrow_told (lockClaim s)
  unfold lockEntered
  rw [if_pos hp]
  have hlost (p : Port) (h : Told p (.claimEnded .lock) (lockClaim s)) : Told p (.claimEnded .lock) (lockEscrow (lockClaim s)) :=
    k.onward.tells p _ h (by simp [Notice.kind])
  refine ⟨?_, ?_, fun u hu => hlost _ (c.loserTold u hu), fun e he => hlost _ (c.waitersTold e he),
    fun hl hs => k.onward.tells _ _ (c.granted hl hs) (by simp [Notice.kind]), fun u hu => (c.halted u hu).keep ?_ k.onward.held,
    k.stack.trans c.stack, ?_, fun p hp => k.onward.told p hp (c.told p hp (ht p hp))⟩
  · rw [k.claim, c.owner]
  · rw [k.claim, c.waiting]
  · rw [State.dispense, k.dispenses]
    rfl
  · rw [← c.op]
    exact hop

/-- A lock that enters again finds nothing to do (R55). -/
theorem lockEntered_again (s t : State) (h : Locked s t) : lockEntered t = t := by
  have hloser : t.loser = none := by
    have ho := h.owner
    by_cases hl : s.loser = none
    · rw [if_pos hl] at ho
      rw [State.loser, ho]
      exact hl
    · rw [if_neg hl] at ho
      rw [State.loser, ho, Escrow.holder]
      by_cases hs : s.escrow.stack = [] <;> simp [hs]
  have hclaim : lockClaim t = t := by
    rw [lockClaim_eq, hloser, State.waitersSent, h.waiting, emptyWaiting, ← h.waiting]
  have hescrow : lockEscrow t = t := by
    have hop := h.op
    have same (op : Option EscrowOp) (e : t.escrow.op = op) : (t.onEscrow fun x => { x with op := op }) = t := by
      rw [← e]
      rfl
    have ended (o : ReturnOp) (e : t.escrow.op = some (.give o)) (hended : o.ended.isSome = true) : lockEscrow t = t := by
      unfold lockEscrow
      rw [e]
      exact if_pos hended
    have idle (e : t.escrow.lockable = none) : lockEscrow t = t := by
      unfold lockEscrow
      unfold Escrow.lockable at e
      split
      · rfl
      next h => rw [h] at e; exact absurd e (by simp)
      next h => rw [h] at e; exact absurd e (by simp)
      · rfl
    have closed (e : t.escrow.op = none) : lockEscrow t = t := idle (by rw [Escrow.lockable, e])
    cases hl : s.escrow.lockable with
    | none => rw [hl] at hop; exact idle hop
    | some x =>
      rw [hl] at hop
      cases x with
      | insert o =>
        by_cases hn : o.note = .none
        · simp only [OpLocked, hn, if_true] at hop
          unfold lockEscrow
          rw [hop]
          exact if_pos hn
        · simp only [OpLocked, hn, if_false] at hop
          unfold lockEscrow
          rw [hop]
          exact (if_neg hn).trans (same _ hop)
      | give o =>
        simp only [OpLocked] at hop
        split at hop
        next he => exact ended o hop he
        next he =>
          split at hop
          next hn =>
            unfold lockEscrow
            rw [hop]
            exact (if_neg he).trans ((if_neg (Option.isSome_iff_ne_none.mp hn)).trans (same _ hop))
          next =>
            rcases hop with hop | ⟨hop, -⟩
            · exact closed hop
            · exact ended _ hop rfl
      | commit o => exact idle hop
  unfold lockEntered
  split
  · rw [hclaim, hescrow]
  · rfl

end Sys2Proof.Machine
end

section
/-! What a lock did is kept, or is done, by every operation of the alarm unit (R55, R153). -/
namespace Sys2Proof.Machine

/-! ## Work that leaves the claim, the dispenses and the escrow to a lock -/

/-- Steady work that leaves each dispense in its state, and an idle one as it is. -/
structure Undisturbed (s t : State) : Prop where
  steady : Steady s t
  stage : ∀ u : Teller, (t.dispense u).state = (s.dispense u).state ∧ (t.dispense u).deferred = (s.dispense u).deferred ∧
    (t.dispense u).ending = (s.dispense u).ending
  idle : ∀ u : Teller, s.dispense u = Dispense.idle → t.dispense u = Dispense.idle

theorem Undisturbed.trans {s t u : State} (h : Undisturbed s t) (k : Undisturbed t u) : Undisturbed s u := by
  refine ⟨h.steady.trans k.steady, fun w => ?_, fun w hw => k.idle w (h.idle w hw)⟩
  obtain ⟨h1, h2, h3⟩ := h.stage w
  obtain ⟨k1, k2, k3⟩ := k.stage w
  exact ⟨k1.trans h1, k2.trans h2, k3.trans h3⟩

theorem Steady.undisturbed {s t : State} (h : Steady s t) (hd : t.dispenses = s.dispenses) : Undisturbed s t := by
  have hw (u : Teller) : t.dispense u = s.dispense u := by rw [State.dispense, hd]; rfl
  exact ⟨h, fun u => by rw [hw u]; exact ⟨rfl, rfl, rfl⟩, fun u hu => (hw u).trans hu⟩

theorem refl_undisturbed (s : State) : Undisturbed s s := (Steady.refl s).undisturbed rfl

/-- The alarm unit changed in other things than the set. -/
theorem onAlarm_undisturbed (f : AlarmUnit → AlarmUnit) (s : State) (h : (f s.alarm).restriction = s.alarm.restriction) :
    Undisturbed s (s.onAlarm f) :=
  Steady.undisturbed (t := s.onAlarm f) (.of_same h rfl rfl rfl rfl rfl) rfl

theorem onZone_undisturbed (z : Fin 16) (f : Zone → Zone) (s : State) : Undisturbed s (onZone z f s) := onAlarm_undisturbed _ s rfl

theorem markChanged_undisturbed (s : State) : Undisturbed s (markChanged s) := onAlarm_undisturbed _ s rfl

theorem sounderOff_undisturbed (s : State) : Undisturbed s (sounderOff s) := onAlarm_undisturbed _ s rfl

theorem setZoneState_undisturbed (z : Fin 16) (x : ZoneState) (s : State) : Undisturbed s (setZoneState z x s) := by
  unfold setZoneState
  split
  · exact refl_undisturbed s
  · exact (onZone_undisturbed _ _ s).trans (markChanged_undisturbed _)

theorem soundFor_undisturbed (z : Fin 16) (s : State) : Undisturbed s (soundFor z s) := by
  unfold soundFor
  split
  · exact onAlarm_undisturbed _ s rfl
  · exact refl_undisturbed s

theorem recomputeLevel_undisturbed (s : State) : Undisturbed s (recomputeLevel s) := by
  unfold recomputeLevel
  split
  · exact refl_undisturbed s
  · exact (onAlarm_undisturbed _ s rfl).trans (markChanged_undisturbed _)

theorem judgePermit_undisturbed (s : State) : Undisturbed s (judgePermit s) :=
  (Steady.of_same (by simp) (by simp) (by simp) (by simp) (by simp) (by simp)).undisturbed (by simp)

theorem stage_undisturbed (d : Draft) (s : State) : Undisturbed s (stage d s).2 := by
  have h : Onward s (stage d s).2 := .of_tells (by simp) ((tells_stage d s).mono (by simp)) (stage_endHold d s)
  exact (h.steady (by simp) (by simp) (by simp) (by simp)).undisturbed (by simp)

theorem eventRecord_undisturbed (d : Draft) (s : State) : Undisturbed s (eventRecord d s).2 := by
  have h : Onward s (eventRecord d s).2 := .of_tells (by simp) ((tells_eventRecord d s).mono (by simp)) (eventRecord_endHold d s)
  exact (h.steady (by simp) (by simp) (by simp) (by simp)).undisturbed (by simp)

/-- A holdup moves the end of a delay, in no other state (R75). -/
theorem extendDelay_undisturbed (w : Teller) (s : State) : Undisturbed s (extendDelay w s) := by
  have hs : Steady s (extendDelay w s) := .of_same (by simp) (by simp) (by simp) (by simp) (by simp) (by simp)
  by_cases hd : (s.dispense w).state = .delaying ∧ (s.dispense w).extended = false ∧ (s.dispense w).ending = false
  · have self : (extendDelay w s).dispense w =
        { s.dispense w with
          delayEnd := (s.dispense w).delayEnd + BitVec.ofNat 32 s.settings.holdupExtension, extended := true } := by
      rw [extendDelay, onDispense_self]
      exact if_pos hd
    have other (u : Teller) (hu : u ≠ w) : (extendDelay w s).dispense u = s.dispense u :=
      State.onDispense_dispense_other s w u _ hu
    refine ⟨hs, fun u => ?_, fun u hi => ?_⟩
    · by_cases hu : u = w
      · subst hu
        rw [self]
        exact ⟨rfl, rfl, rfl⟩
      · rw [other u hu]
        exact ⟨rfl, rfl, rfl⟩
    · by_cases hu : u = w
      · subst hu
        rw [hi] at hd
        exact absurd hd.1 (by simp [Dispense.idle])
      · rw [other u hu, hi]
  · have hsame : extendDelay w s = s := by
      unfold extendDelay
      have hself := onDispense_same w s
      unfold State.onDispense at hself ⊢
      simp only [State.dispense] at hself hd ⊢
      rw [if_neg hd]
      exact hself
    rw [hsame]
    exact refl_undisturbed s

theorem reportHoldup_undisturbed (z : Fin 16) (s : State) : Undisturbed s (reportHoldup z s) := by
  unfold reportHoldup
  simp only []
  split
  · exact (extendDelay_undisturbed .a s).trans (extendDelay_undisturbed .b _)
  · exact refl_undisturbed s

/-! ## Before and after the entry -/

/-- A READY part whose claim, dispenses and escrow a lock would find as in s. -/
structure AsFound (s t : State) : Prop where
  phase : t.startUp.phase = .ready
  owner : t.claim.owner = s.claim.owner
  waiting : t.claim.waiting = s.claim.waiting
  stack : t.escrow.stack = s.escrow.stack
  op : t.escrow.lockable = s.escrow.lockable
  stage : ∀ u : Teller, (t.dispense u).state = (s.dispense u).state ∧ (t.dispense u).deferred = (s.dispense u).deferred

/-- The lock has not come, and will find what it would have found in s; or it came and has done what it does. -/
def Heeds (s t : State) : Prop := (AsFound s t ∧ t.restricted .moduleLock = false) ∨ Locked s t

theorem heeds_self (s : State) (hp : s.startUp.phase = .ready) (hf : s.restricted .moduleLock = false) : Heeds s s :=
  .inl ⟨⟨hp, rfl, rfl, rfl, rfl, fun _ => ⟨rfl, rfl⟩⟩, hf⟩

theorem AsFound.steady {s t u : State} (h : AsFound s t) (k : Undisturbed t u) : AsFound s u := by
  refine ⟨by rw [k.steady.startUp]; exact h.phase, k.steady.owner.trans h.owner, k.steady.waiting.trans h.waiting,
    k.steady.stack.trans h.stack, (Escrow.lockable_of_op k.steady.op).trans h.op, fun w => ?_⟩
  obtain ⟨h1, h2⟩ := h.stage w
  obtain ⟨k1, k2, -⟩ := k.stage w
  exact ⟨k1.trans h1, k2.trans h2⟩

theorem HaltedIn.undisturbed {w : Teller} {s t : State} (h : HaltedIn w s) (k : Undisturbed s t) : HaltedIn w t := by
  obtain ⟨-, k2, k3⟩ := k.stage w
  exact h.imp (k.idle w) fun ⟨a, b, c, hc⟩ => ⟨k3.trans a, k2.trans b, c, k.steady.held _ hc⟩

theorem OpLocked.steady {op : Option EscrowOp} {s t : State} (h : OpLocked op s) (hop : t.escrow.op = s.escrow.op)
    (hh : ∀ e ∈ s.journal.endHold, e ∈ t.journal.endHold) : OpLocked op t := by
  have idle (k : s.escrow.lockable = none) : t.escrow.lockable = none := (Escrow.lockable_of_op hop).trans k
  cases op with
  | none => exact idle h
  | some x =>
    cases x with
    | insert o => exact hop.trans h
    | commit o => exact idle h
    | give o =>
      simp only [OpLocked, hop] at h ⊢
      split
      next he => rwa [if_pos he] at h
      next he =>
        rw [if_neg he] at h
        split
        next hn => rwa [if_pos hn] at h
        next hn =>
          rw [if_neg hn] at h
          exact h.imp id fun ⟨a, b⟩ => ⟨a, hh _ b⟩

theorem Locked.steady {s t u : State} (h : Locked s t) (k : Steady t u) (hh : ∀ w, HaltedIn w t → HaltedIn w u) : Locked s u where
  owner := k.owner.trans h.owner
  waiting := k.waiting.trans h.waiting
  loserTold w hw := k.lost _ (h.loserTold w hw)
  waitersTold e he := k.lost _ (h.waitersTold e he)
  granted hl hs := k.hold (h.granted hl hs)
  halted w hw := hh w (h.halted w hw)
  stack := k.stack.trans h.stack
  op := h.op.steady k.op k.held
  told p hp := k.told p hp (h.told p hp)

theorem Locked.undisturbed {s t u : State} (h : Locked s t) (k : Undisturbed t u) : Locked s u :=
  h.steady k.steady fun _ hw => hw.undisturbed k

theorem Heeds.undisturbed {s t u : State} (h : Heeds s t) (k : Undisturbed t u) : Heeds s u := by
  refine h.imp (fun ⟨hf, hl⟩ => ⟨hf.steady k, ?_⟩) (·.undisturbed k)
  rw [State.restricted, k.steady.restriction]
  exact hl

/-- What a lock does to a state that stands as s does, it does to s. -/
theorem Locked.of_found {s y t : State} (h : AsFound s y) (k : Locked y t) : Locked s t := by
  have hloser : y.loser = s.loser := by rw [State.loser, State.loser, h.owner]
  have hhalted (u : Teller) (hu : u ∈ s.haltedBy) : u ∈ y.haltedBy := by
    rw [State.mem_haltedBy] at hu ⊢
    rw [h.waiting, hloser, (h.stage u).1, (h.stage u).2]
    exact hu
  refine ⟨?_, k.waiting, fun u hu => k.loserTold u (hloser.trans hu), fun e he => k.waitersTold e (h.waiting ▸ he),
    fun hl hs => k.granted (hloser ▸ hl) (by rwa [h.stack]), fun u hu => k.halted u (hhalted u hu), k.stack.trans h.stack,
    h.op ▸ k.op, k.told⟩
  rw [k.owner, hloser, h.owner, Escrow.holder, Escrow.holder, h.stack]

/-! ## The set computed anew (R153) -/

/-- The set reported. -/
def State.setReported (after : Effects) (s : State) : State :=
  raiseRestriction (s.onAlarm fun u => { u with restriction := after, silentLine := after.has .silentLine })

theorem setReported_told (after : Effects) (s : State) (p : Port) (hp : p ≠ .m) : RestrictionTold p (s.setReported after) := by
  refine ⟨s.position.causes, ?_⟩
  have h := raiseRestriction_told (s.onAlarm fun u => { u with restriction := after, silentLine := after.has .silentLine }) p hp
  rw [State.setReported, (raiseRestriction_keeps _).2.2.2.2.2.2.2.2.2.2.1]
  exact h

theorem AsFound.setReported {s t : State} (h : AsFound s t) (after : Effects) : AsFound s (t.setReported after) := by
  have hc : (t.setReported after).claim = t.claim := by simp [State.setReported, State.onAlarm]
  have he : (t.setReported after).escrow = t.escrow := by simp [State.setReported, State.onAlarm]
  have hu : (t.setReported after).startUp = t.startUp := by simp [State.setReported, State.onAlarm]
  have hd (u : Teller) : (t.setReported after).dispense u = t.dispense u := by
    simp [State.setReported, State.onAlarm, State.dispense]
  exact {
    phase := by rw [hu]; exact h.phase
    owner := by rw [hc]; exact h.owner
    waiting := by rw [hc]; exact h.waiting
    stack := by rw [he]; exact h.stack
    op := by rw [he]; exact h.op
    stage := fun u => by rw [hd]; exact h.stage u }

theorem Locked.setReported {s t : State} (h : Locked s t) (after : Effects) : Locked s (t.setReported after) := by
  have htells : Tells [.restriction] t (t.setReported after) :=
    (tells_of_ports (t := t.onAlarm _) _ rfl).trans (tells_raiseRestriction _)
  have hlost (p : Port) (k : Told p (.claimEnded .lock) t) : Told p (.claimEnded .lock) (t.setReported after) :=
    htells p _ k (by simp [Notice.kind])
  have hj : (t.setReported after).journal = t.journal := by simp [State.setReported, State.onAlarm]
  have he : (t.setReported after).escrow = t.escrow := by simp [State.setReported, State.onAlarm]
  have hc : (t.setReported after).claim = t.claim := by simp [State.setReported, State.onAlarm]
  have hh : ∀ e ∈ t.journal.endHold, e ∈ (t.setReported after).journal.endHold := by simp [hj]
  exact {
    owner := by rw [hc]; exact h.owner
    waiting := by rw [hc]; exact h.waiting
    loserTold := fun u hu => hlost _ (h.loserTold u hu)
    waitersTold := fun e he => hlost _ (h.waitersTold e he)
    granted := fun hl hs => htells _ _ (h.granted hl hs) (by simp [Notice.kind])
    halted := fun u hu => (h.halted u hu).keep (by simp [State.setReported, State.onAlarm, State.dispense]) hh
    stack := by rw [he]; exact h.stack
    op := h.op.steady (by rw [he]) hh
    told := fun p hp => setReported_told after t p hp }

theorem Heeds.newRestriction {s t : State} (h : Heeds s t) (after : Effects) :
    Heeds s (newRestriction t.alarm.restriction after t) := by
  have hset : (t.setReported after).alarm.restriction = after := by simp [State.setReported, State.onAlarm]
  have hentered : Heeds s
      (if after.has .moduleLock && !t.alarm.restriction.has .moduleLock then lockEntered (t.setReported after)
       else t.setReported after) := by
    rcases h with ⟨hf, hl⟩ | hl
    · have hy := hf.setReported after
      by_cases ha : after.has .moduleLock = true
      · rw [if_pos (by rw [ha]; simpa [State.restricted] using hl)]
        exact .inr (.of_found hy (lockEntered_locked _ hy.phase (setReported_told after t)))
      · rw [if_neg (by simp [ha])]
        exact .inl ⟨hy, by rw [State.restricted, hset]; simpa using ha⟩
    · have hy := hl.setReported after
      split
      · rw [lockEntered_again _ _ hy]
        exact .inr hy
      · exact .inr hy
  have hslot (p : Prop) [Decidable p] (x : State) (hx : Heeds s x) : Heeds s (if p then judgePermit x else x) := by
    split
    · exact hx.undisturbed (judgePermit_undisturbed x)
    · exact hx
  have hsounder (p : Prop) [Decidable p] (x : State) (hx : Heeds s x) : Heeds s (if p then sounderOff x else x) := by
    split
    · exact hx.undisturbed (sounderOff_undisturbed x)
    · exact hx
  exact hsounder _ _ (hslot _ _ hentered)

theorem Heeds.recompute {s t : State} (h : Heeds s t) : Heeds s (recompute t) := by
  have hl := h.undisturbed (recomputeLevel_undisturbed t)
  unfold Machine.recompute
  simp only []
  split
  · exact hl
  · exact hl.newRestriction _

/-! ## The operations on one zone (R139, R142 to R146) -/

theorem Heeds.latch {s t : State} (h : Heeds s t) (z : Fin 16) (port : Option Port) (entry : Bool) : Heeds s (latch z port entry t) := by
  unfold Machine.latch
  have h1 := h.undisturbed (setZoneState_undisturbed z .pendingActive t)
  exact ((((h1.undisturbed (onZone_undisturbed z _ _)).undisturbed (eventRecord_undisturbed _ _)).undisturbed
    (soundFor_undisturbed z _)).undisturbed (reportHoldup_undisturbed z _)).recompute

theorem Heeds.activate {s t : State} (h : Heeds s t) (z : Fin 16) (port : Option Port) : Heeds s (activate z port t) := by
  unfold Machine.activate
  split
  · split
    · split
      · exact (h.undisturbed (onZone_undisturbed z _ t)).undisturbed (setZoneState_undisturbed z _ _)
      · exact h.latch z port false
    · exact ((h.undisturbed (setZoneState_undisturbed z _ t)).undisturbed (soundFor_undisturbed z _)).recompute
    all_goals exact h
  · exact h

theorem Heeds.restore {s t : State} (h : Heeds s t) (z : Fin 16) : Heeds s (restore z t) := by
  unfold Machine.restore
  split
  · exact (h.undisturbed (setZoneState_undisturbed z _ t)).recompute
  · exact (h.undisturbed (setZoneState_undisturbed z _ t)).recompute
  all_goals exact h

theorem Heeds.setInput {s t : State} (h : Heeds s t) (z : Fin 16) (active : Bool) : Heeds s (setInput z active t) := by
  have k := h.undisturbed (onZone_undisturbed z (fun r => { r with inputActive := active }) t)
  unfold Machine.setInput
  split
  · exact h
  · cases active
    · exact k.restore z
    · exact k.activate z none

theorem Heeds.momentary {s t : State} (h : Heeds s t) (z : Fin 16) (port : Option Port) : Heeds s (momentary z port t) := by
  unfold Machine.momentary
  split
  · exact h
  · exact (h.activate z port).restore z

theorem setTrouble_undisturbed (z : Fin 16) (mark : Bool) (s : State) : Undisturbed s (setTrouble z mark s) := by
  have k := (onZone_undisturbed z (fun r => { r with trouble := mark }) s).trans (markChanged_undisturbed _)
  unfold setTrouble
  simp only []
  split
  · exact refl_undisturbed s
  · split
    · exact k.trans (eventRecord_undisturbed _ _)
    · exact k

theorem Heeds.judgeReading {s t : State} (h : Heeds s t) (z : Fin 16) (x : Reading) : Heeds s (judgeReading z x t) := by
  have k := h.undisturbed (onZone_undisturbed z (fun r => { r with reading := x }) t)
  have calm := k.undisturbed (setTrouble_undisturbed z false _)
  have cut (p : Prop) [Decidable p] {x y : State} (hx : Heeds s x) (hy : Heeds s y) : Heeds s (if p then x else y) := by
    split
    · exact hx
    · exact hy
  unfold Machine.judgeReading
  simp only []
  cases x with
  | normal => exact calm.setInput z false
  | active => exact calm.setInput z true
  | open_ => exact cut _ (calm.setInput z true) (k.undisturbed (setTrouble_undisturbed z true _))
  | short => exact cut _ (calm.setInput z true) (k.undisturbed (setTrouble_undisturbed z true _))

theorem Heeds.reJudge {s t : State} (h : Heeds s t) (z : Fin 16) (before : Bool) : Heeds s (reJudge z before t) := by
  unfold Machine.reJudge
  split
  · exact h.activate z none
  · exact h

theorem Heeds.reJudgeAll {s t : State} (h : Heeds s t) (zs : List (Fin 16)) (before : Fin 16 → Bool) :
    Heeds s (reJudgeAll zs before t) := by
  unfold Machine.reJudgeAll
  induction zs generalizing t with
  | nil => exact h
  | cons z zs ih => exact ih (h.reJudge z (before z))

theorem endEntryTiming_undisturbed (z : Fin 16) (s : State) : Undisturbed s (endEntryTiming z s) := by
  unfold endEntryTiming
  split
  · exact (onZone_undisturbed z _ s).trans (setZoneState_undisturbed z _ _)
  · exact refl_undisturbed s

/-- Work done on zones one after the other. -/
theorem zones_undisturbed (f : Fin 16 → State → State) (hf : ∀ z x, Undisturbed x (f z x)) (zs : List (Fin 16)) (s : State) :
    Undisturbed s (zs.foldl (fun x z => f z x) s) := by
  induction zs generalizing s with
  | nil => exact refl_undisturbed s
  | cons z zs ih => exact (hf z s).trans (ih _)

/-! ## The requests of the alarm unit -/

theorem Heeds.applyZone {s t : State} (h : Heeds s t) (z : Fin 16) (c : ZoneConfig) : Heeds s (applyZone z c t) := by
  have hif (p : Prop) [Decidable p] (f : State → State) (x : State) (hx : Heeds s x) (hf : Heeds s x → Heeds s (f x)) :
      Heeds s (if p then f x else x) := by
    split
    · exact hf hx
    · exact hx
  have hdisabled (x : State) (hx : Heeds s x) : Heeds s (zoneDisabled z x) := by
    have k := hx.undisturbed (endEntryTiming_undisturbed z x)
    exact hif _ (fun y => markChanged (onZone z (fun r => { r with trouble := false }) y)) _ k fun k =>
      (k.undisturbed (onZone_undisturbed z _ _)).undisturbed (markChanged_undisturbed _)
  have henabled (x : State) (hx : Heeds s x) : Heeds s (zoneEnabled z x) := by
    unfold zoneEnabled
    split
    · exact hx.judgeReading z _
    · exact hx
  have k1 := hif (((t.zone z).config.enabled && !c.enabled) = true) (zoneDisabled z) _
    (h.undisturbed (onZone_undisturbed z (fun r => { r with config := c }) t)) (hdisabled _)
  exact (hif _ (zoneEnabled z) _ k1.recompute (henabled _)).reJudge z _

/-- The room check answers, or the request's own work does. -/
theorem Heeds.withRoom {s t : State} (n m : Nat) {k : Answer × State} (h : Heeds s t) (hk : Heeds s k.2) :
    Heeds s (withRoom n m t k).2 := by
  rcases withRoom_cases n m t k with e | ⟨-, e⟩
  · rwa [e]
  · rwa [e]

theorem Heeds.zoneSetOwner {s t : State} (h : Heeds s t) (ops : List Byte) : Heeds s (zoneSetOwner ops t).2 := by
  unfold Machine.zoneSetOwner
  split
  · simp only []
    split
    · exact h
    · exact h.withRoom _ _ ((h.undisturbed (stage_undisturbed _ t)).applyZone _ _)
  · exact h

theorem Heeds.armOwner {s t : State} (h : Heeds s t) : Heeds s (armOwner t).2 := by
  have k : Heeds s (acceptArm t).2 :=
    (((h.undisturbed (onAlarm_undisturbed _ t rfl)).undisturbed (stage_undisturbed _ _)).undisturbed
      (markChanged_undisturbed _)).reJudgeAll _ _
  unfold Machine.armOwner
  split
  · exact h
  · split
    · exact h
    · exact h.withRoom _ _ k

theorem Heeds.disarmOwner {s t : State} (h : Heeds s t) : Heeds s (disarmOwner t).2 := by
  have k1 := (h.undisturbed (onAlarm_undisturbed (fun u => { u with armed := false }) t rfl)).undisturbed
    (zones_undisturbed endEntryTiming endEntryTiming_undisturbed allZones _)
  have k2 := k1.undisturbed (zones_undisturbed (fun z => onZone z fun r => { r with bypassed := false })
    (fun z x => onZone_undisturbed z _ x) allZones _)
  have hpromise (x : State) (b : Bool) : Undisturbed x (x.onJournal fun j => { j with promised := b }) :=
    Steady.undisturbed (.of_same rfl rfl rfl rfl rfl rfl) rfl
  have k3 := (k2.undisturbed (hpromise _ true)).reJudgeAll (allZones.filter fun z => (t.zone z).bypassed) (fun _ => false)
  exact h.withRoom _ _
    (((k3.undisturbed (hpromise _ false)).undisturbed (stage_undisturbed _ _)).undisturbed (markChanged_undisturbed _))

theorem Heeds.bypassOwner {s t : State} (h : Heeds s t) (ops : List Byte) : Heeds s (bypassOwner ops t).2 := by
  have hzone (z : Fin 16) (x : State) : Undisturbed x (endEntryTiming z (onZone z (fun r => { r with bypassed := true }) x)) :=
    (onZone_undisturbed z _ x).trans (endEntryTiming_undisturbed z _)
  have hzones (zs : List (Fin 16)) : Heeds s (acceptBypass zs t).2 :=
    ((h.undisturbed (zones_undisturbed _ hzone zs t)).undisturbed (stage_undisturbed _ _)).undisturbed (markChanged_undisturbed _)
  unfold Machine.bypassOwner
  split
  · exact h
  · split
    · exact h
    · exact h.withRoom _ _ (hzones _)

theorem Heeds.alarmAckOwner {s t : State} (h : Heeds s t) (ops : List Byte) : Heeds s (alarmAckOwner ops t).2 := by
  have hack (named : Fin 16 → Bool) (z : Fin 16) (x : State) :
      Undisturbed x (if named z then setZoneState z (x.zone z).state.acked x else x) := by
    split
    · exact setZoneState_undisturbed z _ x
    · exact refl_undisturbed x
  have hzones (zs : List (Fin 16)) : Heeds s (acceptAck zs t).2 := by
    have k := h.undisturbed (zones_undisturbed _ (hack fun z => z ∈ zs) allZones t)
    unfold acceptAck
    simp only []
    split
    · exact k
    · exact (k.undisturbed (stage_undisturbed _ _)).recompute
  unfold Machine.alarmAckOwner
  split
  · exact h
  · split
    · exact h
    · exact h.withRoom _ _ (hzones _)

/-! ## The events of the alarm unit, and a frame at port M -/

theorem Heeds.monitorHeard {s t : State} (h : Heeds s t) : Heeds s (monitorHeard t) := by
  unfold Machine.monitorHeard
  split
  · exact (h.undisturbed (onAlarm_undisturbed _ t rfl)).setInput 14 false
  · exact h

theorem Heeds.readingHeld {s t : State} (h : Heeds s t) (z : Fin 14) : Heeds s (readingHeld z t) := by
  unfold Machine.readingHeld
  split
  · exact (h.undisturbed (onZone_undisturbed _ _ t)).judgeReading _ _
  · exact h

theorem Heeds.entryExpired {s t : State} (h : Heeds s t) (z : Fin 16) : Heeds s (entryExpired z t) := by
  unfold Machine.entryExpired
  simp only []
  split
  · split
    · exact h.latch z _ true
    · exact (h.latch z _ true).restore z
  · exact h

theorem Heeds.monitorExpired {s t : State} (h : Heeds s t) : Heeds s (monitorExpired t) := by
  unfold Machine.monitorExpired
  split
  · exact (h.undisturbed (onAlarm_undisturbed _ t rfl)).setInput 14 true
  · exact h

end Sys2Proof.Machine
end

section
/-! What each command's work outside the alarm unit leaves of that unit: all of it. -/
namespace Sys2Proof.Machine

@[simp] theorem ok_snd (r : Results) (s : State) : (ok r s).2 = s := rfl
@[simp] theorem okOrClamped_snd (b : Bool) (r : Results) (s : State) : (okOrClamped b r s).2 = s := rfl
@[simp] theorem accepted_snd (r : Results) (s : State) : (accepted r s).2 = s := rfl
@[simp] theorem refuse_snd (w : Reason) (s : State) : (refuse w s).2 = s := rfl
@[simp] theorem refuseWith_snd (w : Reason) (r : Results) (s : State) : (refuseWith w r s).2 = s := rfl
@[simp] theorem refuseDigit_snd (a b : Nat) (s : State) : (refuseDigit a b s).2 = s := rfl

/-- Work done on the elements of a list one after the other. -/
theorem foldl_alarm {α : Type} (f : State → α → State) (h : ∀ x a, (f x a).alarm = x.alarm) (l : List α) (s : State) :
    (l.foldl f s).alarm = s.alarm := by
  induction l generalizing s with
  | nil => rfl
  | cons a l ih => rw [List.foldl_cons, ih, h]

@[simp] theorem withRoom_alarm (n m : Nat) (s : State) (k : Answer × State) (h : k.2.alarm = s.alarm) :
    (withRoom n m s k).2.alarm = s.alarm := by
  rcases withRoom_cases n m s k with e | ⟨-, e⟩ <;> rw [e]
  exact h

@[simp] theorem withMargins_alarm (n m : Nat) (s : State) (k : Answer × State) (h : k.2.alarm = s.alarm) :
    (withMargins n m s k).2.alarm = s.alarm := by
  unfold withMargins
  split
  · rfl
  · exact withRoom_alarm n m s k h

@[simp] theorem ownModule_alarm (p : Port) (s : State) (k : Answer × State) (h : k.2.alarm = s.alarm) :
    (ownModule p s k).2.alarm = s.alarm := by
  unfold ownModule
  (repeat' split) <;> simp [h]

@[simp] theorem ownEscrow_alarm (p : Port) (s : State) (k : Answer × State) (h : k.2.alarm = s.alarm) :
    (ownEscrow p s k).2.alarm = s.alarm := by
  unfold ownEscrow
  refine ownModule_alarm p s _ ?_
  split <;> simp [h]

@[simp] theorem moduleReady_alarm (s : State) (k : Answer × State) (h : k.2.alarm = s.alarm) :
    (moduleReady s k).2.alarm = s.alarm := by
  unfold moduleReady
  split <;> simp [h]

/-! ## The claim -/

@[simp] theorem claimOwner_alarm (f : Frame) (s : State) : (claimOwner f s).2.alarm = s.alarm := by
  unfold claimOwner
  simp only []
  (repeat' split) <;> simp

@[simp] theorem releaseOwner_alarm (f : Frame) (s : State) : (releaseOwner f s).2.alarm = s.alarm := by
  unfold releaseOwner
  (repeat' split) <;> simp

@[simp] theorem idleExpired_alarm (s : State) : (idleExpired s).alarm = s.alarm := by
  unfold idleExpired
  (repeat' split) <;> simp

/-! ## Custody -/

@[simp] theorem applyPost_alarm (p : Port) (k : PostKind) (x : Nat) (balance : Int) (coinDue : Nat) (s : State) :
    (applyPost p k x balance coinDue s).2.alarm = s.alarm := by
  unfold applyPost
  simp

@[simp] theorem judgePost_alarm (p : Port) (kind : Option PostKind) (x : Nat) (expected : Option Int) (consumed : Bool) (s : State) :
    (judgePost p kind x expected consumed s).2.alarm = s.alarm := by
  unfold judgePost
  simp only []
  (repeat' split) <;> simp

@[simp] theorem postOwner_alarm (f : Frame) (consumed : Bool) (s : State) : (postOwner f consumed s).2.alarm = s.alarm := by
  unfold postOwner
  (repeat' split) <;> simp

@[simp] theorem applyHandover_alarm (o : HandoverOption) (a : Nat) (src dst : AccountId) (after : Account × Account) (s : State) :
    (applyHandover o a src dst after s).2.alarm = s.alarm := by
  unfold applyHandover
  simp

@[simp] theorem judgeHandover_alarm (o : HandoverOption) (a : Nat) (src dst : AccountId) (s : State) :
    (judgeHandover o a src dst s).2.alarm = s.alarm := by
  unfold judgeHandover
  simp only []
  (repeat' split) <;> simp

@[simp] theorem handoverBetween_alarm (src dst : AccountId) (option : Option HandoverOption) (amount : Except Nat Nat) (s : State) :
    (handoverBetween src dst option amount s).2.alarm = s.alarm := by
  unfold handoverBetween
  (repeat' split) <;> simp

@[simp] theorem handoverOwner_alarm (ops : List Byte) (s : State) : (handoverOwner ops s).2.alarm = s.alarm := by
  unfold handoverOwner
  (repeat' split) <;> simp

@[simp] theorem acceptLoad_alarm (k : Ix) (counts : Quad Nat) (s : State) : (acceptLoad k counts s).2.alarm = s.alarm := by
  unfold acceptLoad
  simp

@[simp] theorem loadCassette_alarm (k : Ix) (counts : Quad Nat) (s : State) : (loadCassette k counts s).2.alarm = s.alarm := by
  unfold loadCassette
  simp only []
  (repeat' split) <;> simp

@[simp] theorem loadOwner_alarm (ops : List Byte) (s : State) : (loadOwner ops s).2.alarm = s.alarm := by
  unfold loadOwner
  (repeat' split) <;> simp

@[simp] theorem releaseCassette_alarm (k : Ix) (s : State) : (releaseCassette k s).2.alarm = s.alarm := by
  unfold releaseCassette
  simp only []
  (repeat' split) <;> simp

@[simp] theorem acceptUnloadBin_alarm (x : UnloadPlace) (s : State) : (acceptUnloadBin x s).2.alarm = s.alarm := by
  unfold acceptUnloadBin
  simp

@[simp] theorem unloadPlace_alarm (x : UnloadPlace) (s : State) : (unloadPlace x s).2.alarm = s.alarm := by
  unfold unloadPlace
  (repeat' split) <;> simp

@[simp] theorem unloadOwner_alarm (ops : List Byte) (s : State) : (unloadOwner ops s).2.alarm = s.alarm := by
  unfold unloadOwner
  (repeat' split) <;> simp

@[simp] theorem setPresent_alarm (k : Ix) (present : Bool) (s : State) : (setPresent k present s).alarm = s.alarm := rfl

@[simp] theorem emptyRecord_alarm (k : Ix) (s : State) : (emptyRecord k s).alarm = s.alarm := by
  unfold emptyRecord
  simp

@[simp] theorem removeReleased_alarm (k : Ix) (s : State) : (removeReleased k s).alarm = s.alarm := by
  unfold removeReleased
  simp

@[simp] theorem loseDestination_alarm (k : Ix) (s : State) : (loseDestination k s).alarm = s.alarm := rfl

@[simp] theorem bookInsertion_alarm (k : Ix) (s : State) : (bookInsertion k s).alarm = s.alarm := by
  unfold bookInsertion
  simp only []
  (repeat' split) <;> simp

@[simp] theorem cassetteInserted_alarm (k : Ix) (s : State) : (cassetteInserted k s).alarm = s.alarm := by
  unfold cassetteInserted event
  (repeat' split) <;> simp

@[simp] theorem countCassette_alarm (c : Counted) (s : State) (k : Ix) : (countCassette c s k).alarm = s.alarm := by
  unfold countCassette
  (repeat' split) <;> simp

@[simp] theorem countBins_alarm (c : Counted) (s : State) : (countBins c s).alarm = s.alarm := rfl

@[simp] theorem settleCassette_alarm (s : State) (k : Ix) : (settleCassette s k).alarm = s.alarm := by
  unfold settleCassette
  simp

@[simp] theorem openPeriod_alarm (s : State) : (openPeriod s).alarm = s.alarm := rfl

@[simp] theorem acceptReconcile_alarm (c : Counted) (s : State) : (acceptReconcile c s).2.alarm = s.alarm := by
  unfold acceptReconcile
  simp [foldl_alarm]

@[simp] theorem reconcileCounted_alarm (c : Counted) (s : State) : (reconcileCounted c s).2.alarm = s.alarm := by
  unfold reconcileCounted
  (repeat' split) <;> simp

@[simp] theorem reconcileOwner_alarm (ops : List Byte) (s : State) : (reconcileOwner ops s).2.alarm = s.alarm := by
  unfold reconcileOwner
  (repeat' split) <;> simp

@[simp] theorem positionReadOwner_alarm (s : State) : (positionReadOwner s).2.alarm = s.alarm := by
  unfold positionReadOwner
  simp

/-! ## Dispensing -/

@[simp] theorem acceptDispense_alarm (t : Teller) (o : DispenseOperands) (amount : Nat) (m : MixResult) (consumed : Bool) (s : State) :
    (acceptDispense t o amount m consumed s).2.alarm = s.alarm := by
  unfold acceptDispense
  simp only []
  (repeat' split) <;> simp

@[simp] theorem judgeDispense_alarm (t : Teller) (o : DispenseOperands) (amount : Nat) (consumed : Bool) (s : State) :
    (judgeDispense t o amount consumed s).2.alarm = s.alarm := by
  have h := (requestMix_keeps t amount o.cap o.preference o.target s).2.2.2.2.2.2.2.2.2.1
  unfold judgeDispense
  split <;> rename_i hm <;> rw [hm] at h
  · exact h
  · (repeat' split) <;> simpa using h

@[simp] theorem refuseStale_alarm (s : State) : (refuseStale s).2.alarm = s.alarm := by
  unfold refuseStale
  simp only []
  (repeat' split) <;> simp

@[simp] theorem dispenseAt_alarm (t : Teller) (ops : List Byte) (consumed : Bool) (s : State) :
    (dispenseAt t ops consumed s).2.alarm = s.alarm := by
  unfold dispenseAt
  simp only []
  (repeat' split) <;> simp

@[simp] theorem dispenseOwner_alarm (f : Frame) (consumed : Bool) (s : State) :
    (dispenseOwner f consumed s).2.alarm = s.alarm := by
  unfold dispenseOwner
  (repeat' split) <;> simp

@[simp] theorem cancelAt_alarm (t : Teller) (s : State) : (cancelAt t s).2.alarm = s.alarm := by
  unfold cancelAt
  simp only []
  (repeat' split) <;> simp

@[simp] theorem cancelOwner_alarm (f : Frame) (s : State) : (cancelOwner f s).2.alarm = s.alarm := by
  unfold cancelOwner
  (repeat' split) <;> simp

@[simp] theorem delayEnded_alarm (t : Teller) (s : State) : (delayEnded t s).alarm = s.alarm := by
  unfold delayEnded
  simp only []
  (repeat' split) <;> simp

@[simp] theorem pocketEmptied_alarm (t : Teller) (s : State) : (pocketEmptied t s).alarm = s.alarm := by
  unfold pocketEmptied
  simp

/-! ## Depositing -/

@[simp] theorem depositOpenAt_alarm (t : Teller) (ops : List Byte) (s : State) : (depositOpenAt t ops s).2.alarm = s.alarm := by
  unfold depositOpenAt
  refine ownModule_alarm _ _ _ ?_
  (repeat' split) <;> simp

@[simp] theorem depositOpenOwner_alarm (f : Frame) (s : State) : (depositOpenOwner f s).2.alarm = s.alarm := by
  unfold depositOpenOwner
  (repeat' split) <;> simp

@[simp] theorem depositCloseOwner_alarm (f : Frame) (s : State) : (depositCloseOwner f s).2.alarm = s.alarm := by
  unfold depositCloseOwner
  refine ownEscrow_alarm _ _ _ ?_
  split <;> simp

@[simp] theorem acceptInsert_alarm (t : Teller) (s : State) : (acceptInsert t s).2.alarm = s.alarm := rfl

@[simp] theorem insertAt_alarm (t : Teller) (s : State) : (insertAt t s).2.alarm = s.alarm := by
  unfold insertAt
  refine ownEscrow_alarm _ _ _ (moduleReady_alarm _ _ ?_)
  (repeat' split)
  · rfl
  · rfl
  · rfl
  · exact withMargins_alarm _ _ _ _ (acceptInsert_alarm t s)

@[simp] theorem insertOwner_alarm (f : Frame) (s : State) : (insertOwner f s).2.alarm = s.alarm := by
  unfold insertOwner
  (repeat' split) <;> simp

@[simp] theorem setInsert_alarm (o : InsertOp) (s : State) : (setInsert o s).alarm = s.alarm := rfl

@[simp] theorem onFeeding_alarm (f : Bundle → Bundle) (s : State) : (onFeeding f s).alarm = s.alarm := rfl

@[simp] theorem timeEscrow_alarm (at_ : Sensor) (s : State) : (timeEscrow at_ s).alarm = s.alarm := rfl

@[simp] theorem noteTaken_alarm (s : State) : (noteTaken s).alarm = s.alarm := by
  unfold noteTaken
  (repeat' split) <;> simp

@[simp] theorem noteMissed_alarm (s : State) : (noteMissed s).alarm = s.alarm := by
  unfold noteMissed
  (repeat' split) <;> simp

@[simp] theorem acceptNote_alarm (d : Ix) (s : State) : (acceptNote d s).alarm = s.alarm := rfl

@[simp] theorem returnUnread_alarm (o : InsertOp) (s : State) : (returnUnread o s).alarm = s.alarm := rfl

@[simp] theorem routeGenuine_alarm (o : InsertOp) (d : Ix) (fit : Bool) (s : State) :
    (routeGenuine o d fit s).alarm = s.alarm := by
  unfold routeGenuine
  (repeat' split) <;> simp

@[simp] theorem routeSuspect_alarm (o : InsertOp) (s : State) : (routeSuspect o s).alarm = s.alarm := by
  unfold routeSuspect
  (repeat' split) <;> simp

@[simp] theorem judgeNote_alarm (v : NoteVerdict) (s : State) : (judgeNote v s).alarm = s.alarm := by
  unfold judgeNote
  (repeat' split) <;> simp

@[simp] theorem noteFed_alarm (o : InsertOp) (s : State) : (noteFed o s).alarm = s.alarm := by
  unfold noteFed
  simp only []
  (repeat' split) <;> simp

@[simp] theorem windNote_alarm (d : Ix) (fit : Bool) (s : State) : (windNote d fit s).alarm = s.alarm := rfl

@[simp] theorem drumEntered_alarm (s : State) : (drumEntered s).alarm = s.alarm := by
  unfold drumEntered
  (repeat' split) <;> simp

@[simp] theorem compartmentEntered_alarm (s : State) : (compartmentEntered s).alarm = s.alarm := by
  unfold compartmentEntered
  (repeat' split) <;> simp

@[simp] theorem intakeEmptied_alarm (t : Teller) (s : State) : (intakeEmptied t s).alarm = s.alarm := by
  unfold intakeEmptied
  (repeat' split) <;> simp

@[simp] theorem acceptReturn_alarm (p : Port) (every : Bool) (s : State) : (acceptReturn p every s).2.alarm = s.alarm := rfl

@[simp] theorem returnOwner_alarm (p : Port) (every : Bool) (s : State) : (returnOwner p every s).2.alarm = s.alarm := by
  unfold returnOwner
  refine ownEscrow_alarm _ _ _ (moduleReady_alarm _ _ ?_)
  split
  · rfl
  · split
    · rfl
    · exact withRoom_alarm _ _ _ _ (acceptReturn_alarm p every s)

@[simp] theorem unwindNote_alarm (d : Ix) (s : State) : (unwindNote d s).alarm = s.alarm := rfl

@[simp] theorem setReturn_alarm (o : ReturnOp) (s : State) : (setReturn o s).alarm = s.alarm := rfl

@[simp] theorem returnExit_alarm (o : ReturnOp) (s : State) : (returnExit o s).alarm = s.alarm := by
  unfold returnExit
  (repeat' split) <;> simp

@[simp] theorem returnGoesOn_alarm (o : ReturnOp) (s : State) : (returnGoesOn o s).alarm = s.alarm := by
  unfold returnGoesOn
  simp only []
  (repeat' split) <;> simp

@[simp] theorem bookReturned_alarm (d : Ix) (s : State) : (bookReturned d s).alarm = s.alarm := rfl

@[simp] theorem returnPocketEntered_alarm (s : State) : (returnPocketEntered s).alarm = s.alarm := by
  unfold returnPocketEntered
  (repeat' split) <;> simp

@[simp] theorem compareOwner_alarm (f : Frame) (s : State) : (compareOwner f s).2.alarm = s.alarm := by
  unfold compareOwner
  refine ownEscrow_alarm _ _ _ ?_
  (repeat' split) <;> simp

@[simp] theorem setCommit_alarm (o : CommitOp) (s : State) : (setCommit o s).alarm = s.alarm := rfl

@[simp] theorem chooseNext_alarm (o : CommitOp) (s : State) : (chooseNext o s).alarm = s.alarm := by
  unfold chooseNext
  simp only []
  (repeat' split) <;> simp

@[simp] theorem acceptCommit_alarm (p : Port) (consumed : Bool) (s : State) : (acceptCommit p consumed s).2.alarm = s.alarm := by
  unfold acceptCommit
  simp

@[simp] theorem judgeCommit_alarm (p : Port) (consumed : Bool) (s : State) : (judgeCommit p consumed s).2.alarm = s.alarm := by
  unfold judgeCommit
  simp only []
  (repeat' split) <;> simp

@[simp] theorem commitOwner_alarm (f : Frame) (consumed : Bool) (s : State) : (commitOwner f consumed s).2.alarm = s.alarm := by
  unfold commitOwner
  refine ownEscrow_alarm _ _ _ (moduleReady_alarm _ _ ?_)
  (repeat' split) <;> simp

@[simp] theorem commitExit_alarm (o : CommitOp) (s : State) : (commitExit o s).alarm = s.alarm := by
  unfold commitExit
  (repeat' split) <;> simp

@[simp] theorem drumExited_alarm (s : State) : (drumExited s).alarm = s.alarm := by
  unfold drumExited
  (repeat' split) <;> simp

@[simp] theorem bookEntry_alarm (k d : Ix) (fit : Bool) (s : State) : (bookEntry k d fit s).alarm = s.alarm := by
  unfold bookEntry
  simp

@[simp] theorem cassetteEntered_alarm (k : Ix) (s : State) : (cassetteEntered k s).alarm = s.alarm := by
  unfold cassetteEntered
  simp only []
  (repeat' split) <;> simp

@[simp] theorem missBundle_alarm (b : Bundle) (s : State) : (missBundle b s).alarm = s.alarm := by
  unfold missBundle
  simp

@[simp] theorem drumEmptied_alarm (s : State) : (drumEmptied s).alarm = s.alarm := by
  unfold drumEmptied
  simp only []
  (repeat' split) <;> simp

/-! ## The slot -/

@[simp] theorem setSupervisor_alarm (open_ : Bool) (s : State) : (setSupervisor open_ s).2.alarm = s.alarm := by
  unfold setSupervisor
  simp

@[simp] theorem emptyBin_alarm (s : State) : (emptyBin s).2.alarm = s.alarm := by
  unfold emptyBin
  simp

@[simp] theorem binEmptiedOwner_alarm (s : State) : (binEmptiedOwner s).2.alarm = s.alarm := by
  unfold binEmptiedOwner
  (repeat' split) <;> simp

@[simp] theorem gripped_alarm (s : State) : (gripped s).alarm = s.alarm := by
  unfold gripped
  (repeat' split) <;> simp

@[simp] theorem giveEnvelopeBack_alarm (s : State) : (giveEnvelopeBack s).alarm = s.alarm := by
  unfold giveEnvelopeBack
  simp

@[simp] theorem enterImprint_alarm (s : State) : (enterImprint s).alarm = s.alarm := rfl

@[simp] theorem imprintReported_alarm (s : State) : (imprintReported s).alarm = s.alarm := by
  unfold imprintReported
  split <;> simp

@[simp] theorem intakeExpired_alarm (s : State) : (intakeExpired s).alarm = s.alarm := by
  unfold intakeExpired
  (repeat' split) <;> simp

@[simp] theorem reverseExpired_alarm (s : State) : (reverseExpired s).alarm = s.alarm := by
  unfold reverseExpired
  split <;> simp

@[simp] theorem onEnvelope_alarm (f : Envelope → Envelope) (s : State) : (onEnvelope f s).alarm = s.alarm := rfl

@[simp] theorem enterDrop_alarm (s : State) : (enterDrop s).alarm = s.alarm := rfl

@[simp] theorem imprintFailed_alarm (s : State) : (imprintFailed s).alarm = s.alarm := by
  unfold imprintFailed
  simp only []
  (repeat' split) <;> simp

@[simp] theorem imprinterReported_alarm (r : ImprintResult) (s : State) : (imprinterReported r s).alarm = s.alarm := by
  unfold imprinterReported
  (repeat' split) <;> simp

@[simp] theorem dropReported_alarm (s : State) : (dropReported s).alarm = s.alarm := by
  unfold dropReported
  (repeat' split) <;> simp

@[simp] theorem dropExpired_alarm (s : State) : (dropExpired s).alarm = s.alarm := by
  unfold dropExpired
  (repeat' split) <;> simp

@[simp] theorem notFound_alarm (s : State) : (notFound s).alarm = s.alarm := by
  unfold notFound
  (repeat' split) <;> simp

@[simp] theorem clearRunExpired_alarm (s : State) : (clearRunExpired s).alarm = s.alarm := by
  unfold clearRunExpired
  (repeat' split) <;> simp

@[simp] theorem takeKey_alarm (press : KeyEntry → KeyEntry) (s : State) : (takeKey press s).alarm = s.alarm := by
  unfold takeKey
  (repeat' split) <;> simp

@[simp] theorem receiptReported_alarm (r : ReceiptResult) (s : State) : (receiptReported r s).alarm = s.alarm := by
  unfold receiptReported
  (repeat' split) <;> simp

/-! ## The journal -/

@[simp] theorem journalReadOwner_alarm (ops : List Byte) (s : State) : (journalReadOwner ops s).2.alarm = s.alarm := by
  unfold journalReadOwner
  simp only []
  (repeat' split) <;> simp

@[simp] theorem scanFrom_alarm (p : Port) (start count : Nat) (d : Direction) (m : ScanMode) (kind : Option RecordKind)
    (port : Option (Option Port)) (amount : Except Nat (Option Int)) (s : State) :
    (scanFrom p start count d m kind port amount s).2.alarm = s.alarm := by
  unfold scanFrom
  (repeat' split) <;> simp

@[simp] theorem journalScanOwner_alarm (f : Frame) (s : State) : (journalScanOwner f s).2.alarm = s.alarm := by
  unfold journalScanOwner
  simp only []
  (repeat' split) <;> simp

@[simp] theorem applyTrim_alarm (n : Nat) (s : State) : (applyTrim n s).alarm = s.alarm := by
  unfold applyTrim
  simp only []
  (repeat' split) <;> simp

@[simp] theorem trimOwner_alarm (ops : List Byte) (s : State) : (trimOwner ops s).2.alarm = s.alarm := by
  unfold trimOwner
  simp

@[simp] theorem syncOwner_alarm (s : State) : (syncOwner s).2.alarm = s.alarm := by
  unfold syncOwner
  (repeat' split) <;> simp

@[simp] theorem syncTimedOut_alarm (p : Port) (s : State) : (syncTimedOut p s).alarm = s.alarm := by
  unfold syncTimedOut
  (repeat' split) <;> simp

/-! ## The note path -/

@[simp] theorem setMisses_alarm (t : Teller) (k : Ix) (n : Nat) (s : State) : (setMisses t k n s).alarm = s.alarm := rfl

@[simp] theorem stopForAudit_alarm (t : Teller) (s : State) : (stopForAudit t s).alarm = s.alarm := rfl

@[simp] theorem readForPick_alarm (t : Teller) (k : Ix) (s : State) : (readForPick t k s).alarm = s.alarm := by
  unfold readForPick
  simp only []
  (repeat' split) <;> simp

@[simp] theorem failCassette_alarm (t : Teller) (k d : Ix) (s : State) : (failCassette t k d s).alarm = s.alarm := by
  unfold failCassette
  simp

@[simp] theorem countMiss_alarm (p : Pick) (s : State) : (countMiss p s).alarm = s.alarm := by
  unfold countMiss
  simp only []
  (repeat' split) <;> simp

@[simp] theorem emptyPick_alarm (p : Pick) (s : State) : (emptyPick p s).alarm = s.alarm := by
  unfold emptyPick
  simp only []
  (repeat' split) <;> simp

@[simp] theorem bookPick_alarm (k d : Ix) (m : Nat) (s : State) : (bookPick k d m s).alarm = s.alarm := by
  unfold bookPick
  simp

@[simp] theorem notesPicked_alarm (p : Pick) (m : Multiplicity) (s : State) : (notesPicked p m s).alarm = s.alarm := by
  unfold notesPicked
  simp

@[simp] theorem pickReport_alarm (m : Multiplicity) (s : State) : (pickReport m s).alarm = s.alarm := by
  unfold pickReport
  (repeat' split) <;> simp

@[simp] theorem routeNote_alarm (p : Pick) (m : Multiplicity) (r : NoteCheck) (s : State) :
    (routeNote p m r s).alarm = s.alarm := by
  unfold routeNote
  (repeat' split) <;> simp

@[simp] theorem checkNote_alarm (r : NoteCheck) (s : State) : (checkNote r s).alarm = s.alarm := by
  unfold checkNote
  (repeat' split) <;> simp

@[simp] theorem noteArrived_alarm (a : Arrival) (s : State) : (noteArrived a s).alarm = s.alarm := rfl

@[simp] theorem jamIdle_alarm (fault : ModuleFault) (s : State) : (jamIdle fault s).alarm = s.alarm := rfl

@[simp] theorem noteJammed_alarm (lastSeen : Sensor) (s : State) : (noteJammed lastSeen s).alarm = s.alarm := by
  unfold noteJammed
  (repeat' split) <;> simp

@[simp] theorem noteDrawn_alarm (report : Option Ix) (s : State) : (noteDrawn report s).alarm = s.alarm := by
  unfold noteDrawn
  simp only []
  (repeat' split) <;> simp

@[simp] theorem purgeSourceEmpty_alarm (d : Draw) (s : State) : (purgeSourceEmpty d s).alarm = s.alarm := by
  unfold purgeSourceEmpty
  (repeat' split) <;> simp

@[simp] theorem retractEnded_alarm (t : Teller) (d : Draw) (s : State) : (retractEnded t d s).alarm = s.alarm := by
  unfold retractEnded
  simp

@[simp] theorem stopSourceEmpty_alarm (t : Teller) (why : StopReason) (d : Draw) (s : State) :
    (stopSourceEmpty t why d s).alarm = s.alarm := by
  unfold stopSourceEmpty
  (repeat' split) <;> simp

@[simp] theorem sourceEmpty_alarm (s : State) : (sourceEmpty s).alarm = s.alarm := by
  unfold sourceEmpty
  (repeat' split) <;> simp

@[simp] theorem clearModule_alarm (s : State) : (clearModule s).2.alarm = s.alarm := by
  unfold clearModule
  (repeat' split) <;> simp

@[simp] theorem clearSlot_alarm (s : State) : (clearSlot s).2.alarm = s.alarm := by
  unfold clearSlot
  (repeat' split) <;> simp

@[simp] theorem jamClearOwner_alarm (f : Frame) (s : State) : (jamClearOwner f s).2.alarm = s.alarm := by
  unfold jamClearOwner
  (repeat' split) <;> simp

/-! ## The ports and the clock -/

@[simp] theorem statusOwner_alarm (f : Frame) (s : State) : (statusOwner f s).2.alarm = s.alarm := by
  unfold statusOwner
  simp only []
  (repeat' split) <;> simp

@[simp] theorem clearFaultsOwner_alarm (f : Frame) (s : State) : (clearFaultsOwner f s).2.alarm = s.alarm := rfl

@[simp] theorem approveOwner_alarm (ops : List Byte) (s : State) : (approveOwner ops s).2.alarm = s.alarm := by
  unfold approveOwner
  (repeat' split) <;> simp

@[simp] theorem approvalExpired_alarm (p : Port) (s : State) : (approvalExpired p s).alarm = s.alarm := rfl

@[simp] theorem moveDelay_alarm (shift : Word32) (t : Teller) (s : State) : (moveDelay shift t s).alarm = s.alarm := rfl

@[simp] theorem acceptClock_alarm (count : Word32) (s : State) : (acceptClock count s).2.alarm = s.alarm := by
  unfold acceptClock
  simp

@[simp] theorem clockSetOwner_alarm (ops : List Byte) (s : State) : (clockSetOwner ops s).2.alarm = s.alarm := by
  unfold clockSetOwner
  simp only []
  (repeat' split) <;> simp

@[simp] theorem tick_alarm (s : State) : (tick s).alarm = s.alarm := rfl

@[simp] theorem calendarEnds_alarm (s : State) : (calendarEnds s).alarm = s.alarm := by
  unfold calendarEnds
  (repeat' split) <;> simp

@[simp] theorem setFrameFlag_alarm (p : Port) (s : State) : (setFrameFlag p s).alarm = s.alarm := rfl

/-! ## The settings -/

@[simp] theorem onSettings_alarm (f : Settings → Settings) (s : State) : (onSettings f s).alarm = s.alarm := rfl

@[simp] theorem newBinCapacity_alarm (s : State) : (newBinCapacity s).alarm = s.alarm := by
  unfold newBinCapacity
  simp only []
  (repeat' split) <;> simp

@[simp] theorem writeSetting_alarm (x : Setting) (v : Nat) (s : State) : (writeSetting x v s).alarm = s.alarm := by
  unfold writeSetting
  (repeat' split) <;> simp

@[simp] theorem recordSetting_alarm (x : Setting) (before applied : List Byte) (s : State) :
    (recordSetting x before applied s).alarm = s.alarm := by
  unfold recordSetting
  simp

@[simp] theorem acceptNumber_alarm (x : Setting) (operand : Nat) (s : State) : (acceptNumber x operand s).2.alarm = s.alarm := by
  unfold acceptNumber
  simp

@[simp] theorem acceptMode_alarm (k : Ix) (mode : CassetteMode) (index : Option Ix) (s : State) :
    (acceptMode k mode index s).2.alarm = s.alarm := by
  unfold acceptMode
  simp

@[simp] theorem setDenomination_alarm (d : Ix) (v : Nat) (s : State) : (setDenomination d v s).2.alarm = s.alarm := by
  unfold setDenomination
  simp only []
  (repeat' split) <;> simp

@[simp] theorem setMode_alarm (k : Ix) (ops : List Byte) (s : State) : (setMode k ops s).2.alarm = s.alarm := by
  unfold setMode
  simp only []
  (repeat' split) <;> simp

@[simp] theorem setNumber_alarm (x : Setting) (v : Nat) (s : State) : (setNumber x v s).2.alarm = s.alarm := by
  unfold setNumber
  simp only []
  (repeat' split) <;> simp

@[simp] theorem setOwnerBlock_alarm (ops : List Byte) (s : State) : (setOwnerBlock ops s).2.alarm = s.alarm := by
  unfold setOwnerBlock
  (repeat' split) <;> simp

/-! ## The transmitters and the journal's writes -/

@[simp] theorem restartOwner_alarm (s : State) : (restartOwner s).2.alarm = s.alarm := rfl

@[simp] theorem frameSent_alarm (p : Port) (s : State) : (frameSent p s).alarm = s.alarm := by
  unfold frameSent
  (repeat' split) <;> simp

@[simp] theorem raiseDone_alarm (n : Nat) (s : State) : (raiseDone n s).alarm = s.alarm := by
  unfold raiseDone
  simp [foldl_alarm]

@[simp] theorem answerSync_alarm (p : Port) (s : State) : (answerSync p s).alarm = s.alarm := by
  unfold answerSync
  (repeat' split) <;> simp

@[simp] theorem answerSyncs_alarm (s : State) : (answerSyncs s).alarm = s.alarm := by
  unfold answerSyncs
  simp

@[simp] theorem retainHead_alarm (r : Record) (rest : List Record) (s : State) : (retainHead r rest s).alarm = s.alarm := rfl

@[simp] theorem retryWrite_alarm (s : State) : (retryWrite s).alarm = s.alarm := by
  unfold retryWrite
  (repeat' split) <;> simp

/-- A write that ends outside CHECK. -/
theorem checkGoesOn_ready (s : State) (h : s.startUp.phase = .ready) : checkGoesOn s = s := by
  unfold checkGoesOn
  rw [if_neg (by simp [h])]

theorem writeCompleted_alarm (s : State) (h : s.startUp.phase = .ready) : (writeCompleted s).alarm = s.alarm := by
  unfold writeCompleted
  split
  · split
    · rfl
    · simp only []
      have hraise (n : Nat) (x : State) : (raiseDone n x).startUp = x.startUp := by
        have fold (l : List WaitingDone) (y : State) :
            (l.foldl (fun y w => raise w.port (.opDone w.done) y) y).startUp = y.startUp := by
          induction l generalizing y with
          | nil => rfl
          | cons w l ih => rw [List.foldl_cons, ih, (raise_keeps _ _ _).1]
        exact fold _ _
      have hsync (p : Port) (x : State) : (answerSync p x).startUp = x.startUp := by
        unfold answerSync
        (repeat' split) <;> simp
      rw [checkGoesOn_ready]
      · simp
      · simp only [drainEndHold_keeps, answerSyncs, hsync, hraise]
        exact h
  · rfl

theorem writeFailedOnce_alarm (s : State) (h : s.startUp.phase = .ready) : (writeFailedOnce s).alarm = s.alarm := by
  have hgiven (x : State) (hx : x.startUp.phase = .ready) : (writeGivenUp x).alarm = x.alarm := by
    unfold writeGivenUp
    rw [if_neg (by simp [hx])]
    simp only []
    split <;> simp
  unfold writeFailedOnce
  split
  · simp only []
    split
    · exact hgiven _ h
    · rfl
  · rfl

/-- A warm reset leaves the part in CHECK or in PURGE. -/
theorem warmReset_phase (w : WarmSource) (s : State) : (warmReset w s).startUp.phase ≠ .ready := by
  have hslot (b : Bool) (x : State) : (startSlot b x).startUp = x.startUp := by
    unfold startSlot
    (repeat' split) <;> simp
  have hcut (x : State) : (cutEscrow x).startUp = x.startUp := by
    unfold cutEscrow
    split <;> simp
  have hpurge (x : State) : (enterPurge false false x).startUp.phase = .purge := by
    unfold enterPurge
    simp only [hslot, startPurge_keeps, hcut]
  by_cases hs : s.journal.staging = []
  · rw [warmReset_clear w s hs, continueCheck]
    simp [hpurge]
  · rw [warmReset_staged w s hs]
    exact Phase.noConfusion

end Sys2Proof.Machine
end

section
/-! MODULE_LOCK brought by any command (O49): either the lock has done what it does, or it did not come. -/
namespace Sys2Proof.Machine

/-! ## Requests -/

/-- A port's buffer, flags and approval have no part in what a lock finds or tells. -/
theorem onPort_undisturbed (p : Port) (f : PortState → PortState) (s : State)
    (hf : ∀ q, (f q).notices = q.notices ∧ (f q).transmitter = q.transmitter) : Undisturbed s (s.onPort p f) := by
  have htold (q : Port) (n : Notice) (h : Told q n s) : Told q n (s.onPort p f) := by
    unfold Told at *
    by_cases e : q = p
    · subst e
      rw [onPort_get_self, (hf _).1, (hf _).2]
      exact h
    · rwa [onPort_get_other _ _ _ _ e]
  refine Steady.undisturbed (t := s.onPort p f) ⟨rfl, rfl, rfl, rfl, rfl, rfl, fun q => htold q _, htold _ _, ?_, fun _ => id⟩ rfl
  exact fun q _ ⟨c, h⟩ => ⟨c, htold q _ h⟩

theorem formReply_undisturbed (p : Port) (status : Status) (reason : Option Reason) (results : Results) (s : State) :
    Undisturbed s (formReply p status reason results s) := by
  unfold formReply
  refine onPort_undisturbed _ _ _ fun q => ?_
  split <;> exact ⟨rfl, rfl⟩

theorem touchIdle_undisturbed (r : Request) (p : Port) (s : State) : Undisturbed s (touchIdle r p s) := by
  unfold touchIdle
  split
  · exact Steady.undisturbed ⟨rfl, rfl, rfl, rfl, rfl, rfl, fun _ => id, id, fun _ _ => id, fun _ => id⟩ rfl
  · exact refl_undisturbed s

theorem consumeApproval_undisturbed (r : Request) (p : Port) (s : State) : Undisturbed s (consumeApproval r p s).2 := by
  unfold consumeApproval
  split
  · exact refl_undisturbed s
  · split
    · exact onPort_undisturbed p (fun q => { q with approval := none }) s fun q => ⟨rfl, rfl⟩
    · exact refl_undisturbed s

theorem Heeds.giveAnswer {s : State} (p : Port) (x : Answer × State) (h : Heeds s x.2) : Heeds s (giveAnswer p x) := by
  obtain ⟨a, t⟩ := x
  cases a with
  | reply st why res => exact h.undisturbed (formReply_undisturbed p st why res t)
  | wait n =>
    unfold Machine.giveAnswer
    refine h.undisturbed (onPort_undisturbed _ _ _ fun q => ?_)
    split <;> exact ⟨rfl, rfl⟩

theorem Heeds.hearFrame {s t : State} (h : Heeds s t) (p : Port) : Heeds s (hearFrame p t) := by
  unfold Machine.hearFrame
  split
  · exact h.monitorHeard
  · exact h

theorem Heeds.takeConsuming {s t : State} (h : Heeds s t) (r : Request) (f : Frame) (owner : Bool → State → Answer × State)
    (ho : ∀ b x, Heeds s x → Heeds s (owner b x).2) : Heeds s (takeConsuming r f owner t) := by
  have k := h.hearFrame f.port
  unfold Machine.takeConsuming takeFrame
  simp only []
  split
  · split
    · exact k.undisturbed (onPort_undisturbed _ _ _ fun q => ⟨rfl, rfl⟩)
    · have kh : Heeds s (hold r.code f (Machine.hearFrame f.port t)) := k.undisturbed (onPort_undisturbed _ _ _ fun q => ⟨rfl, rfl⟩)
      refine Heeds.giveAnswer _ _ ?_
      split
      · have kc := kh.undisturbed (consumeApproval_undisturbed r f.port _)
        unfold passPort
        simp only []
        split
        · exact kc
        · split
          · exact kc
          · exact ho _ _ (kc.undisturbed (touchIdle_undisturbed r f.port _))
      · exact kh
  · exact h

/-- The alarm unit is as the frame's hearing left it. -/
theorem takeFrame_alarm (code : Byte) (f : Frame) (answer : State → Answer × State) (s : State)
    (ha : ∀ x, (answer x).2.alarm = x.alarm) :
    (takeFrame code f answer s).alarm = (hearFrame f.port s).alarm ∨ takeFrame code f answer s = s := by
  have hgive (p : Port) (x : Answer × State) : (giveAnswer p x).alarm = x.2.alarm := by
    obtain ⟨a, t⟩ := x
    cases a <;> simp [giveAnswer]
  unfold takeFrame
  simp only []
  split
  · refine .inl ?_
    split
    · rfl
    · rw [hgive]
      split
      · rw [ha]
        simp
      · simp
  · exact .inr rfl

theorem passPort_alarm (r : Request) (f : Frame) (owner : Bool → State → Answer × State) (ho : ∀ b x, (owner b x).2.alarm = x.alarm)
    (s : State) : (passPort r f owner s).2.alarm = s.alarm := by
  unfold passPort
  simp only []
  (repeat' split) <;> simp [ho]

/-! ## A frame at port M brings no lock (R140) -/

theorem recompute_restriction (s : State) : (recompute s).alarm.restriction = s.alarm.latchedEffects := by
  have hlevel : (recomputeLevel s).alarm.latchedEffects = s.alarm.latchedEffects := by
    unfold recomputeLevel
    split <;> rfl
  have hnew (before after : Effects) (x : State) : (newRestriction before after x).alarm.restriction = after := by
    unfold newRestriction
    simp only []
    (repeat' split) <;> simp [sounderOff, State.onAlarm]
  unfold recompute
  simp only []
  split
  next h => rw [← hlevel, h]
  next => rw [hnew, hlevel]

/-- A restore brings no effect into the set (R144, R153). -/
theorem restore_brings_none (z : Fin 16) (s : State) (e : Effect) (hd : s.alarm.restriction = s.alarm.latchedEffects)
    (h : s.restricted e = false) : (restore z s).restricted e = false := by
  have hset (x : ZoneState) (hx : x.latched = (s.zone z).state.latched ∨ x.latched = false) :
      (recompute (setZoneState z x s)).restricted e = false := by
    have hz := (setZoneState_zones z x s).1
    have hl : (setZoneState z x s).alarm.latchedEffects = (s.alarm.setZone z { s.zone z with state := x }).latchedEffects :=
      (AlarmUnit.derived_of_zones _ _ hz).2
    rw [State.restricted, recompute_restriction, hl]
    rw [State.restricted, hd] at h
    rcases AlarmUnit.latchedEffects_setZone false s.alarm z { s.zone z with state := x } e hx rfl with k | k
    · rw [k, h]
    · exact k
  unfold restore
  cases hs : (s.zone z).state with
  | pendingActive => exact hset _ (.inl (by rw [hs]; rfl))
  | ackedActive => exact hset _ (.inr rfl)
  | quiet => exact h
  | entryTiming => exact h
  | pendingRestored => exact h

theorem monitorHeard_brings_none (s : State) (e : Effect) (hd : AlarmDerived s) (h : s.restricted e = false) :
    (monitorHeard s).restricted e = false := by
  unfold monitorHeard
  split
  · unfold setInput
    split
    · exact h
    · refine restore_brings_none 14 _ e ?_ h
      refine hd.2.1.trans (AlarmUnit.derived_congr _ _ fun z => ?_).2
      by_cases hz : z = 14
      · subst hz
        have k := AlarmUnit.zone_setZone_self s.alarm 14 { s.zone 14 with inputActive := false }
        exact ⟨congrArg (·.state.pending) k.symm, congrArg (·.state.latched) k.symm, congrArg (·.config) k.symm⟩
      · have k := AlarmUnit.zone_setZone_other s.alarm 14 z { s.zone 14 with inputActive := false } hz
        exact ⟨congrArg (·.state.pending) k.symm, congrArg (·.state.latched) k.symm, congrArg (·.config) k.symm⟩
  · exact h

/-! ## The end of the step -/

theorem proceedRetract_keeps_halted (w u : Teller) (s : State) (h : HaltedIn u s) : HaltedIn u (proceedRetract w s) := by
  by_cases hu : u = w
  · subst hu
    have hw : s.retractWaits u = false := by
      rcases h with h | ⟨h, -⟩
      · simp [State.retractWaits, h, Dispense.idle]
      · simp [State.retractWaits, h]
    unfold proceedRetract
    rw [if_neg (by simp [hw])]
    exact h
  · exact h.keep (dispense_other w u _ _ (proceedRetract_within w s) hu) (proceedRetract_onward w s).held

theorem proceedDeferred_keeps_halted (w u : Teller) (s : State) (h : HaltedIn u s) : HaltedIn u (proceedDeferred w s) := by
  by_cases hu : u = w
  · subst hu
    have hw : ¬((s.dispense u).state = .queued ∧ (s.dispense u).deferred = true ∧ s.opInFlight u.other.port = false) := by
      rintro ⟨hs, hd, -⟩
      rcases h with h | ⟨-, h, -⟩
      · rw [h] at hs
        exact absurd hs (by simp [Dispense.idle])
      · rw [h] at hd
        exact absurd hd (by simp)
    unfold proceedDeferred
    simp only []
    rw [if_neg hw]
    exact h
  · exact h.keep (dispense_other w u _ _ (proceedDeferred_within w s) hu) (proceedDeferred_onward w s).held

theorem takenUp_keeps_halted (u : Teller) (s : State) (h : HaltedIn u s) : HaltedIn u (takenUp s) :=
  proceedDeferred_keeps_halted _ u _ (proceedDeferred_keeps_halted _ u _
    (proceedRetract_keeps_halted _ u _ (proceedRetract_keeps_halted _ u _ h)))

theorem takenUp_steady (s : State) : Steady s (takenUp s) := by
  have hk := takenUp_kept s
  obtain ⟨ho, hw⟩ := hk .claim (by simp)
  exact (takenUp_onward s).steady (hk .startUp (by simp)) ho hw (hk .escrow (by simp))

/-- Where nothing waits to be taken up, the end of the step disturbs nothing. -/
theorem settle_undisturbed (s : State) (hq : Quiet s) (hp : s.powered = true) : Undisturbed s (settle s) := by
  have hk := settle_keeps_quiet s hq hp
  obtain ⟨ho, hw⟩ := hk .claim (by simp)
  have he : (settle s).escrow = s.escrow := hk .escrow (by simp)
  have hj : (settle s).journal = s.journal := hk .journal (by simp)
  have ha := hk .alarm (by simp)
  simp only [Kept] at ha
  have hr : (settle s).alarm.restriction = s.alarm.restriction := by rw [← ha]
  have htold (p : Port) (n : Notice) (hn : n.kind ≠ .alarmChange) (h : Told p n s) : Told p n (settle s) :=
    settle_told p n s hq hp h hn
  refine Steady.undisturbed ⟨hr, hk .startUp (by simp), ho, hw, by rw [he], by rw [he], fun p => htold p _ (by simp [Notice.kind]),
    htold _ _ (by simp [Notice.kind]), fun p _ ⟨c, h⟩ => ⟨c, ?_⟩, by simp [hj]⟩ (hk .dispenses (by simp))
  rw [hr]
  exact htold p _ (by simp [Notice.kind]) h

theorem Locked.settle {s t : State} (h : Locked s t) (hp : t.powered = true) : Locked s (settle t) := by
  have hup : (takenUp t).powered = true := by
    rw [State.powered, (takenUp_steady t).startUp]
    exact hp
  rw [settle_takenUp t hp]
  exact (h.steady (takenUp_steady t) fun w => takenUp_keeps_halted w t).undisturbed (settle_undisturbed _ (takenUp_quiet t) hup)

end Sys2Proof.Machine
end

section
/-! MODULE_LOCK brought by any command (O49), command by command. -/
namespace Sys2Proof.Machine

/-- What a command of a READY part without MODULE_LOCK has come to, but for the end of the step. -/
def LockOutcome (s t : State) : Prop := Heeds s t ∨ t.restricted .moduleLock = false ∨ t.startUp.phase ≠ .ready

theorem settle_set (s : State) : (settle s).startUp = s.startUp ∧ (settle s).restricted .moduleLock = s.restricted .moduleLock := by
  by_cases hp : s.powered = true
  · have hk := settle_kept s hp
    have ha := hk .alarm (by simp)
    simp only [Kept] at ha
    exact ⟨hk .startUp (by simp), by rw [State.restricted, State.restricted, ← ha]⟩
  · unfold settle
    rw [if_neg hp]
    exact ⟨rfl, rfl⟩

/-- A command that ends READY under MODULE_LOCK has done what the lock does. -/
theorem LockOutcome.locked {s t : State} (h : LockOutcome s t) (hp : (settle t).startUp.phase = .ready)
    (hl : (settle t).restricted .moduleLock = true) : Locked s (settle t) := by
  obtain ⟨hu, hr⟩ := settle_set t
  rw [hu] at hp
  rw [hr] at hl
  have hpower : t.powered = true := by simp [State.powered, hp]
  rcases h with (⟨-, hf⟩ | h) | hf | hn
  · rw [hf] at hl
    exact absurd hl (by simp)
  · exact h.settle hpower
  · rw [hf] at hl
    exact absurd hl (by simp)
  · exact absurd hp hn

section
variable {s : State}

theorem outcome_of_alarm {t : State} (hf : s.restricted .moduleLock = false) (h : t.alarm = s.alarm) : LockOutcome s t :=
  .inr (.inl (by rw [State.restricted, h]; exact hf))

/-- An event outside the alarm unit. -/
theorem outcome_of_event (f : State → State) (hf : s.restricted .moduleLock = false) (h : (f s).alarm = s.alarm) :
    LockOutcome s (event f s) := by
  unfold event
  split
  · exact outcome_of_alarm hf h
  · exact outcome_of_alarm hf rfl

/-- An event of the alarm unit. -/
theorem outcome_of_alarming (f : State → State) (hf : s.restricted .moduleLock = false) (h : Heeds s (f s)) :
    LockOutcome s (event f s) := by
  unfold event
  split
  · exact .inl h
  · exact outcome_of_alarm hf rfl

theorem hearFrame_brings_none (p : Port) (hd : AlarmDerived s) (hf : s.restricted .moduleLock = false) :
    (hearFrame p s).restricted .moduleLock = false := by
  unfold hearFrame
  split
  · exact monitorHeard_brings_none s _ hd hf
  · exact hf

/-- A request of another block than the alarm unit. -/
theorem outcome_of_frame (code : Byte) (f : Frame) (answer : State → Answer × State) (hd : AlarmDerived s)
    (hf : s.restricted .moduleLock = false) (ha : ∀ x, (answer x).2.alarm = x.alarm) : LockOutcome s (takeFrame code f answer s) := by
  rcases takeFrame_alarm code f answer s ha with h | h
  · exact .inr (.inl (by rw [State.restricted, h]; exact hearFrame_brings_none f.port hd hf))
  · rw [h]
    exact outcome_of_alarm hf rfl

theorem outcome_of_consuming (r : Request) (f : Frame) (owner : Bool → State → Answer × State) (hd : AlarmDerived s)
    (hf : s.restricted .moduleLock = false) (ho : ∀ b x, (owner b x).2.alarm = x.alarm) :
    LockOutcome s (takeConsuming r f owner s) :=
  outcome_of_frame r.code f _ hd hf (passPort_alarm r f owner ho)

theorem outcome_of_request (r : Request) (f : Frame) (owner : State → Answer × State) (hd : AlarmDerived s)
    (hf : s.restricted .moduleLock = false) (ho : ∀ x, (owner x).2.alarm = x.alarm) :
    LockOutcome s (takeRequest r f owner s) := outcome_of_consuming r f _ hd hf fun _ => ho

/-- A command of a port that needs the supply alone. -/
theorem outcome_of_powered (f : State → State) (hf : s.restricted .moduleLock = false) (h : (f s).restricted .moduleLock = false) :
    LockOutcome s (whenPowered f s) := by
  unfold whenPowered
  split
  · exact .inr (.inl h)
  · exact .inr (.inl hf)

theorem frameDiscarded_brings_none (p : Port) (why : FrameFault) (hd : AlarmDerived s) (hf : s.restricted .moduleLock = false) :
    (frameDiscarded p why s).restricted .moduleLock = false := by
  cases why with
  | notRequest => exact hearFrame_brings_none p hd hf
  | badLength | noStopBit | lineBreak | crcMismatch => exact hf

theorem overran_brings_none (p : Port) (hd : AlarmDerived s) (hf : s.restricted .moduleLock = false) :
    (overran p s).restricted .moduleLock = false := by
  unfold overran
  split
  · exact hearFrame_brings_none p hd hf
  · exact hf

/-- A request of the alarm unit. -/
theorem outcome_of_asking (r : Request) (f : Frame) (owner : State → Answer × State) (hp : s.startUp.phase = .ready)
    (hf : s.restricted .moduleLock = false) (ho : ∀ x, Heeds s x → Heeds s (owner x).2) : LockOutcome s (takeRequest r f owner s) :=
  .inl ((heeds_self s hp hf).takeConsuming r f _ fun _ => ho)

end

/-! ## The removal of a cassette, and a pullback (R22, R125) -/

theorem AsFound.of_kept {s t u : State} (h : AsFound s t) (hu : u.startUp = t.startUp) (hc : u.claim = t.claim)
    (hd : u.dispenses = t.dispenses) (hs : u.escrow.stack = t.escrow.stack) (ho : u.escrow.lockable = t.escrow.lockable) :
    AsFound s u where
  phase := by rw [hu]; exact h.phase
  owner := by rw [hc]; exact h.owner
  waiting := by rw [hc]; exact h.waiting
  stack := hs.trans h.stack
  op := ho.trans h.op
  stage w := by rw [State.dispense, hd]; exact h.stage w

theorem bookRemoval_outcome (k : Ix) (s t : State) (h : AsFound s t) (hf : t.restricted .moduleLock = false) :
    LockOutcome s (bookRemoval k t) := by
  have hv : AsFound s (verifyCassette k t).2 := h.of_kept (by simp) (by simp) (by simp) (by simp) (by simp)
  have hvf : (verifyCassette k t).2.restricted .moduleLock = false := by
    rw [State.restricted, (verifyCassette_keeps k t).2.2.2.2.2.2.2.2.2.1]
    exact hf
  unfold bookRemoval
  simp only []
  generalize (verifyCassette k t).2 = x at hv hvf
  have hlose : AsFound s (loseDestination k x) := by
    refine hv.of_kept rfl rfl rfl rfl ?_
    unfold loseDestination Escrow.lockable
    cases hop : x.escrow.op with
    | none => simp [hop]
    | some op => cases op <;> simp [hop]
  split
  · exact .inr (.inl hvf)
  · exact .inr (.inl (by rw [State.restricted, removeReleased_alarm]; exact hvf))
  · refine .inl ?_
    unfold removeUnreleased
    exact Heeds.momentary (.inl ⟨hlose.of_kept (by simp [emptyRecord]) (by simp [emptyRecord]) (by simp [emptyRecord])
      (by simp [emptyRecord]) (by simp [emptyRecord]), by simpa [State.restricted, emptyRecord] using hvf⟩) 3 none

theorem ungripped_heeds (s : State) (h : Heeds s s) : Heeds s (ungripped s) := by
  have hslot (f : Depository → Depository) (x : State) : Undisturbed x (x.onDepository f) :=
    Steady.undisturbed (t := x.onDepository f) (.of_same rfl rfl rfl rfl rfl rfl) rfl
  have hback : Undisturbed s (giveEnvelopeBack s) :=
    Steady.undisturbed (.of_same (by simp) (by simp [giveEnvelopeBack]) (by simp [giveEnvelopeBack]) (by simp [giveEnvelopeBack])
      (by simp [giveEnvelopeBack]) (by simp [giveEnvelopeBack])) (by simp [giveEnvelopeBack])
  have hpull (x : State) (hx : Heeds s x) : Heeds s (enterPullback x) := by
    unfold enterPullback
    simp only []
    split
    · split
      · exact (hx.undisturbed (hslot _ x)).momentary 5 none
      · exact hx.undisturbed (hslot _ x)
    · exact hx.undisturbed (hslot _ x)
  unfold ungripped
  split
  · split
    · exact h.undisturbed hback
    · exact hpull _ (h.undisturbed hback)
  · exact h

theorem cassetteRemoved_outcome (k : Ix) (s : State) (hp : s.startUp.phase = .ready) (hf : s.restricted .moduleLock = false) :
    LockOutcome s (cassetteRemoved k s) := by
  unfold cassetteRemoved event
  split
  · split
    · exact bookRemoval_outcome k s _ ⟨hp, rfl, rfl, rfl, rfl, fun _ => ⟨rfl, rfl⟩⟩ hf
    · exact .inr (.inl hf)
  · exact .inr (.inl hf)

/-! ## A loop, a duress raise, a transmitter -/

theorem Heeds.loopRead {s t : State} (h : Heeds s t) (z : Fin 14) (r : Reading) : Heeds s (loopRead z r t) := by
  have hloop : Undisturbed t (setLoop z r t) := Steady.undisturbed (t := setLoop z r t) (.of_same rfl rfl rfl rfl rfl rfl) rfl
  unfold Machine.loopRead
  simp only []
  (repeat' split)
  · exact h
  · exact (h.undisturbed hloop).undisturbed (onZone_undisturbed _ _ _)
  · exact h.undisturbed hloop

theorem Heeds.duressRaised {s t : State} (h : Heeds s t) (w : Teller) : Heeds s (duressRaised w t) := by
  unfold Machine.duressRaised
  split
  · exact h
  · have k := onPort_undisturbed w.port (fun q => { q with duressDue := q.duressDue - 1 }) t fun _ => ⟨rfl, rfl⟩
    exact (h.undisturbed k).momentary 15 _

theorem frameSent_outcome (p : Port) (s : State) (hf : s.restricted .moduleLock = false) (hp : s.powered = true) :
    LockOutcome s (if s.powered then if p = .s ∧ s.restartSending then warmReset .restart s else frameSent p s else s) := by
  rw [if_pos hp]
  split
  · exact .inr (.inr (warmReset_phase _ s))
  · exact outcome_of_alarm hf (frameSent_alarm p s)

/-! ## Every command -/

theorem of_done {s t y : State} (h : LockOutcome s y) (e : done y = .next t) : ∃ y : State, t = settle y ∧ LockOutcome s y := by
  rw [done, Host.Outcome.next.injEq] at e
  exact ⟨y, e.symm, h⟩

theorem exec_lock (c : Instr) (s t : State) (hp : s.startUp.phase = .ready) (hd : AlarmDerived s)
    (hf : s.restricted .moduleLock = false) (he : exec c s = .next t) :
    ∃ y : State, t = settle y ∧ LockOutcome s y := by
  have hs := heeds_self s hp hf
  have hpower : s.powered = true := by simp [State.powered, hp]
  have same (y : State) (h : y.alarm = s.alarm) : LockOutcome s y := outcome_of_alarm hf h
  cases c with
  | dispense f => exact of_done (outcome_of_consuming _ f _ hd hf (dispenseOwner_alarm f)) he
  | cancel f => exact of_done (outcome_of_request _ f _ hd hf (cancelOwner_alarm f)) he
  | claim f => exact of_done (outcome_of_request _ f _ hd hf (claimOwner_alarm f)) he
  | release f => exact of_done (outcome_of_request _ f _ hd hf (releaseOwner_alarm f)) he
  | depositOpen f => exact of_done (outcome_of_request _ f _ hd hf (depositOpenOwner_alarm f)) he
  | depositClose f => exact of_done (outcome_of_request _ f _ hd hf (depositCloseOwner_alarm f)) he
  | insertNotes f => exact of_done (outcome_of_request _ f _ hd hf (insertOwner_alarm f)) he
  | returnLast f => exact of_done (outcome_of_request _ f _ hd hf (returnOwner_alarm f.port false)) he
  | returnAll f => exact of_done (outcome_of_request _ f _ hd hf (returnOwner_alarm f.port true)) he
  | compareEscrow f => exact of_done (outcome_of_request _ f _ hd hf (compareOwner_alarm f)) he
  | commit f => exact of_done (outcome_of_consuming _ f _ hd hf (commitOwner_alarm f)) he
  | post f => exact of_done (outcome_of_consuming _ f _ hd hf (postOwner_alarm f)) he
  | handover f => exact of_done (outcome_of_request _ f _ hd hf (handoverOwner_alarm f.operands)) he
  | load f => exact of_done (outcome_of_request _ f _ hd hf (loadOwner_alarm f.operands)) he
  | unload f => exact of_done (outcome_of_request _ f _ hd hf (unloadOwner_alarm f.operands)) he
  | unloadBin f => exact of_done (outcome_of_request _ f _ hd hf (unloadOwner_alarm f.operands)) he
  | reconcile f => exact of_done (outcome_of_request _ f _ hd hf (reconcileOwner_alarm f.operands)) he
  | jamClearModule f => exact of_done (outcome_of_request _ f _ hd hf (jamClearOwner_alarm f)) he
  | jamClearSlot f => exact of_done (outcome_of_request _ f _ hd hf (jamClearOwner_alarm f)) he
  | slotOpen f => exact of_done (outcome_of_request _ f _ hd hf (setSupervisor_alarm true)) he
  | slotClose f => exact of_done (outcome_of_request _ f _ hd hf (setSupervisor_alarm false)) he
  | binEmptied f => exact of_done (outcome_of_request _ f _ hd hf binEmptiedOwner_alarm) he
  | journalRead f => exact of_done (outcome_of_request _ f _ hd hf (journalReadOwner_alarm f.operands)) he
  | journalScan f => exact of_done (outcome_of_request _ f _ hd hf (journalScanOwner_alarm f)) he
  | trim f => exact of_done (outcome_of_request _ f _ hd hf (trimOwner_alarm f.operands)) he
  | sync f => exact of_done (outcome_of_request _ f _ hd hf syncOwner_alarm) he
  | status f => exact of_done (outcome_of_request _ f _ hd hf (statusOwner_alarm f)) he
  | positionRead f => exact of_done (outcome_of_request _ f _ hd hf positionReadOwner_alarm) he
  | clearFaults f => exact of_done (outcome_of_request _ f _ hd hf (clearFaultsOwner_alarm f)) he
  | approve f => exact of_done (outcome_of_request _ f _ hd hf (approveOwner_alarm f.operands)) he
  | clockSet f => exact of_done (outcome_of_request _ f _ hd hf (clockSetOwner_alarm f.operands)) he
  | setSetting f => exact of_done (outcome_of_request _ f _ hd hf (setOwnerBlock_alarm f.operands)) he
  | restart f => exact of_done (outcome_of_request _ f _ hd hf restartOwner_alarm) he
  | alarmList f => exact of_done (outcome_of_request _ f (alarmListOwner f.operands) hd hf fun _ => rfl) he
  | unknownRequest code f => exact of_done (outcome_of_frame code f _ hd hf fun _ => rfl) he
  | zoneSet f => exact of_done (outcome_of_asking _ f _ hp hf fun _ hx => hx.zoneSetOwner _) he
  | arm f => exact of_done (outcome_of_asking _ f _ hp hf fun _ hx => hx.armOwner) he
  | disarm f => exact of_done (outcome_of_asking _ f _ hp hf fun _ hx => hx.disarmOwner) he
  | bypass f => exact of_done (outcome_of_asking _ f _ hp hf fun _ hx => hx.bypassOwner _) he
  | alarmAck f => exact of_done (outcome_of_asking _ f _ hp hf fun _ hx => hx.alarmAckOwner _) he
  | silence f => exact of_done (outcome_of_asking _ f _ hp hf fun x hx => hx.undisturbed (sounderOff_undisturbed x)) he
  | invalidFrame p why => exact of_done (outcome_of_powered (frameDiscarded p why) hf (frameDiscarded_brings_none p why hd hf)) he
  | frameGapTimeout p => exact of_done (outcome_of_powered (setFrameFlag p) hf hf) he
  | overrun p => exact of_done (outcome_of_powered (overran p) hf (overran_brings_none p hd hf)) he
  | frameSent p => exact of_done (frameSent_outcome p s hf hpower) he
  | duressRaise w => exact of_done (outcome_of_alarming _ hf (hs.duressRaised w)) he
  | claimIdleExpiry => exact of_done (outcome_of_event _ hf (by split <;> simp)) he
  | delayEnd w => exact of_done (outcome_of_event _ hf (delayEnded_alarm w s)) he
  | presentTimerExpiry w => exact of_done (outcome_of_event _ hf (by split <;> simp)) he
  | pocketEmpty w => exact of_done (outcome_of_event _ hf (by split <;> simp)) he
  | pickEvent m => exact of_done (outcome_of_event _ hf (pickReport_alarm m s)) he
  | noteCheck r => exact of_done (outcome_of_event _ hf (checkNote_alarm r s)) he
  | noteSensorArrival a => exact of_done (outcome_of_event _ hf (noteArrived_alarm a s)) he
  | noteJam x => exact of_done (outcome_of_event _ hf (noteJammed_alarm x s)) he
  | retractNoteCounted d => exact of_done (outcome_of_event _ hf (noteDrawn_alarm d s)) he
  | drawSourceEmpty => exact of_done (outcome_of_event _ hf (sourceEmpty_alarm s)) he
  | cassetteRemoval k => exact of_done (cassetteRemoved_outcome k s hp hf) he
  | cassetteInsertion k => exact of_done (same _ (by simp)) he
  | feedTake => exact of_done (outcome_of_event _ hf (noteTaken_alarm s)) he
  | feedMiss => exact of_done (outcome_of_event _ hf (noteMissed_alarm s)) he
  | insertVerdict v => exact of_done (outcome_of_event _ hf (judgeNote_alarm v s)) he
  | drumEntry => exact of_done (outcome_of_event _ hf (drumEntered_alarm s)) he
  | compartmentEntry => exact of_done (outcome_of_event _ hf (compartmentEntered_alarm s)) he
  | returnPocketEntry => exact of_done (outcome_of_event _ hf (returnPocketEntered_alarm s)) he
  | intakeEmpty w => exact of_done (outcome_of_event _ hf (intakeEmptied_alarm w s)) he
  | drumExit => exact of_done (outcome_of_event _ hf (drumExited_alarm s)) he
  | drumEmpty => exact of_done (outcome_of_event _ hf (drumEmptied_alarm s)) he
  | cassetteEntry k => exact of_done (outcome_of_event _ hf (cassetteEntered_alarm k s)) he
  | gripOn => exact of_done (outcome_of_event _ hf (gripped_alarm s)) he
  | gripOff => exact of_done (outcome_of_alarming _ hf (ungripped_heeds s hs)) he
  | imprintReport => exact of_done (outcome_of_event _ hf (imprintReported_alarm s)) he
  | intakeTimerExpiry => exact of_done (outcome_of_event _ hf (intakeExpired_alarm s)) he
  | reverseTimerExpiry => exact of_done (outcome_of_event _ hf (reverseExpired_alarm s)) he
  | imprinterReport r => exact of_done (outcome_of_event _ hf (imprinterReported_alarm r s)) he
  | imprinterTimeout => exact of_done (outcome_of_event _ hf (by split <;> simp)) he
  | dropReport => exact of_done (outcome_of_event _ hf (dropReported_alarm s)) he
  | dropTimerExpiry => exact of_done (outcome_of_event _ hf (dropExpired_alarm s)) he
  | clearRunExpiry => exact of_done (outcome_of_event _ hf (clearRunExpired_alarm s)) he
  | mouthClear => exact of_done (outcome_of_event _ hf rfl) he
  | keyDigit d => exact of_done (outcome_of_event _ hf (takeKey_alarm _ s)) he
  | keyEnter => exact of_done (outcome_of_event _ hf (takeKey_alarm _ s)) he
  | keyClear => exact of_done (outcome_of_event _ hf (takeKey_alarm _ s)) he
  | keypadTimerExpiry => exact of_done (outcome_of_event _ hf (by split <;> simp)) he
  | receiptPrinterReport r => exact of_done (outcome_of_event _ hf (receiptReported_alarm r s)) he
  | paperLoaded => exact of_done (outcome_of_event _ hf rfl) he
  | loopReading z r => exact of_done (.inl (hs.loopRead z r)) he
  | debouncedReadingChange z => exact of_done (outcome_of_alarming _ hf (hs.readingHeld z)) he
  | entryTimerExpiry z => exact of_done (outcome_of_alarming _ hf (hs.entryExpired z)) he
  | monitorTimerExpiry => exact of_done (outcome_of_alarming _ hf hs.monitorExpired) he
  | sounderTimerExpiry =>
    refine of_done (outcome_of_alarming _ hf ?_) he
    split
    · exact hs.undisturbed (sounderOff_undisturbed s)
    · exact hs
  | approvalExpiry p => exact of_done (outcome_of_event _ hf (approvalExpired_alarm p s)) he
  | syncTimeout p => exact of_done (outcome_of_event _ hf (syncTimedOut_alarm p s)) he
  | writeComplete =>
    refine of_done (same _ ?_) he
    rw [if_pos hpower]
    exact writeCompleted_alarm s hp
  | writeFailed =>
    refine of_done (same _ ?_) he
    rw [if_pos hpower]
    exact writeFailedOnce_alarm s hp
  | stalledRetry =>
    refine of_done (same _ ?_) he
    split <;> simp
  | clockTick => exact of_done (same _ (by simp)) he
  | clockCalendarEnd => exact of_done (same _ (by simp)) he
  | supplyApplied x y z =>
    refine of_done (same _ ?_) he
    unfold supplyApplied
    rw [if_pos hpower]
  | powerLoss => exact of_done (.inr (.inr Phase.noConfusion)) he
  | resetLine =>
    refine of_done ?_ he
    rw [if_pos hpower]
    exact .inr (.inr (warmReset_phase _ s))
  | restartReset =>
    refine of_done ?_ he
    split
    · exact .inr (.inr (warmReset_phase _ s))
    · exact same _ rfl
  | startUpReady =>
    refine of_done (same _ ?_) he
    unfold startUpReady
    rw [if_neg (by simp [State.purgeEnded, hp])]

/-- A command after which MODULE_LOCK is in the set, where it was not before, has done what the lock does. -/
theorem lock_taken (c : Instr) (s t : State) (hp : s.startUp.phase = .ready) (hd : AlarmDerived s) (he : exec c s = .next t)
    (ht : t.startUp.phase = .ready) (hf : s.restricted .moduleLock = false) (hl : t.restricted .moduleLock = true) :
    Locked s t := by
  obtain ⟨y, rfl, h⟩ := exec_lock c s t hp hd hf he
  exact h.locked ht hl

end Sys2Proof.Machine
end

section
/-! The ends that a lock brings, made one after the other where the journal has room for them (R55, R91, R163). -/
namespace Sys2Proof.Machine

/-! ## Room for the ends -/

/-- The journal has room for k ends, made one after the other (R163). -/
def EndsRoom (k : Nat) (s : State) : Prop :=
  k = 0 ∨ (s.journal.endHold = [] ∧ k ≤ s.journal.stagingFree ∧ ∃ n, s.journal.next = some n ∧ n + k ≤ Config.lastSequence + 1)

theorem EndsRoom.of_journal {k : Nat} {s t : State} (h : EndsRoom k s) (hj : t.journal = s.journal) : EndsRoom k t := by
  unfold EndsRoom
  rw [hj]
  exact h

/-- A record staged leaves room for one end less. -/
theorem EndsRoom.staged {k : Nat} {s t : State} {r : Record} (h : EndsRoom (k + 1) s) (hs : Staged r s t)
    (hh : t.journal.endHold = s.journal.endHold) (hp : t.journal.promised = s.journal.promised) : EndsRoom k t := by
  obtain ⟨hold, free, n, hn, hlast⟩ := h.resolve_left (by omega)
  obtain ⟨hseq, -, -, hstaging, -, -, -, -, hnext⟩ := hs
  rw [hn, Option.some.injEq] at hseq
  rw [← hseq] at hnext
  cases k with
  | zero => exact .inl rfl
  | succ k =>
    refine .inr ⟨hh.trans hold, ?_, n + 1, ?_, by omega⟩
    · simp only [Journal.stagingFree, hstaging, hp, List.length_append, List.length_singleton] at free ⊢
      omega
    · rw [hnext, if_pos (by omega)]

theorem stageApplied_promised (d : Draft) (s : State) : (stageApplied d s).2.journal.promised = s.journal.promised := by
  unfold stageApplied
  simp

theorem finishDispense_held (w : Teller) (outcome : Nat) (taken : Quad Nat) (due : Bool) (reason : Option Reason)
    (carried : Results) (s : State) :
    (finishDispense w outcome taken due reason carried s).journal.endHold = s.journal.endHold ∧
      (finishDispense w outcome taken due reason carried s).journal.promised = s.journal.promised := by
  rw [finishDispense_eq]
  generalize hd : dispenseDraft _ _ _ _ _ _ _ = draft
  generalize he : dispenseDone _ _ _ _ _ _ _ _ = done
  have hj : (bookCoinDue (remainderAccount w (s.dispense w).target) (if due then (s.dispense w).remainder else 0)
      (bookBalance (drawerOf w) (s.value taken) (s.onPosition fun p => p.takeAll w taken)).2).2.journal = s.journal := by simp
  generalize (bookCoinDue _ _ _).2 = x at hj ⊢
  have hx : (stageApplied draft (release w.port .dispense x)).2.journal.endHold = s.journal.endHold ∧
      (stageApplied draft (release w.port .dispense x)).2.journal.promised = s.journal.promised := by
    rw [stageApplied_endHold, stageApplied_promised, release_journal, hj]
    exact ⟨rfl, rfl⟩
  unfold awaitDurable
  split <;> simpa [State.onDispense] using hx

/-! ## One end -/

/-- What the end of a dispense that had nothing in flight leaves, where the journal has room for it. -/
structure EndMade (u : Teller) (k : Nat) (s t : State) : Prop where
  quiet : Quiet t
  room : EndsRoom k t
  ended : ∃ n : Nat, DispenseEnded u 7 Quad.zero n s.position s t
  idle : t.dispense u = Dispense.idle

theorem endDispense_made (u : Teller) (k : Nat) (s : State) (hq : Quiet s) (hroom : EndsRoom (k + 1) s)
    (hcalm : (s.dispense u).state.inFlight = false) : EndMade u k s (endDispense u 7 Quad.zero false none .none s) := by
  obtain ⟨hold, hfree, n, hn, -⟩ := hroom.resolve_left (by omega)
  have hend : EndRoom n s := ⟨hold, by omega, hn⟩
  have hended := endDispense_unpaid u 7 n s (endDispense u 7 Quad.zero false none .none s) hend
    ⟨KeptBut.refl _ _, fun _ _ h _ => h⟩
  obtain ⟨hdisp, hpath, -, -, ⟨r, hstaged, -⟩, -⟩ := id hended
  have hheld : (endDispense u 7 Quad.zero false none .none s).journal.endHold = s.journal.endHold ∧
      (endDispense u 7 Quad.zero false none .none s).journal.promised = s.journal.promised := by
    unfold endDispense
    rw [holdOrFinish_now _ _ (by simpa using hold) (by simpa using hend.2.1)]
    obtain ⟨h1, h2⟩ := finishDispense_held u 7 Quad.zero false none .none
      (stopTimers (.dispense u) (s.onDispense u fun d => { d with ending := true, deferred := false }))
    exact ⟨h1.trans (by simp), h2.trans (by simp)⟩
  have he := (endDispense_within u 7 Quad.zero false none .none s).escrow
  generalize endDispense u 7 Quad.zero false none .none s = t at *
  exact ⟨quiet_idles u s t hq hcalm hdisp (by rw [hpath]) (by rw [hpath]) he, hroom.staged hstaged hheld.1 hheld.2, ⟨n, hended⟩,
    by rw [State.dispense, hdisp]; exact Pair.get_set_self _ _ _⟩

/-! ## One end after the other -/

/-- A state that stands as another does in all that the ends of dispenses read and change. -/
structure EndsAlike (s t : State) : Prop where
  dispenses : t.dispenses = s.dispenses
  path : t.path = s.path
  position : t.position = s.position
  journal : t.journal = s.journal
  clock : t.clock = s.clock
  settings : t.settings = s.settings

theorem EndsAlike.trans {s t u : State} (h : EndsAlike s t) (k : EndsAlike t u) : EndsAlike s u :=
  ⟨k.dispenses.trans h.dispenses, k.path.trans h.path, k.position.trans h.position, k.journal.trans h.journal,
    k.clock.trans h.clock, k.settings.trans h.settings⟩

theorem DispensesHalted.from {us : List Teller} {s s' t : State} (h : DispensesHalted us s t) (k : EndsAlike s' s) :
    DispensesHalted us s' t := by
  obtain ⟨kd, kpath, kp, kj, kc, ks⟩ := k
  cases us with
  | nil =>
    obtain ⟨h1, h2, h3, h4⟩ := h
    exact ⟨h1.trans kd, h2.trans kpath, h3.trans kp, h4.trans kj⟩
  | cons u us =>
    obtain ⟨x, n, hx, hrest⟩ := h
    have hdisp : s.dispense u = s'.dispense u := by rw [State.dispense, kd]; rfl
    have hto : NotePath.timersBut s'.path (.dispense u) = NotePath.timersBut s.path (.dispense u) := by rw [kpath]
    refine ⟨x, n, ?_, hrest⟩
    rw [DispenseEnded, ← kp]
    exact hx.transfer (by rw [kd]) (by rw [hdisp]) (by rw [kpath]) kj.symm kc.symm ks.symm rfl rfl rfl rfl

/-- What emptying a wait list leaves, where the journal has room for its ends and for k more. -/
structure WaitersEnded (ws : List WaitEntry) (k : Nat) (s t : State) : Prop where
  quiet : Quiet t
  room : EndsRoom k t
  halted : ∀ (vs : List Teller) (x : State), DispensesHalted vs t x → DispensesHalted (delayedOf ws ++ vs) s x

theorem raise_alike (p : Port) (n : Notice) (s : State) : EndsAlike s (raise p n s) := by
  constructor <;> simp

theorem emptyWaiting_ended (ws : List WaitEntry) (k : Nat) (s : State) (hq : Quiet s) (hroom : EndsRoom ((delayedOf ws).length + k) s)
    (hcalm : ∀ u, .delayed u ∈ ws → (s.dispense u).state.inFlight = false) : WaitersEnded ws k s (emptyWaiting ws s) := by
  induction ws generalizing s with
  | nil => exact ⟨hq, by simpa [delayedOf, emptyWaiting] using hroom, fun _ _ h => h⟩
  | cons e ws ih =>
    have halike (p : Port) := raise_alike p (.claimEnded .lock) s
    have hraised (p : Port) := quiet_raise p (.claimEnded .lock) s hq
    have hdisp (p : Port) (u : Teller) : (raise p (.claimEnded .lock) s).dispense u = s.dispense u := by
      rw [State.dispense, (halike p).dispenses]
      rfl
    cases e with
    | claim p =>
      have k := ih (raise p (.claimEnded .lock) s) (hraised p) (hroom.of_journal (halike p).journal)
        fun u hu => by rw [hdisp]; exact hcalm u (List.mem_cons_of_mem _ hu)
      exact ⟨k.quiet, k.room, fun vs x h => (k.halted vs x h).from (halike p)⟩
    | delayed w =>
      have hone : EndsRoom ((delayedOf ws).length + k + 1) (raise w.port (.claimEnded .lock) s) := by
        refine EndsRoom.of_journal ?_ (halike w.port).journal
        rw [show (delayedOf ws).length + k + 1 = (delayedOf (.delayed w :: ws)).length + k by simp [delayedOf]; omega]
        exact hroom
      have m := endDispense_made w _ _ (hraised w.port) hone (by rw [hdisp]; exact hcalm w (by simp))
      have hwithin := endDispense_within w 7 Quad.zero false none .none (raise w.port (.claimEnded .lock) s)
      have k := ih (endDispense w 7 Quad.zero false none .none (raise w.port (.claimEnded .lock) s)) m.quiet m.room fun u hu => by
        by_cases huw : u = w
        · rw [huw, m.idle]
          rfl
        · rw [dispense_other w u _ _ hwithin huw, hdisp]
          exact hcalm u (List.mem_cons_of_mem _ hu)
      obtain ⟨n, hended⟩ := m.ended
      exact ⟨k.quiet, k.room, fun vs x h => DispensesHalted.from ⟨_, n, hended, k.halted vs x h⟩ (halike w.port)⟩

/-! ## The claim taken -/

theorem loseModule_alike (u : Teller) (s : State) : EndsAlike s (loseModule u s) := by
  unfold loseModule
  constructor <;> (split <;> simp)

theorem quiet_loseModule (u : Teller) (s : State) (h : Quiet s) : Quiet (loseModule u s) := by
  have hset := quiet_raise u.port (.claimEnded .lock) _ (quiet_setOwner s.escrow.holder s h)
  unfold loseModule
  simp only []
  split
  · exact hset
  · exact quiet_raise _ _ _ hset

/-- The owner's dispense is among those that the lock ends by itself: its grant checks are deferred, and it does not wait in the list. -/
def State.givesUp (s : State) (u : Teller) : Prop :=
  (s.dispense u).state = .queued ∧ (s.dispense u).deferred = true ∧ .delayed u ∉ s.claim.waiting

theorem haltedBy_free (s : State) (h : s.loser = none) : s.haltedBy = delayedOf s.claim.waiting := by
  unfold State.haltedBy
  simp [h]

theorem haltedBy_givesUp (s : State) (u : Teller) (h : s.loser = some u) (hg : s.givesUp u) :
    s.haltedBy = delayedOf s.claim.waiting ++ [u] := by
  obtain ⟨h1, h2, h3⟩ := hg
  unfold State.haltedBy
  simp [h, h1, h2, h3]

theorem haltedBy_keeps (s : State) (u : Teller) (h : s.loser = some u) (hg : ¬s.givesUp u) :
    s.haltedBy = delayedOf s.claim.waiting := by
  unfold State.givesUp at hg
  unfold State.haltedBy
  refine (congrArg _ ?_).trans (List.append_nil _)
  simp only [h, Option.toList_some, List.filter_eq_nil_iff, List.mem_singleton]
  rintro w rfl
  simpa using hg

/-- What taking the claim makes of the dispenses that it ends (R55). -/
structure ClaimEnded (s t : State) : Prop where
  quiet : Quiet t
  halted : ∀ x : State, DispensesHalted [] t x → DispensesHalted s.haltedBy s x

theorem lockClaim_ended (s : State) (hq : Quiet s) (hroom : EndsRoom s.haltedBy.length s)
    (hcalm : ∀ u ∈ s.haltedBy, (s.dispense u).state.inFlight = false) : ClaimEnded s (lockClaim s) := by
  have hstart : EndsAlike s { s with claim := { s.claim with waiting := [] } } := ⟨rfl, rfl, rfl, rfl, rfl, rfl⟩
  have hwaits (u : Teller) (hu : .delayed u ∈ s.claim.waiting) : (s.dispense u).state.inFlight = false :=
    hcalm u ((s.mem_haltedBy u).mpr (.inl hu))
  have hsent (k : Nat) (hk : s.haltedBy.length = (delayedOf s.claim.waiting).length + k) :
      WaitersEnded s.claim.waiting k { s with claim := { s.claim with waiting := [] } } s.waitersSent :=
    emptyWaiting_ended s.claim.waiting k _ (quiet_of_eq s _ hq rfl rfl rfl) (EndsRoom.of_journal (by rw [← hk]; exact hroom) rfl) hwaits
  have k := emptyWaiting_sent s.claim.waiting { s with claim := { s.claim with waiting := [] } }
  rw [lockClaim_eq]
  cases hl : s.loser with
  | none =>
    have hh := haltedBy_free s hl
    have m := hsent 0 (by rw [hh]; rfl)
    refine ⟨m.quiet, fun x hx => ?_⟩
    rw [hh, ← List.append_nil (delayedOf s.claim.waiting)]
    exact (m.halted [] x hx).from hstart
  | some u =>
    by_cases hg : s.givesUp u
    · have hh := haltedBy_givesUp s u hl hg
      have m := hsent 1 (by rw [hh]; simp)
      obtain ⟨hs, hd, hn⟩ := hg
      have hsame : s.waitersSent.dispense u = s.dispense u := k.others u hn
      have hgive : giveUpDeferred u s.waitersSent = endDispense u 7 Quad.zero false none .none s.waitersSent := by
        unfold giveUpDeferred
        rw [hsame, if_pos ⟨hs, hd⟩]
      have e := endDispense_made u 0 s.waitersSent m.quiet m.room (by rw [hsame, hs]; rfl)
      simp only []
      rw [hgive]
      have halike := loseModule_alike u (endDispense u 7 Quad.zero false none .none s.waitersSent)
      refine ⟨quiet_loseModule u _ e.quiet, fun x hx => ?_⟩
      obtain ⟨n, hended⟩ := e.ended
      rw [hh]
      exact (m.halted [u] x ⟨_, n, hended, hx.from halike⟩).from hstart
    · have hh := haltedBy_keeps s u hl hg
      have m := hsent 0 (by rw [hh]; rfl)
      have hgive : giveUpDeferred u s.waitersSent = s.waitersSent := by
        unfold giveUpDeferred
        refine if_neg fun ⟨hs, hd⟩ => ?_
        by_cases hn : .delayed u ∈ s.claim.waiting
        · rcases k.halted u (.inl hn) with hi | ⟨-, hdef, -⟩
          · rw [show s.waitersSent.dispense u = Dispense.idle from hi] at hs
            exact absurd hs (by simp [Dispense.idle])
          · rw [show (s.waitersSent.dispense u).deferred = false from hdef] at hd
            exact absurd hd (by simp)
        · rw [show s.waitersSent.dispense u = s.dispense u from k.others u hn] at hs hd
          exact hg ⟨hs, hd, hn⟩
      simp only []
      rw [hgive]
      refine ⟨quiet_loseModule u _ m.quiet, fun x hx => ?_⟩
      rw [hh, ← List.append_nil (delayedOf s.claim.waiting)]
      exact (m.halted [] x (hx.from (loseModule_alike u _))).from hstart

end Sys2Proof.Machine
end

section
/-! A wired loop's ACTIVE that brings MODULE_LOCK (O49): the zone latches, and the dispenses end HALTED. -/
namespace Sys2Proof.Machine

/-! ## The reading taken (R139, R143) -/

theorem setTrouble_clear (z : Fin 16) (s : State) : setTrouble z false s = { s with alarm := (setTrouble z false s).alarm } := by
  unfold setTrouble
  simp only []
  split <;> rfl

theorem activate_latches (z : Fin 16) (port : Option Port) (s : State) (he : s.alarm.eligible z = true)
    (hq : (s.zone z).state = .quiet) (ht : (s.zone z).config.type ≠ .intrusionDelayed) :
    activate z port s = latch z port false s := by
  unfold activate
  rw [if_pos he, hq]
  exact if_neg fun h => ht h.1

/-- A state that differs in the alarm unit alone, zone z as it was but for its reading, input and timers. -/
structure AlarmRead (z : Fin 16) (s w : State) : Prop where
  rest : w = { s with alarm := w.alarm }
  restriction : w.alarm.restriction = s.alarm.restriction
  config : (w.zone z).config = (s.zone z).config
  state : (w.zone z).state = (s.zone z).state

/-- An ACTIVE that has held latches a QUIET zone (R139, R143). -/
theorem readingHeld_latches (z : Fin 14) (s : State) (htimer : (s.zone (wired z)).debounceTimer.isSome = true)
    (hloop : s.pins.loops.get z = .active) (hin : (s.zone (wired z)).inputActive = false) (hq : (s.zone (wired z)).state = .quiet)
    (ht : (s.zone (wired z)).config.type ≠ .intrusionDelayed) (he : s.alarm.eligible (wired z) = true) :
    ∃ w : State, readingHeld z s = latch (wired z) none false w ∧ AlarmRead (wired z) s w := by
  let r := s.zone (wired z)
  let s1 := onZone (wired z) (fun r => { r with debounceTimer := none }) s
  let s2 := onZone (wired z) (fun r => { r with reading := .active }) s1
  let s3 := setTrouble (wired z) false s2
  let w := onZone (wired z) (fun r => { r with inputActive := true }) s3
  have h2 : ZonesAre (s.alarm.setZone (wired z) { r with debounceTimer := none, reading := .active }) s2 := by
    have a : ZonesAre (s.alarm.setZone (wired z) { r with debounceTimer := none }) s1 := ⟨rfl, rfl, rfl⟩
    have b : ZonesAre (s1.alarm.setZone (wired z) { s1.zone (wired z) with reading := .active }) s2 := ⟨rfl, rfl, rfl⟩
    rw [a.zone] at b
    exact a.next b
  have h3 := setTrouble_zones (wired z) false s2
  rw [h2.zone] at h3
  have h3 := h2.next h3
  have h3in : (s3.zone (wired z)).inputActive = false := by rw [show s3.zone (wired z) = _ from h3.zone]; exact hin
  have h4 : ZonesAre (s.alarm.setZone (wired z) { s3.zone (wired z) with inputActive := true }) w :=
    h3.next (t := w) ⟨rfl, rfl, rfl⟩
  have h3zone : s3.zone (wired z) = _ := h3.zone
  have hconfig : (w.zone (wired z)).config = r.config := by rw [h4.zone, h3zone]
  have hstate : (w.zone (wired z)).state = r.state := by rw [h4.zone, h3zone]
  have helig : w.alarm.eligible (wired z) = true := by
    rw [h4.eligible (by rw [h3zone]; rfl) (by rw [h3zone]; rfl)]
    exact he
  have hrestr : s3.alarm.restriction = s.alarm.restriction := (setTrouble_undisturbed (wired z) false s2).steady.restriction
  refine ⟨w, ?_, ?_, hrestr, hconfig, hstate⟩
  · have hheld : readingHeld z s = setInput (wired z) true s3 := by
      unfold readingHeld
      rw [if_pos htimer, hloop]
      rfl
    rw [hheld, setInput, if_neg (by rw [h3in]; decide)]
    exact activate_latches (wired z) none w helig (hstate.trans hq) (by rw [hconfig]; exact ht)
  · have e := setTrouble_clear (wired z) s2
    exact congrArg (fun x : State => { x with alarm := w.alarm }) e

/-! ## The zone latched, before the set is computed anew -/

/-- What latches a zone, but for the level and the set computed anew. -/
def State.latching (s : State) (z : Fin 16) (port : Option Port) (entry : Bool) : State :=
  let s := setZoneState z .pendingActive s
  let s := onZone z (fun r => { r with entryTimer := none, marked := none, lastActivation := s.clock.count }) s
  let (_, s) := eventRecord (alarmDraft z port entry (s.zone z).config.level s.alarm.activeLevel) s
  reportHoldup z (soundFor z s)

theorem latch_eq (z : Fin 16) (port : Option Port) (entry : Bool) (s : State) :
    latch z port entry s = recompute (s.latching z port entry) := rfl

/-- What the latching of a QUIET zone leaves before the set is computed anew (R75, R143, R157). -/
structure Latching (z : Fin 16) (s x : State) : Prop where
  undisturbed : Undisturbed s x
  kept : x.startUp = s.startUp ∧ x.clock = s.clock ∧ x.settings = s.settings ∧ x.claim = s.claim ∧ x.escrow = s.escrow ∧
    x.path = s.path ∧ x.position = s.position
  recorded : EventWritten (fun y => y.kind = .alarm ∧ y.port = none ∧ y.outcome = 1 ∧ y.extra = z.val) s x
  held : x.journal.endHold = s.journal.endHold
  promised : x.journal.promised = s.journal.promised
  delays : DelaysExtended (s.zone z).caps s x

theorem eventRecord_promised (d : Draft) (s : State) : (eventRecord d s).2.journal.promised = s.journal.promised := by
  unfold eventRecord
  split
  · exact stage_promised d s
  · rw [loseRecord_journal]

theorem latching_leaves (z : Fin 16) (s : State) : Latching z s (s.latching z none false) := by
  unfold State.latching
  simp only []
  have u1 := (setZoneState_undisturbed z .pendingActive s).trans
    (onZone_undisturbed z (fun r => { r with entryTimer := none, marked := none, lastActivation := s.clock.count }) _)
  have hb : (setZoneState z .pendingActive s).clock = s.clock := by simp
  rw [hb]
  have hzone : ((onZone z (fun r => { r with entryTimer := none, marked := none, lastActivation := s.clock.count })
      (setZoneState z .pendingActive s)).zone z).config = (s.zone z).config := by
    rw [onZone_zone_self, (setZoneState_zones z .pendingActive s).zone]
  have hkept : ∀ b, b = onZone z (fun r => { r with entryTimer := none, marked := none, lastActivation := s.clock.count })
      (setZoneState z .pendingActive s) → b.journal = s.journal ∧ b.dispenses = s.dispenses ∧ b.startUp = s.startUp ∧
        b.clock = s.clock ∧ b.settings = s.settings ∧ b.claim = s.claim ∧ b.escrow = s.escrow ∧ b.path = s.path ∧
        b.position = s.position := by
    rintro b rfl
    simp
  generalize onZone z (fun r => { r with entryTimer := none, marked := none, lastActivation := s.clock.count })
      (setZoneState z .pendingActive s) = b at u1 hzone hkept ⊢
  obtain ⟨bj, bd, bu, bc, bs, bcl, be, bp, bpos⟩ := hkept b rfl
  generalize hd : alarmDraft z none false (b.zone z).config.level b.alarm.activeLevel = d
  have hw := eventRecord_written d b (fun y => y.kind = .alarm ∧ y.port = none ∧ y.outcome = 1 ∧ y.extra = z.val)
    (fun n => by rw [← hd]; exact ⟨rfl, rfl, rfl, rfl⟩)
  have hheld := eventRecord_endHold d b
  have hpromised := eventRecord_promised d b
  have u2 := u1.trans (eventRecord_undisturbed d b)
  have k := eventRecord_keeps d b
  generalize (eventRecord d b).2 = c at *
  have ks := soundFor_keeps z c
  have hcaps : ((soundFor z c).zone z).caps = (s.zone z).caps := by
    have e := (soundFor_zones z c).1
    unfold Zone.caps
    rw [show (soundFor z c).zone z = c.zone z from AlarmUnit.zone_of_zones e z,
      show c.zone z = b.zone z by simp only [State.zone, k], hzone]
  have hx := reportHoldup_extends z (soundFor z c)
  rw [hcaps] at hx
  refine ⟨(u2.trans (soundFor_undisturbed z c)).trans (reportHoldup_undisturbed z _), ?_, ?_, ?_, ?_, fun w => ?_⟩
  · simp [k, bu, bc, bs, bcl, be, bp, bpos]
  · exact hw.transfer bj.symm bc.symm (by simp)
  · simp [hheld, bj]
  · simp [hpromised, bj]
  · have hdw : (soundFor z c).dispense w = s.dispense w := by simp [State.dispense, k, bd]
    have hsw : (soundFor z c).settings = s.settings := by simp [k, bs]
    have h := hx w
    rw [hdw, hsw] at h
    exact h

/-- The ALARM record, written or lost, leaves the room that a lock's ends need. -/
theorem Latching.room {z : Fin 16} {s x : State} (h : Latching z s x) (k : Nat) (hr : EndsRoom (k + 1) s ∨ k = 0) : EndsRoom k x := by
  rcases hr with hr | rfl
  · by_cases hroom : s.journal.eventRoom = true
    · obtain ⟨-, -, n, hn, -⟩ := hr.resolve_left (by omega)
      obtain ⟨r, -, hs, -⟩ := h.recorded.1 hroom n hn
      exact hr.staged hs h.held h.promised
    · have hj := h.recorded.2 (by simpa using hroom)
      obtain ⟨hold, free, n, hn, hlast⟩ := hr.resolve_left (by omega)
      refine .inr ⟨by rw [hj]; exact hold, ?_, n, by rw [hj]; exact hn, by omega⟩
      rw [hj]
      exact Nat.le_of_succ_le free
  · exact .inl rfl

/-! ## The set computed anew (R153) -/

/-- The state in which a set that takes MODULE_LOCK is told to the arbiter. -/
def State.lockTold (s : State) : State := (recomputeLevel s).setReported s.alarm.latchedEffects

theorem lockTold_alike (s : State) :
    EndsAlike s s.lockTold ∧ s.lockTold.startUp = s.startUp ∧ s.lockTold.claim = s.claim ∧ s.lockTold.escrow = s.escrow := by
  unfold State.lockTold State.setReported
  refine ⟨by constructor <;> simp [State.onAlarm], ?_, ?_, ?_⟩ <;> simp [State.onAlarm]

/-- A new set that takes MODULE_LOCK: reported, the lock entered, and then the permit and the sounder where they follow. -/
theorem newRestriction_locks (before after : Effects) (s : State) (ha : Effects.has after .moduleLock = true)
    (hb : Effects.has before .moduleLock = false) :
    ∃ slot sounds : Bool,
      let y := lockEntered (s.setReported after)
      let x := if slot then judgePermit y else y
      newRestriction before after s = if sounds then sounderOff x else x := by
  refine ⟨after.has .slotClose != before.has .slotClose, before.has .sounder && !after.has .sounder, ?_⟩
  have hlock : (after.has .moduleLock && !before.has .moduleLock) = true := by rw [ha, hb]; rfl
  unfold newRestriction
  simp only [hlock, if_true]
  rfl

/-- Where the set takes MODULE_LOCK with no escrow operation in flight, the arbiter's work is all that touches the claim, the dispenses
and what their ends touch. -/
theorem recompute_locks (s : State) (hp : s.startUp.phase = .ready) (hf : s.restricted .moduleLock = false)
    (hl : Effects.has s.alarm.latchedEffects .moduleLock = true) (hop : s.escrow.op = none) :
    EndsAlike (lockClaim s.lockTold) (recompute s) ∧ (recompute s).claim = (lockClaim s.lockTold).claim ∧
      (recompute s).escrow.op = (lockClaim s.lockTold).escrow.op := by
  have hlevel : (recomputeLevel s).alarm.latchedEffects = s.alarm.latchedEffects ∧
      (recomputeLevel s).alarm.restriction = s.alarm.restriction := by
    unfold recomputeLevel
    split <;> exact ⟨rfl, rfl⟩
  have hbefore : Effects.has (recomputeLevel s).alarm.restriction .moduleLock = false := by
    rw [hlevel.2]
    exact hf
  obtain ⟨-, hu, -, he⟩ := lockTold_alike s
  have hentered : lockEntered s.lockTold = lockClaim s.lockTold := by
    have hnone : (lockClaim s.lockTold).escrow.lockable = none := by
      rw [(lockClaim_locked s.lockTold).op, Escrow.lockable, he, hop]
    unfold lockEntered
    rw [if_pos (by rw [hu]; exact hp)]
    unfold lockEscrow
    unfold Escrow.lockable at hnone
    split
    · rfl
    next h => rw [h] at hnone; exact absurd hnone (by simp)
    next h => rw [h] at hnone; exact absurd hnone (by simp)
    · rfl
  have halike (b : Bool) (f : State → State) (x : State) (hf : EndsAlike x (f x) ∧ (f x).claim = x.claim ∧ (f x).escrow = x.escrow) :
      EndsAlike x (if b then f x else x) ∧ (if b then f x else x).claim = x.claim ∧ (if b then f x else x).escrow = x.escrow := by
    split
    · exact hf
    · exact ⟨⟨rfl, rfl, rfl, rfl, rfl, rfl⟩, rfl, rfl⟩
  obtain ⟨slot, sounds, hnew⟩ := newRestriction_locks _ s.alarm.latchedEffects (recomputeLevel s) hl hbefore
  have hrec : recompute s = newRestriction (recomputeLevel s).alarm.restriction s.alarm.latchedEffects (recomputeLevel s) := by
    unfold recompute
    simp only [hlevel.1]
    refine if_neg fun e => ?_
    rw [← e, hl] at hbefore
    exact absurd hbefore (by simp)
  have hlocked : lockEntered ((recomputeLevel s).setReported s.alarm.latchedEffects) = lockClaim s.lockTold := hentered
  rw [hrec, hnew, hlocked]
  obtain ⟨j1, j2, j3⟩ := halike slot judgePermit (lockClaim s.lockTold) ⟨by constructor <;> simp, by simp, by simp⟩
  obtain ⟨k1, k2, k3⟩ := halike sounds sounderOff (if slot then judgePermit (lockClaim s.lockTold) else lockClaim s.lockTold)
    ⟨by constructor <;> simp, by simp, by simp⟩
  exact ⟨j1.trans k1, k2.trans j2, by rw [k3, j3]⟩

end Sys2Proof.Machine
end

section
/-! MODULE_LOCK empties the wait list and takes the claim (O49): what any command's lock does, and a wired loop's lock. -/
namespace Sys2Proof.Machine

/-! ## A state that a lock finds as it found another -/

theorem AsFound.haltedBy {s t : State} (h : AsFound s t) : t.haltedBy = s.haltedBy := by
  have hl : t.loser = s.loser := by rw [State.loser, State.loser, h.owner]
  simp only [State.haltedBy, hl, h.waiting, (h.stage _).1, (h.stage _).2]

/-- Whether anything waits to be taken up depends on the stage of the dispenses, the note path and the escrow operation alone. -/
theorem quiet_of_stage {s t : State} (h : Quiet s) (hd : Undisturbed s t) (hp : t.path = s.path) : Quiet t := by
  intro w
  have hw := h w
  obtain ⟨state, deferred, ending⟩ := hd.stage w
  obtain ⟨other, -, -⟩ := hd.stage w.other
  have hflight : t.opInFlight w.other.port = s.opInFlight w.other.port := by
    have ho : (t.dispenses.get w.other).state = (s.dispenses.get w.other).state := other
    cases w <;> simp only [State.opInFlight, hd.steady.op, Teller.other, Teller.port, Port.teller?, State.dispenseInFlight] at ho ⊢ <;>
      rw [ho]
  rw [state, deferred, hflight, State.retractWaits, state, ending, hp]
  exact hw

/-! ## The set computed anew and the end of the step -/

section
variable {s : State} (hp : s.startUp.phase = .ready) (hf : s.restricted .moduleLock = false)
  (hl : Effects.has s.alarm.latchedEffects .moduleLock = true) (hop : s.escrow.op = none)
include hp hf hl hop

/-- The dispenses that the lock ends come to their ends, and the step changes nothing else of what their ends touch. -/
theorem recompute_ends (hq : Quiet s) (hroom : EndsRoom s.haltedBy.length s) (hcalm : ∀ u ∈ s.haltedBy, (s.dispense u).state = .queued) :
    Quiet (recompute s) ∧ DispensesHalted s.haltedBy s (settle (recompute s)) := by
  obtain ⟨hy, -, hyop⟩ := recompute_locks s hp hf hl hop
  obtain ⟨hv, hvu, hvc, hve⟩ := lockTold_alike s
  have hdisp (u : Teller) : s.lockTold.dispense u = s.dispense u := by rw [State.dispense, hv.dispenses]; rfl
  have hfound : AsFound s s.lockTold := by
    refine ⟨by rw [hvu]; exact hp, by rw [hvc], by rw [hvc], by rw [hve], by rw [hve], fun u => ?_⟩
    rw [hdisp]
    exact ⟨rfl, rfl⟩
  have hended := lockClaim_ended s.lockTold (quiet_of_eq s _ hq hv.dispenses hv.path (by rw [hve]))
    (by rw [hfound.haltedBy]; exact hroom.of_journal hv.journal)
    (by rw [hfound.haltedBy]; intro u hu; rw [hdisp, hcalm u hu]; rfl)
  have hquiet : Quiet (recompute s) := quiet_of_eq _ _ hended.quiet hy.dispenses hy.path hyop
  have hpow : (recompute s).powered = true := by
    rw [State.powered, (recompute_keeps s).1, hp]
    rfl
  have hk := settle_keeps_quiet _ hquiet hpow
  refine ⟨hquiet, ?_⟩
  rw [← hfound.haltedBy]
  refine DispensesHalted.from (hended.halted _ ⟨?_, ?_, ?_, ?_⟩) hv
  · exact (hk .dispenses (by simp)).trans hy.dispenses
  · exact (hk .path (by simp)).trans hy.path
  · exact (hk .position (by simp)).trans hy.position
  · exact (hk .journal (by simp)).trans hy.journal

/-- Port S keeps the module, and its idle timer goes on (R53, R55). -/
theorem recompute_idle (hq : Quiet (recompute s)) (ho : s.claim.owner = .portS) (hi : s.claim.idle.isSome = true) :
    (settle (recompute s)).claim.idle = s.claim.idle := by
  obtain ⟨-, hyc, hyop⟩ := recompute_locks s hp hf hl hop
  obtain ⟨-, -, hvc, hve⟩ := lockTold_alike s
  have hloser : s.lockTold.loser = none := by rw [State.loser, hvc, ho]
  have hclaim : (lockClaim s.lockTold).claim = { s.claim with waiting := [] } := by
    rw [lockClaim_eq, hloser]
    simp [State.waitersSent, hvc]
  have hopnone : (recompute s).escrow.op = none := by
    rw [hyop, lockClaim_eq, hloser]
    exact ((emptyWaiting_sent s.lockTold.claim.waiting _).steady.op).trans (by rw [← hop, ← hve])
  have hruns : (recompute s).idleRuns = true := by
    have howner : (recompute s).claim.owner = .portS := by rw [hyc, hclaim]; exact ho
    simp [State.idleRuns, howner, Owner.port?, State.opInFlight, Port.teller?, hopnone]
  have hpow : (recompute s).powered = true := by
    rw [State.powered, (recompute_keeps s).1, hp]
    rfl
  obtain ⟨n, hn⟩ := Option.isSome_iff_exists.mp hi
  have hsome : (recompute s).claim.idle = some n := by rw [hyc, hclaim]; exact hn
  have hwatch : watchIdle (recompute s) = recompute s := by
    unfold watchIdle
    rw [if_pos hruns, hsome]
  rw [settle_quiet _ hq hpow, hwatch, hn]
  simpa using hsome

end

/-! ## A wired loop's lock -/

/-- A QUIET zone with MODULE_LOCK that latches puts the lock into the set. -/
theorem latching_locks (z : Fin 16) (w : State) (he : Effects.has (w.zone z).config.effects .moduleLock = true) :
    Effects.has (w.latching z none false).alarm.latchedEffects .moduleLock = true ∧
      ((recompute (w.latching z none false)).zone z).state = .pendingActive := by
  have hz := latch_zones z none false w
  rw [latch_eq] at hz
  have hzone : (recompute (w.latching z none false)).zone z = _ := hz.zone
  have hsame : (w.latching z none false).alarm.zone z = (recompute (w.latching z none false)).zone z :=
    (AlarmUnit.zone_of_zones (recompute_zones (w.latching z none false)).1 z).symm
  refine ⟨(AlarmUnit.latchedEffects_has _ _).mpr ⟨z, ?_, ?_⟩, by rw [hzone]⟩
  · rw [hsame, hzone]
    rfl
  · rw [hsame, hzone]
    exact he

/-- What a wired loop's ACTIVE that brings the lock comes to: x stands once the zone has latched, and t ends the step. -/
structure LoopLocks (z : Fin 16) (s x t : State) : Prop where
  latched : Latching z s x
  phase : t.startUp.phase = .ready
  restricted : t.restricted .moduleLock = true
  zone : (t.zone z).state = .pendingActive
  ended : DispensesHalted s.haltedBy x t
  idle : s.claim.owner = .portS → s.claim.idle.isSome = true → t.claim.idle = s.claim.idle

/-- A zone's latching from a state that differs in the alarm unit alone. -/
theorem Latching.of_read {z : Fin 16} {s w x : State} (h : Latching z w x) (hr : AlarmRead z s w) : Latching z s x := by
  obtain ⟨rest, restriction, config, -⟩ := hr
  have hcaps : (w.zone z).caps = (s.zone z).caps := by rw [Zone.caps, config]; rfl
  have hj : w.journal = s.journal := by rw [rest]
  have hc : w.clock = s.clock := by rw [rest]
  have hu : Undisturbed s w := by
    refine Steady.undisturbed ⟨restriction, by rw [rest], by rw [rest], by rw [rest], by rw [rest], by rw [rest], ?_, ?_, ?_, ?_⟩ ?_
    · intro p hp
      rw [rest]
      exact hp
    · intro hp
      rw [rest]
      exact hp
    · rintro p - ⟨c, hp⟩
      refine ⟨c, ?_⟩
      rw [restriction, rest]
      exact hp
    · rw [hj]
      exact fun _ => id
    · rw [rest]
  refine ⟨hu.trans h.undisturbed, ?_, h.recorded.transfer hj.symm hc.symm rfl, by rw [h.held, hj], by rw [h.promised, hj], fun u => ?_⟩
  · obtain ⟨h1, h2, h3, h4, h5, h6, h7⟩ := h.kept
    exact ⟨by rw [h1, rest], by rw [h2, rest], by rw [h3, rest], by rw [h4, rest], by rw [h5, rest], by rw [h6, rest], by rw [h7, rest]⟩
  · have hd : w.dispense u = s.dispense u := by rw [rest]; rfl
    have hs : w.settings = s.settings := by rw [rest]
    rw [← hcaps, ← hd, ← hs]
    exact h.delays u

theorem settle_zone (s : State) (h : Quiet s) (hp : s.powered = true) (z : Fin 16) : (settle s).zone z = s.zone z := by
  have ha := settle_keeps_quiet s h hp .alarm (by simp)
  exact AlarmUnit.zone_of_zones (congrArg AlarmUnit.zones ha) z

/-- A wired loop's ACTIVE from QUIET, with MODULE_LOCK in its zone, no escrow operation in flight and room for the ends (R55, R143). -/
theorem debouncedReadingChange_locks (z : Fin 14) (s : State) (hp : s.startUp.phase = .ready) (hq : Quiet s)
    (htimer : (s.zone (wired z)).debounceTimer.isSome = true) (hloop : s.pins.loops.get z = .active)
    (hin : (s.zone (wired z)).inputActive = false) (hstate : (s.zone (wired z)).state = .quiet)
    (htype : (s.zone (wired z)).config.type ≠ .intrusionDelayed) (helig : s.alarm.eligible (wired z) = true)
    (hlock : Effects.has (s.zone (wired z)).config.effects .moduleLock = true) (hfree : s.restricted .moduleLock = false)
    (hop : s.escrow.op = none) (hqueued : ∀ u ∈ s.haltedBy, (s.dispense u).state = .queued)
    (hroom : EndsRoom (s.haltedBy.length + 1) s ∨ s.haltedBy.length = 0) :
    ∃ x t : State, exec (.debouncedReadingChange z) s = .next t ∧ LoopLocks (wired z) s x t := by
  obtain ⟨w, hheld, hread⟩ := readingHeld_latches z s htimer hloop hin hstate htype helig
  have hlatch : Latching (wired z) s (w.latching (wired z) none false) := (latching_leaves (wired z) w).of_read hread
  obtain ⟨heffects, hzone⟩ := latching_locks (wired z) w (by rw [hread.config]; exact hlock)
  have hexec : exec (.debouncedReadingChange z) s = .next (settle (recompute (w.latching (wired z) none false))) := by
    have hrun : s.running = true := by simp [State.running, hp]
    show done (event (readingHeld z) s) = _
    rw [event_running _ _ hrun, hheld, latch_eq]
    rfl
  generalize w.latching (wired z) none false = x at *
  obtain ⟨hu, -, -, hclaim, hescrow, hpath, -⟩ := id hlatch.kept
  have hxp : x.startUp.phase = .ready := by rw [hu]; exact hp
  have hxf : x.restricted .moduleLock = false := by rw [State.restricted, hlatch.undisturbed.steady.restriction]; exact hfree
  have hxop : x.escrow.op = none := by rw [hescrow]; exact hop
  have hfound : AsFound s x := (show AsFound s s from ⟨hp, rfl, rfl, rfl, rfl, fun _ => ⟨rfl, rfl⟩⟩).steady hlatch.undisturbed
  have hxq : Quiet x := quiet_of_stage hq hlatch.undisturbed hpath
  obtain ⟨hquiet, hended⟩ := recompute_ends hxp hxf heffects hxop hxq (by rw [hfound.haltedBy]; exact hlatch.room _ hroom)
    (by rw [hfound.haltedBy]; intro u hu; rw [(hfound.stage u).1]; exact hqueued u hu)
  have hset := settle_set (recompute x)
  have hyp : (recompute x).startUp.phase = .ready := by rw [(recompute_keeps x).1]; exact hxp
  refine ⟨x, _, hexec, hlatch, by rw [hset.1]; exact hyp, ?_, ?_, by rw [← hfound.haltedBy]; exact hended, fun ho hi => ?_⟩
  · rw [hset.2, State.restricted, recompute_restriction]
    exact heffects
  · exact (congrArg Zone.state (settle_zone (recompute x) hquiet (by rw [State.powered, hyp]; rfl) (wired z))).trans hzone
  · rw [recompute_idle hxp hxf heffects hxop hquiet (by rw [hclaim]; exact ho) (by rw [hclaim]; exact hi), hclaim]

/-! ## The escrow operation under a lock -/

theorem Locked.insert {s t : State} (h : Locked s t) (o : InsertOp) (ho : s.escrow.op = some (.insert o)) :
    t.escrow.op = some (.insert (if o.note = .none then o else { o with locked := true })) := by
  have k := h.op
  rw [Escrow.lockable, ho] at k
  exact k

theorem Locked.give {s t : State} (h : Locked s t) (o : ReturnOp) (ho : s.escrow.op = some (.give o)) (hn : o.ended = none) :
    if o.note.isSome then t.escrow.op = some (.give { o with locked := true })
    else
      t.escrow.op = none ∨
        (t.escrow.op = some (.give { o with moving := false, ended := some .halted }) ∧ .give .halted ∈ t.journal.endHold) := by
  have k := h.op
  rw [Escrow.lockable, ho] at k
  simp only [OpLocked] at k
  rwa [if_neg (by simp [hn])] at k

/-! ## The obligation -/

/-- Settles O49: a command that brings the lock finds the claim and the escrow as they were and does what the lock does; a wired loop's
lock ends the dispenses one after the other. -/
theorem moduleLockTakesClaim : Obligations.ModuleLockTakesClaim := by
  unfold Obligations.ModuleLockTakesClaim
  refine ⟨fun c s t hp _ hd he ht hf hl => ?_, fun z s hp hq hd => ?_⟩
  · have k := lock_taken c s t hp hd he ht hf hl
    refine ⟨⟨k.owner, k.waiting⟩, k.loserTold, k.waitersTold, k.granted, fun u hu => ?_, k.stack, k.insert, k.give, k.told⟩
    exact (k.halted u hu).imp id fun ⟨ending, _, held⟩ => ⟨ending, held⟩
  · intro r caps loses halted htimer hloop hin hstate htype helig hlock hf hop hqueued hroom
    have hends : EndsRoom (s.haltedBy.length + 1) s ∨ s.haltedBy.length = 0 := by
      by_cases hn : s.haltedBy = []
      · exact .inr (by rw [hn]; rfl)
      · obtain ⟨hold, free, n, hnext, hlast⟩ := hroom hn
        have hlen : halted.length = s.haltedBy.length := rfl
        exact .inl (.inr ⟨hold, by omega, n, hnext, by omega⟩)
    obtain ⟨x, t, he, ends⟩ := debouncedReadingChange_locks z s hp hq htimer hloop hin hstate htype helig hlock hf hop hqueued hends
    have k := lock_taken _ s t hp hd he ends.phase hf ends.restricted
    obtain ⟨-, -, -, -, -, hpath, hpos⟩ := ends.latched.kept
    exact ⟨t, he, ends.restricted, ends.zone, ⟨k.owner, k.waiting⟩, k.loserTold, k.waitersTold, k.granted, k.stack,
      fun ho hi _ => ends.idle ho hi, x, ends.latched.recorded, hpos, hpath, ends.latched.delays, ends.ended⟩

end Sys2Proof.Machine
end
